-- ==== Sys2Proof/Word.lean ====
section
/-! DEFINITION. The word types of the XN: bytes, the 32-bit register word, the 40-bit physical address and the
64-bit Brorok register (R10, R14, R38). -/

namespace Sys2Proof

/-- One byte of SRAM, of a frame or of an image. -/
abbrev Byte := BitVec 8
/-- A 32-bit register word (R10). -/
abbrev W32 := BitVec 32
/-- A Brorok general register or an engine command value (R38, R70). -/
abbrev W64 := BitVec 64
/-- A cycle-counter or seconds value (R14). -/
abbrev W48 := BitVec 48

end Sys2Proof
end

