-- ==== Sys2Proof/Machine/Table.lean ====
section
/-! DEFINITION. Sparse tables: plain data that hold memory, register files, contexts and buffers. A table lists
(key, value) pairs with keys strictly rising and lists no pair whose value is what an unlisted key reads as. -/

namespace Sys2Proof.Machine

/-- A sparse map from numbers to values, as plain data. -/
abbrev Table (α : Type) := List (Nat × α)

/-- Read key `k`; `d` says what an unlisted key reads as. -/
def Table.get {α : Type} (d : Nat → α) : Table α → Nat → α
  | [], k => d k
  | (j, v) :: t, k => if j = k then v else Table.get d t k

/-- Put `v` at key `k`, keeping keys in rising order. -/
def Table.put {α : Type} : Table α → Nat → α → Table α
  | [], k, v => [(k, v)]
  | (j, w) :: t, k, v =>
    if j = k then (k, v) :: t
    else if k < j then (k, v) :: (j, w) :: t
    else (j, w) :: Table.put t k v

/-- Take key `k` off the list. -/
def Table.drop {α : Type} (t : Table α) (k : Nat) : Table α := t.filter fun kv => kv.1 != k

/-- Write `v` at key `k`; a value that an unlisted key reads as is not listed. -/
def Table.set {α : Type} [DecidableEq α] (d : Nat → α) (t : Table α) (k : Nat) (v : α) : Table α :=
  if v = d k then t.drop k else t.put k v

/-- Change the value at key `k` by `f`. -/
def Table.upd {α : Type} [DecidableEq α] (d : Nat → α) (t : Table α) (k : Nat) (f : α → α) : Table α :=
  Table.set d t k (f (Table.get d t k))

/-- Drop every key for which `p` holds (the reset of a range). -/
def Table.wipe {α : Type} (t : Table α) (p : Nat → Bool) : Table α :=
  t.filter fun kv => !p kv.1

/-- Change every listed value; values equal to `d` leave the list. -/
def Table.mapV {α : Type} [DecidableEq α] (d : α) (f : α → α) (t : Table α) : Table α :=
  (t.map fun kv => (kv.1, f kv.2)).filter fun kv => decide (kv.2 ≠ d)

/-- The keys rise strictly. -/
def Table.rising {α : Type} : Table α → Bool
  | [] => true
  | (j, _) :: t => (t.head?.all fun kv => decide (j < kv.1)) && Table.rising t

/-- The canonical form: keys strictly rising and no listed value equal to the unlisted one. -/
def Table.wf {α : Type} [DecidableEq α] (d : Nat → α) (t : Table α) : Bool :=
  Table.rising t && t.all fun kv => decide (kv.2 ≠ d kv.1)

end Sys2Proof.Machine
end

