-- ==== Sys2Proof/Machine/Bits.lean ====
section
/-! DEFINITION. Bit fields, little-endian byte strings, saturation, rounding division and the CRC-32C of R214. -/

namespace Sys2Proof.Machine

/-- Bits [lo+w-1:lo] of a number. -/
def fld (v lo w : Nat) : Nat := v / 2 ^ lo % 2 ^ w

/-- Put `x` into bits [lo+w-1:lo] of `v`. -/
def setFld (v lo w x : Nat) : Nat := v - fld v lo w * 2 ^ lo + x % 2 ^ w * 2 ^ lo

/-- Bit `i` of a number. -/
def bitN (v i : Nat) : Bool := v / 2 ^ i % 2 == 1

/-- A Bool as 0 or 1. -/
def b01 (b : Bool) : Nat := if b then 1 else 0

/-- Whether a code lies in one of the ranges of a list. -/
def inRanges (l : List (Nat × Nat)) (k : Nat) : Bool := l.any fun r => decide (r.1 ≤ k) && decide (k ≤ r.2)

/-- The `w`-bit two's complement reading of a number (only its low `w` bits count). -/
def sxt (w v : Nat) : Int :=
  let m := v % 2 ^ w
  if m < 2 ^ (w - 1) then (m : Int) else (m : Int) - (2 ^ w : Nat)

/-- The low `w` bits of an integer, as a number. -/
def wrapN (w : Nat) (i : Int) : Nat := (i % ((2 ^ w : Nat) : Int)).toNat

/-- Clamp an integer into lo–hi; lo wins if lo > hi (R82). -/
def clampI (lo hi x : Int) : Int := max lo (min hi x)

/-- Saturate to `w`-bit signed (R45, R75). -/
def satI (w : Nat) (x : Int) : Int := clampI (-((2 ^ (w - 1) : Nat) : Int)) (((2 ^ (w - 1) : Nat) : Int) - 1) x

/-- Ceiling division of numbers. -/
def ceilDiv (a b : Nat) : Nat := (a + b - 1) / b

/-- Division rounded half away from zero (R126, R245). -/
def roundHalfAway (a : Int) (b : Nat) : Int :=
  let q := (2 * a.natAbs + b) / (2 * b)
  if a < 0 then -(q : Int) else q

/-- Integer square root of a number below 4^fuel. -/
def isqrtAux : Nat → Nat → Nat
  | 0, _ => 0
  | n + 1, v =>
    let r := 2 * isqrtAux n (v / 4)
    if (r + 1) * (r + 1) ≤ v then r + 1 else r

/-- Integer square root. -/
def isqrt (v : Nat) : Nat := isqrtAux (Nat.log2 v / 2 + 1) v

/-- `n` bytes of a number, lowest first. -/
def toBytes : Nat → Nat → List Byte
  | 0, _ => []
  | n + 1, v => BitVec.ofNat 8 v :: toBytes n (v / 256)

/-- The number a little-endian byte string spells. -/
def ofBytes : List Byte → Nat
  | [] => 0
  | b :: t => b.toNat + 256 * ofBytes t

/-- The number a big-endian byte string spells (the signatures of R227). -/
def ofBytesBE (l : List Byte) : Nat := ofBytes l.reverse

/-- `n` bytes of a string from offset `o`; bytes past its end read 0. -/
def slice (l : List Byte) (o n : Nat) : List Byte := (List.range n).map fun i => (l.drop (o + i)).headD 0

/-- The little-endian number in `n` bytes at offset `o`. -/
def leAt (l : List Byte) (o n : Nat) : Nat := ofBytes (((l.drop o).take n))

/-- One bit of the reflected CRC-32C register (R214: polynomial 0x1EDC_6F41, reflected). -/
def crcBit (c : W32) : W32 := if c.getLsbD 0 then (c >>> 1) ^^^ 0x82F63B78#32 else c >>> 1

/-- One byte into the CRC-32C register. -/
def crcByte (c : W32) (b : Byte) : W32 :=
  let x := c ^^^ (b.zeroExtend 32)
  crcBit (crcBit (crcBit (crcBit (crcBit (crcBit (crcBit (crcBit x)))))))

/-- CRC-32C of a byte string from the given initial register, final XOR 0xFFFF_FFFF (R214). -/
def crc32c (init : W32) (l : List Byte) : W32 := l.foldl crcByte init ^^^ 0xFFFFFFFF#32

/-- CRC-32C with the initial value 0xFFFF_FFFF (R227, R249, R264, R349). -/
def crcOf (l : List Byte) : Nat := (crc32c 0xFFFFFFFF#32 l).toNat

/-- One bit of the reflected CRC-32 register of IEEE 802.3. -/
def fcsBit (c : W32) : W32 := if c.getLsbD 0 then (c >>> 1) ^^^ 0xEDB88320#32 else c >>> 1

/-- One byte into the CRC-32 register of IEEE 802.3. -/
def fcsByte (c : W32) (b : Byte) : W32 :=
  fcsBit (fcsBit (fcsBit (fcsBit (fcsBit (fcsBit (fcsBit (fcsBit (c ^^^ (b.zeroExtend 32)))))))))

/-- The frame check sequence of an Ethernet frame, as its four bytes follow the frame (R259, R310; PRESUMED: the CRC-32 of
IEEE 802.3, assumption log 121). -/
def fcsOf (l : List Byte) : List Byte := toBytes 4 (l.foldl fcsByte 0xFFFFFFFF#32 ^^^ 0xFFFFFFFF#32).toNat

/-- The initial CRC register of a safe PDU: 0xFFFF_FFFF XOR ((CELLKEY × 2^8) + CONN) (R214). -/
def crcSafeInit (cellKey conn : Nat) : W32 := 0xFFFFFFFF#32 ^^^ BitVec.ofNat 32 (cellKey * 256 + conn)

/-- Fraction of a turn of the vector (x, y) in `n` binary places, from the top one: each doubling of the angle (the square of
x + iy) shifts the next place into the half plane below the axis. The square is cut to 128 bits. -/
def angleBits : Nat → Int → Int → Nat
  | 0, _, _ => 0
  | n + 1, x, y =>
    let low := decide (y < 0) || (y == 0 && decide (x < 0))
    let x' := x * x - y * y
    let y' := 2 * x * y
    let k := Nat.log2 (max x'.natAbs y'.natAbs) - 127
    (if low then 2 ^ n else 0) + angleBits n (x' / 2 ^ k) (y' / 2 ^ k)

end Sys2Proof.Machine
end

