-- ==== Sys2Proof/Syntax.lean ====
section
/-! DEFINITION. The commands of the XN: one constructor per row of spec/opcode_table.json, with the operands that the
row's rule names, and the types of those operands. What comes from outside the device (pin levels, frames, sensor
readings, outcomes of physical checks) is an operand. -/

namespace Sys2Proof

/-- A Brorok register field of an instruction (R43). -/
abbrev Reg := BitVec 5

/-- A Brorok core: die code and index on the die (R42, CCORE). -/
structure CoreId where
  die : Nat
  idx : Nat
  deriving DecidableEq, Repr

/-- Who makes a register access: a core, or a master outside the cores (a service tool, a test bench). -/
inductive Master where
  | core (c : CoreId)
  | ext
  deriving DecidableEq, Repr

/-- The path of a Traverse command: ENGW with eng 0 (TRV) or 1 (TRH), or a write of the code to TRV_AXn_CMD (R112). -/
inductive TrvSrc where
  | engw (c : CoreId) (hub : Bool) (rd ra rb : Reg)
  | reg (die axis : Nat)
  deriving DecidableEq, Repr

/-- The path of a command to SLE, TRI or DMA: ENGW, or a write of the code to the engine's command register
(R165, R196, R328). `unit` is the axis or the channel; TRI has unit 0. -/
inductive EngSrc where
  | engw (c : CoreId) (rd ra rb : Reg)
  | reg (die unit : Nat)
  deriving DecidableEq, Repr

/-- The path of an SLE bank request: as `EngSrc`, or a write to SLE_AXn_BANK.TARGET (R150, R165). -/
inductive BankSrc where
  | cmd (src : EngSrc)
  | target (die axis : Nat) (bank : Bool)
  deriving DecidableEq, Repr

/-- A command or an ENGR with a code that the unit does not assign (R62, R69, R381). -/
inductive BadSrc where
  | engw (c : CoreId) (eng : BitVec 3) (cmd : BitVec 8) (rd ra rb : Reg)
  | engr (c : CoreId) (eng : BitVec 3) (code : BitVec 8) (rd rb : Reg)
  | trv (die axis : Nat) (code : BitVec 8)
  | sle (die axis : Nat) (code : BitVec 8)
  | tri (die : Nat) (code : BitVec 8)
  | dma (die ch : Nat) (code : BitVec 8)
  | sfy (code : BitVec 8)
  deriving DecidableEq, Repr

/-- The path of a signed command (R366): the SFY mailbox (record at SFY_CADDR), the management port or the console. -/
inductive SignedSrc where
  | mailbox
  | port (record : List Byte)
  | console (record : List Byte)
  deriving DecidableEq, Repr

/-- One flow record of a DATA frame (R261). -/
structure FlowRec where
  flow : Nat
  words : Nat
  age : Nat
  data : List W32
  deriving DecidableEq, Repr

/-- A Vistonik frame by its fields (R260–R263): the header fields, the records of a DATA frame, and the body bytes of the other types
(from payload offset 32). Its bytes on the wire are those of BusWire. -/
structure BusFrame where
  ver : Nat := 1
  typ : Nat
  sender : Nat
  gmode : Nat := 0
  ack : Bool := false
  leader : Bool := false
  chB : Bool := false
  flow : Nat := 0
  slot : Nat := 0
  cycle : W32 := 0
  tsNs : Nat := 0
  tsSec : Nat := 0
  corr : Nat := 0
  recs : List FlowRec := []
  body : List Byte := []
  deriving DecidableEq, Repr

/-- A reception on a bus port: the bytes of the frame from the destination address to the FCS (R259), and the Meridian time at
which its SFD reached the XN in units of 1/16 ns, from which the XN subtracts the PHY latency of a port in SGMII mode (R302). -/
structure BusRx where
  bytes : List Byte
  rx16 : Nat := 0
  deriving DecidableEq, Repr

/-- How a slot of the XN begins: the nanoseconds after START by which the SFD is ready to leave, and the flows whose records follow the
entry's own in a DATA frame (R37, R261, R268). The spec names no register that lists them (assumption log 74). -/
structure SlotSend where
  by_ : Nat := 0
  bundle : List Nat := []
  deriving DecidableEq, Repr

/-- The readbacks of a safe output pair as they have stood for longer than 150 µs: bit 0 is SRB2i, bit 1 SRB2i+1 (R223). -/
structure OutReadback where
  pair : Fin 8
  srb : BitVec 2
  deriving DecidableEq, Repr

/-- One arm's part of the processor channel's result vector (R199). -/
structure ProcArm where
  arm : Nat
  demand : Nat
  cause : Nat
  margin : Int
  tcpSpeed : Nat
  joints : List Int
  viol : List Bool
  deriving DecidableEq, Repr

/-- A frame at a host port: its bytes from the destination address to the last byte before the FCS, the FCS check, and the
Meridian time at which its SFD reached the XN, in units of 2^-16 ns, from which the XN subtracts PHYRX (R302, R310). -/
structure HostRx where
  bytes : List Byte
  fcsOk : Bool := true
  ts : Nat := 0
  deriving DecidableEq, Repr

/-- Every step of the table, each whole and indivisible. -/
inductive Instr where
  -- boot, reset and the datum
  | boot (compat priSel : Bool) (fails : List (Nat × Nat))
  | cartoucheRestart
  | porstNLow
  | internalReset
  | wrstNLow
  | wrstNRelease (fails : List (Nat × Nat))
  | resetStuck
  | datum (gpio : W32) (contourClocks : Nat)
  -- SYS and the register path
  | sysCompatWrite (v : Bool)
  | sysGpioset (m : W32)
  | sysGpioclr (m : W32)
  | registerWrite (m : Master) (addr : BitVec 40) (v : W32)
  | captureRead (m : Master) (addr : BitVec 40)
  | dispatch (c : CoreId)
  -- Brorok: integer ALU
  | add (c : CoreId) (rd ra rb : Reg)
  | sub (c : CoreId) (rd ra rb : Reg)
  | and (c : CoreId) (rd ra rb : Reg)
  | or (c : CoreId) (rd ra rb : Reg)
  | xor (c : CoreId) (rd ra rb : Reg)
  | nor (c : CoreId) (rd ra rb : Reg)
  | slt (c : CoreId) (rd ra rb : Reg)
  | sltu (c : CoreId) (rd ra rb : Reg)
  | sll (c : CoreId) (rd ra rb : Reg)
  | srl (c : CoreId) (rd ra rb : Reg)
  | sra (c : CoreId) (rd ra rb : Reg)
  | slli (c : CoreId) (rd ra : Reg) (sh : BitVec 6)
  | srli (c : CoreId) (rd ra : Reg) (sh : BitVec 6)
  | srai (c : CoreId) (rd ra : Reg) (sh : BitVec 6)
  | adds (c : CoreId) (rd ra rb : Reg)
  | subs (c : CoreId) (rd ra rb : Reg)
  | min (c : CoreId) (rd ra rb : Reg)
  | max (c : CoreId) (rd ra rb : Reg)
  | minu (c : CoreId) (rd ra rb : Reg)
  | maxu (c : CoreId) (rd ra rb : Reg)
  | clz (c : CoreId) (rd ra : Reg)
  | popc (c : CoreId) (rd ra : Reg)
  -- multiply and divide
  | mul (c : CoreId) (rd ra rb : Reg)
  | mulh (c : CoreId) (rd ra rb : Reg)
  | mulhu (c : CoreId) (rd ra rb : Reg)
  | muls (c : CoreId) (rd ra rb : Reg)
  | div (c : CoreId) (rd ra rb : Reg)
  | divu (c : CoreId) (rd ra rb : Reg)
  | rem (c : CoreId) (rd ra rb : Reg)
  | remu (c : CoreId) (rd ra rb : Reg)
  -- immediates
  | addi (c : CoreId) (rd ra : Reg) (imm : BitVec 16)
  | andi (c : CoreId) (rd ra : Reg) (imm : BitVec 16)
  | ori (c : CoreId) (rd ra : Reg) (imm : BitVec 16)
  | xori (c : CoreId) (rd ra : Reg) (imm : BitVec 16)
  | slti (c : CoreId) (rd ra : Reg) (imm : BitVec 16)
  | sltiu (c : CoreId) (rd ra : Reg) (imm : BitVec 16)
  | lui (c : CoreId) (rd : Reg) (imm : BitVec 16)
  | orh (c : CoreId) (rd ra : Reg) (imm : BitVec 16)
  | ort (c : CoreId) (rd ra : Reg) (imm : BitVec 16)
  -- loads and stores
  | lb (c : CoreId) (hint : BitVec 2) (rt ra : Reg) (disp : BitVec 14)
  | lbu (c : CoreId) (hint : BitVec 2) (rt ra : Reg) (disp : BitVec 14)
  | lh (c : CoreId) (hint : BitVec 2) (rt ra : Reg) (disp : BitVec 14)
  | lhu (c : CoreId) (hint : BitVec 2) (rt ra : Reg) (disp : BitVec 14)
  | lw (c : CoreId) (hint : BitVec 2) (rt ra : Reg) (disp : BitVec 14)
  | lwu (c : CoreId) (hint : BitVec 2) (rt ra : Reg) (disp : BitVec 14)
  | ld (c : CoreId) (hint : BitVec 2) (rt ra : Reg) (disp : BitVec 14)
  | sb (c : CoreId) (hint : BitVec 2) (rt ra : Reg) (disp : BitVec 14)
  | sh (c : CoreId) (hint : BitVec 2) (rt ra : Reg) (disp : BitVec 14)
  | sw (c : CoreId) (hint : BitVec 2) (rt ra : Reg) (disp : BitVec 14)
  | sd (c : CoreId) (hint : BitVec 2) (rt ra : Reg) (disp : BitVec 14)
  -- branches and jumps
  | beq (c : CoreId) (ra rb : Reg) (off : BitVec 16)
  | bne (c : CoreId) (ra rb : Reg) (off : BitVec 16)
  | blt (c : CoreId) (ra rb : Reg) (off : BitVec 16)
  | bge (c : CoreId) (ra rb : Reg) (off : BitVec 16)
  | bltu (c : CoreId) (ra rb : Reg) (off : BitVec 16)
  | bgeu (c : CoreId) (ra rb : Reg) (off : BitVec 16)
  | j (c : CoreId) (off : BitVec 26)
  | jal (c : CoreId) (off : BitVec 26)
  | jr (c : CoreId) (ra : Reg)
  | jalr (c : CoreId) (rd ra : Reg)
  -- system
  | mfc (c : CoreId) (rd : Reg) (creg : BitVec 6)
  | mtc (c : CoreId) (creg : BitVec 6) (ra : Reg)
  | trap (c : CoreId) (code : BitVec 6)
  | eret (c : CoreId)
  | iinv (c : CoreId)
  | cinv (c : CoreId) (ra : Reg)
  | cinva (c : CoreId)
  | aadd (c : CoreId) (size : BitVec 2) (rd ra rb : Reg)
  | acas (c : CoreId) (size : BitVec 2) (rd ra rb rc : Reg)
  | fence (c : CoreId)
  | deadline (c : CoreId)
  | eccUncorr (c : CoreId)
  -- cell instructions
  | post (c : CoreId) (rd ra : Reg)
  | postBusy (c : CoreId)
  | delay (c : CoreId) (rd ra rb : Reg)
  | done (c : CoreId) (ra : Reg)
  | solve (c : CoreId) (rd ra rb : Reg)
  | tsamp (c : CoreId) (rd : Reg) (sel : BitVec 5)
  | qmul (c : CoreId) (rd ra rb : Reg) (sh : BitVec 5) (l k : Bool)
  | qmac (c : CoreId) (rd ra rb : Reg) (sh : BitVec 5) (l k : Bool)
  | luti (c : CoreId) (rd ra rb : Reg)
  -- exceptional ends
  | illegal (c : CoreId) (word : W32)
  | looponly (c : CoreId) (word : W32)
  | badcmd (src : BadSrc)
  -- DMA commands and reads
  | start (src : EngSrc)
  | halt (src : EngSrc)
  | dmaReadStat (c : CoreId) (rd rb : Reg)
  | dmaReadCnt (c : CoreId) (rd rb : Reg)
  | dmaReadLevel (c : CoreId) (rd rb : Reg)
  -- Work Dispatcher
  | delayExpiry
  | stationMove
  | heldEventAccept
  | pendQueue (entry : Nat)
  | evtCtlWrite (entry : Nat) (v : W32)
  | cancel (m : Master) (handle : BitVec 16)
  | hquery (m : Master) (handle : BitVec 16)
  | crsizeWrite (v : W32)
  -- Traverse commands
  | enable (src : TrvSrc)
  | disable (src : TrvSrc)
  | stop (src : TrvSrc)
  | qstop (src : TrvSrc)
  | clearFault (src : TrvSrc)
  | mode (src : TrvSrc)
  | xtarget (src : TrvSrc)
  | vstart (src : TrvSrc)
  | a1 (src : TrvSrc)
  | v1 (src : TrvSrc)
  | amax (src : TrvSrc)
  | vmax (src : TrvSrc)
  | dmax (src : TrvSrc)
  | d1 (src : TrvSrc)
  | vstop (src : TrvSrc)
  | qdec (src : TrvSrc)
  | vjog (src : TrvSrc)
  | setpos (src : TrvSrc)
  | swlimLo (src : TrvSrc)
  | swlimHi (src : TrvSrc)
  | axisCfg (src : TrvSrc)
  | limCfg (src : TrvSrc)
  | debounce (src : TrvSrc)
  | chatterWin (src : TrvSrc)
  | stallCfg (src : TrvSrc)
  | motor (src : TrvSrc)
  | stallflow (src : TrvSrc)
  | encCpr (src : TrvSrc)
  | pathCommit (src : TrvSrc)
  | gearMaster (src : TrvSrc)
  | gearRatio (src : TrvSrc)
  | gearArmpos (src : TrvSrc)
  | gearArm (src : TrvSrc)
  | gearRamp (src : TrvSrc)
  | gearDisarm (src : TrvSrc)
  | homeCfg (src : TrvSrc)
  | homeVsearch (src : TrvSrc)
  | homeVlatch (src : TrvSrc)
  | homeOffset (src : TrvSrc)
  | homeBackoff (src : TrvSrc)
  | homeMaxdist (src : TrvSrc)
  | homeStart (src : TrvSrc)
  -- Traverse reads (ENGR with eng 0 or 1)
  | trvReadStat (c : CoreId) (hub : Bool) (rd rb : Reg)
  | trvReadFlag (c : CoreId) (hub : Bool) (rd rb : Reg)
  | trvReadPosition (c : CoreId) (hub : Bool) (rd rb : Reg)
  | trvReadSpeed (c : CoreId) (hub : Bool) (rd rb : Reg)
  | trvReadAccel (c : CoreId) (hub : Bool) (rd rb : Reg)
  | trvReadXtarget (c : CoreId) (hub : Bool) (rd rb : Reg)
  | trvReadMaster (c : CoreId) (hub : Bool) (rd rb : Reg)
  | trvReadLoad (c : CoreId) (hub : Bool) (rd rb : Reg)
  | trvReadLatched (c : CoreId) (hub : Bool) (rd rb : Reg)
  | trvReadPlan (c : CoreId) (hub : Bool) (rd rb : Reg)
  | trvReadGrem (c : CoreId) (hub : Bool) (rd rb : Reg)
  | trvReadStored (c : CoreId) (hub : Bool) (rd rb : Reg) (code : BitVec 7)
  -- Traverse events
  | jogTimeout (die axis : Nat)
  | debounceExpiry (die axis : Nat) (input : Fin 3)
  | stall (die axis : Nat)
  | indexCapture (n : Fin 16)
  | idxArm (n : Fin 16)
  -- SLE
  | sleSample (die : Nat) (start : Nat) (order : List Nat)
  | offcntExpiry (die axis : Nat)
  | load (src : EngSrc)
  | loadPerformed (die : Nat)
  | free (src : EngSrc)
  | gtab (src : EngSrc)
  | coef (src : EngSrc)
  | bank (src : BankSrc)
  | lmode (src : EngSrc)
  | lmcfg (src : EngSrc)
  | inbind (src : EngSrc)
  | outbind (src : EngSrc)
  | axcfg (src : EngSrc)
  | hocfg (src : EngSrc)
  | sleReadStat (c : CoreId) (rd rb : Reg)
  | sleReadFlag (c : CoreId) (rd rb : Reg)
  | sleReadInteg (c : CoreId) (rd rb : Reg) (k : Fin 4)
  | sleReadRmp (c : CoreId) (rd rb : Reg)
  | sleReadPred (c : CoreId) (rd rb : Reg)
  | sleReadPlaus (c : CoreId) (rd rb : Reg)
  | sleReadOutput (c : CoreId) (rd rb : Reg) (o : Fin 4)
  | sleReadInput (c : CoreId) (rd rb : Reg) (k : Fin 8)
  | sleReadAge (c : CoreId) (rd rb : Reg) (k : Fin 8)
  | sleReadCoefA (c : CoreId) (rd rb : Reg) (slot : Fin 32)
  | sleReadCoefB (c : CoreId) (rd rb : Reg) (slot : Fin 32)
  | sleReadCfg (c : CoreId) (rd rb : Reg) (ho : Bool)
  | sleReadLmcfg (c : CoreId) (rd rb : Reg) (bank : Bool) (m : Fin 4)
  | sleReadInbind (c : CoreId) (rd rb : Reg) (k : Fin 5)
  | sleReadOutbind (c : CoreId) (rd rb : Reg) (o : Fin 4)
  -- TRI
  | batchStart (die : Nat)
  | chol (die item : Nat)
  | ldlt (die item : Nat)
  | lu (die item : Nat)
  | qr (die item : Nat)
  | trsv (die item : Nat)
  | trsm (die item : Nat)
  | refine (die item : Nat)
  | boxqp (die item : Nat) (sweeps : Nat)
  | batchEnd (die : Nat)
  | abort (src : EngSrc)
  | slotclr (src : EngSrc)
  | tau (src : EngSrc)
  | triReadStat (c : CoreId) (rd rb : Reg)
  | triReadDone (c : CoreId) (rd rb : Reg)
  | triReadTau (c : CoreId) (rd rb : Reg)
  | triReadCnt (c : CoreId) (rd rb : Reg)
  | triReadMiss (c : CoreId) (rd rb : Reg)
  -- Contour safety system
  | processorResult (arms : List ProcArm)
  | decision
  | tss1Expiry (arm : Nat)
  | ssmAutoresume (arm : Nat)
  | lockstep
  | inDisc (pair : Fin 8)
  | testPulse (src : Bool)
  | inTest (pair : Fin 8)
  | outFail (pair : OutReadback)
  | outputTestPulse (output : Fin 16) (follows : Bool)
  | imgCrc (scope : Nat) (hardwired : Bool) (bad : Bool)
  | safetyImageLoad
  | imageCheckDone (agree : Bool)
  | imageTakesEffect
  -- Cartouche
  | conversion (input : Fin 8) (reading : Int) (ovr senseLow : Bool) (lag : Nat)
  | chopEdge (ch : Fin 8)
  | staticUpdate (ch : Fin 8)
  | modeStatic (ch : Fin 8)
  | modeTransfer (ch : Fin 8)
  | zero (ch : Fin 8)
  | tare (ch : Fin 8)
  | tareval (ch : Fin 8) (v : BitVec 24)
  | clrtare (ch : Fin 8)
  | notstable (ch : Fin 8)
  | windowRequest
  | windowEnd (ch : Fin 8)
  | unseal
  | benchmark
  | program
  | trailAck
  | reseal
  | timeout
  -- Vistonik
  | linkChange (chB : Bool) (port : Bool) (host : Bool) (up speedOk : Bool)
  | portCfgWrite (chB : Bool) (port : Bool) (v : W32)
  | cutThroughForward (chB : Bool) (port : Bool) (rx : BusRx) (residence16 : Nat)
  | heldFrameSend (chB : Bool) (port : Bool) (residence16 : Nat)
  | dataReceive (chB : Bool) (port : Bool) (rx : BusRx)
  | syncReceive (chB : Bool) (port : Bool) (rx : BusRx)
  | coldstartReceive (chB : Bool) (port : Bool) (rx : BusRx)
  | claimReceive (chB : Bool) (port : Bool) (rx : BusRx)
  | dlyreqReceive (chB : Bool) (port : Bool) (rx : BusRx)
  | dlyrespReceive (chB : Bool) (port : Bool) (rx : BusRx)
  | slotTransmit (chB : Bool) (slot : Nat) (startsBy : SlotSend)
  | linkWindow (chB : Bool)
  | clockCorrection
  | listenTimeout
  | roundFailed
  | integrateDone
  | lostsync
  | leaderTakeover
  | grantRelease (chB : Bool) (slot : Nat)
  | modeSwitch
  | modeCancel
  | busEnable (on : Bool)
  | vbaStart
  | graticuleLoad
  | modeRequest (target : BitVec 3)
  | release (chB : Bool) (slot : BitVec 10)
  | zw0Write (v : W32)
  | zw1Write (m : Master) (v : W32)
  -- Meridian and the host ports
  | stepRequest
  | bindRequest
  | hostPortEnable (portB : Bool) (on : Bool)
  | hostFrameReceive (portB : Bool) (rx : HostRx)
  | hostFrameTransmit (portB : Bool) (frac : BitVec 16)
  | rxtsRead (portB : Bool)
  | txtsRead (portB : Bool)
  -- DMA steps and memory
  | linear (die ch : Nat)
  | fill (die ch : Nat)
  | strided (die ch : Nat)
  | gather (die ch : Nat)
  | scatter (die ch : Nat)
  | burstComplete (die ch : Nat) (linkErrs : Nat)
  | handBack (die ch : Nat)
  | poll (die ch : Nat)
  | scrubVisit (die bank : Nat)
  | memRetWrite (die : Nat) (v : W32)
  | bankWake (die bank : Nat)
  -- cell and sheet service
  | shut
  | resume
  | shutdownComplete
  | drainComplete (die : Nat)
  | retire
  | survey
  | surveyEnd (mask : BitVec 4)
  | readmit
  | readmissionChecks (die : Nat) (failed : Nat)
  -- Surveyor
  | confirm
  | sfyswitch
  | sfyRestart
  | rollback
  | flashwr (verifyOk : Bool)
  | resetMask (src : SignedSrc) (fails : List (Nat × Nat))
  | keyenrol (src : SignedSrc)
  | sensorSample (temps : List (Nat × Int)) (rails : List (Nat × Nat))
  -- redundancy and power
  | actInChange (level : Bool)
  | takeover
  | heartbeatSend
  | heartbeatReceive (payload : List Byte)
  | plost
  | shadowDigest
  | isolate
  | rejoin
  | feedSample (mvA maA mvB maB mvOr : Nat)
  | rev (feedB : Bool)
  | block (feedB : Bool) (on : Bool)
  | blktmoExpiry (feedB : Bool)
  | latentUpdate
  | clkFail
  | safeInputChange (n : Fin 16) (level : Bool)
  | encoderTransition (n : Fin 16) (a b : Bool)
  deriving DecidableEq, Repr

end Sys2Proof
end

