-- ==== Sys2Proof/Decode.lean ====
section
/-! DEFINITION. Words and commands. spec/opcode_table.json gives no row any bits, so no table word spells a command. The
32-bit words of a core's program have the formats of chapters 02 and 03: `decodeWord` reads the command that a core
executes from a word, and `encodeWord` spells a command as a word, from the same tables. -/

namespace Sys2Proof.Machine

/-- Whether a word holds no Brorok instruction, or one whose unused fields are not 0 (R42–R44, R60, R61, R69, R74). The words
of R64 that raise LOOPONLY are not among them. -/
def wordIllegal (w : W32) : Bool :=
  let rd := w.extractLsb' 21 5
  let ra := w.extractLsb' 16 5
  let rb := w.extractLsb' 11 5
  let sh := w.extractLsb' 5 6
  let fn := w.extractLsb' 0 5
  let rc := w.extractLsb' 6 5
  let size := w.extractLsb' 4 2
  let low4 := w.extractLsb' 0 4
  let eng := w.extractLsb' 8 3
  match (w.extractLsb' 26 6).toNat with
  | 0x01 =>
    decide (0x15 < fn.toNat) || (!(decide (0x0B ≤ fn.toNat) && decide (fn.toNat ≤ 0x0D)) && sh != 0) ||
      ((decide (0x0B ≤ fn.toNat) && decide (fn.toNat ≤ 0x0D) || fn == 0x14 || fn == 0x15) && rb != 0)
  | 0x02 => decide (7 < fn.toNat) || sh != 0
  | 0x03 =>
    match fn.toNat with
    | 0 => rd != 0 || rb != 0 || sh != 0
    | 1 => rb != 0 || sh != 0
    | 2 => ra != 0 || rb != 0 || decide (12 < sh.toNat)
    | 3 => rd != 0 || rb != 0 || !(sh == 0 || sh == 5 || sh == 7 || sh == 8)
    | 4 => rd != 0 || ra != 0 || rb != 0
    | 7 => rd != 0 || rb != 0 || sh != 0
    | 5 | 6 | 8 => rd != 0 || ra != 0 || rb != 0 || sh != 0
    | _ => true
  | 0x0A => ra != 0
  | 0x04 | 0x05 | 0x06 | 0x07 | 0x08 | 0x09 | 0x0B | 0x0C => false
  | 0x10 | 0x11 | 0x12 | 0x13 | 0x14 | 0x15 | 0x16 | 0x18 | 0x19 | 0x1A | 0x1B => w.extractLsb' 14 2 == 3
  | 0x20 | 0x21 | 0x22 | 0x23 | 0x24 | 0x25 | 0x28 | 0x29 => false
  | 0x30 => rb != 0 || w.extractLsb' 0 11 != 0
  | 0x31 | 0x35 | 0x39 => w.extractLsb' 0 11 != 0
  | 0x32 => rd != 0 || rb != 0 || w.extractLsb' 0 11 != 0
  | 0x33 => decide (5 ≤ eng.toNat)
  | 0x34 => ra != 0 || decide (5 ≤ eng.toNat)
  | 0x36 => ra != 0 || rb != 0 || decide (3 ≤ rc.toNat) || w.extractLsb' 0 6 != 0
  | 0x37 | 0x38 => !w.getLsbD 4 && low4 != 0
  | 0x3A => false
  | 0x3D => rc != 0 || decide (size.toNat < 2) || low4 != 0
  | 0x3E => decide (size.toNat < 2) || low4 != 0
  | 0x3F => w.extractLsb' 0 26 != 0
  | _ => true

/-- The LOOPONLY sub-code of a word on a core, 0 for none (R63, R64). -/
def loopOnlySub (w : W32) : Nat :=
  let op := (w.extractLsb' 26 6).toNat
  if op = 0x3A then 1 else if (op = 0x37 ∨ op = 0x38) ∧ w.getLsbD 4 then 2 else 0

end Sys2Proof.Machine

namespace Sys2Proof

/-- The command that a word spells by the table's bits: none, since no row has bits. -/
def decodeTableWord (_nbits _w : Nat) : Option Instr := none

/-! ### Reading a word -/

/-- A Traverse command code of ENGW (R110). -/
def decodeTrv (c : CoreId) (hub : Bool) (cmd : BitVec 8) (rd ra rb : Reg) : Instr :=
  let s : TrvSrc := .engw c hub rd ra rb
  match cmd.toNat with
  | 0x01 => .enable s
  | 0x02 => .disable s
  | 0x03 => .stop s
  | 0x04 => .qstop s
  | 0x05 => .clearFault s
  | 0x06 => .mode s
  | 0x10 => .xtarget s
  | 0x11 => .vstart s
  | 0x12 => .a1 s
  | 0x13 => .v1 s
  | 0x14 => .amax s
  | 0x15 => .vmax s
  | 0x16 => .dmax s
  | 0x17 => .d1 s
  | 0x18 => .vstop s
  | 0x19 => .qdec s
  | 0x1A => .vjog s
  | 0x1B => .setpos s
  | 0x1C => .swlimLo s
  | 0x1D => .swlimHi s
  | 0x20 => .axisCfg s
  | 0x21 => .limCfg s
  | 0x22 => .debounce s
  | 0x23 => .chatterWin s
  | 0x24 => .stallCfg s
  | 0x25 => .motor s
  | 0x26 => .stallflow s
  | 0x27 => .encCpr s
  | 0x28 => .pathCommit s
  | 0x30 => .gearMaster s
  | 0x31 => .gearRatio s
  | 0x32 => .gearArmpos s
  | 0x33 => .gearArm s
  | 0x34 => .gearRamp s
  | 0x35 => .gearDisarm s
  | 0x40 => .homeCfg s
  | 0x41 => .homeVsearch s
  | 0x42 => .homeVlatch s
  | 0x43 => .homeOffset s
  | 0x44 => .homeBackoff s
  | 0x45 => .homeMaxdist s
  | 0x46 => .homeStart s
  | _ => .badcmd (.engw c (if hub then 1 else 0) cmd rd ra rb)

/-- The commands of ENGW (R69, R110, R163, R194, R328). -/
def decodeEngw (c : CoreId) (eng : BitVec 3) (cmd : BitVec 8) (rd ra rb : Reg) : Instr :=
  let s : EngSrc := .engw c rd ra rb
  match eng.toNat, cmd.toNat with
  | 0, _ => decodeTrv c false cmd rd ra rb
  | 1, _ => decodeTrv c true cmd rd ra rb
  | 2, 0x01 => .load s
  | 2, 0x02 => .free s
  | 2, 0x03 => .gtab s
  | 2, 0x04 => .coef s
  | 2, 0x05 => .bank (.cmd s)
  | 2, 0x06 => .lmode s
  | 2, 0x07 => .lmcfg s
  | 2, 0x08 => .inbind s
  | 2, 0x09 => .outbind s
  | 2, 0x0A => .axcfg s
  | 2, 0x0B => .hocfg s
  | 3, 1 => .abort s
  | 3, 2 => .slotclr s
  | 3, 3 => .tau s
  | 4, 1 => .start s
  | 4, 2 => .halt s
  | _, _ => .badcmd (.engw c eng cmd rd ra rb)

/-- The read codes of ENGR for Traverse (R111). -/
def decodeTrvRead (c : CoreId) (hub : Bool) (code : BitVec 8) (rd rb : Reg) : Instr :=
  match code.toNat with
  | 0x00 => .trvReadStat c hub rd rb
  | 0x01 => .trvReadFlag c hub rd rb
  | 0x02 => .trvReadPosition c hub rd rb
  | 0x03 => .trvReadSpeed c hub rd rb
  | 0x04 => .trvReadAccel c hub rd rb
  | 0x05 => .trvReadXtarget c hub rd rb
  | 0x06 => .trvReadMaster c hub rd rb
  | 0x07 => .trvReadLoad c hub rd rb
  | 0x08 => .trvReadLatched c hub rd rb
  | 0x09 => .trvReadPlan c hub rd rb
  | 0x0A => .trvReadGrem c hub rd rb
  | _ =>
    if code.getLsbD 7 then .trvReadStored c hub rd rb (code.extractLsb' 0 7)
    else .badcmd (.engr c (if hub then 1 else 0) code rd rb)

/-- The read codes of ENGR for the SLE (R164). -/
def decodeSleRead (c : CoreId) (code : BitVec 8) (rd rb : Reg) : Instr :=
  match code.toNat with
  | 0x00 => .sleReadStat c rd rb
  | 0x01 => .sleReadFlag c rd rb
  | 0x02 => .sleReadInteg c rd rb 0
  | 0x03 => .sleReadInteg c rd rb 1
  | 0x04 => .sleReadInteg c rd rb 2
  | 0x05 => .sleReadInteg c rd rb 3
  | 0x06 => .sleReadRmp c rd rb
  | 0x07 => .sleReadPred c rd rb
  | 0x08 => .sleReadPlaus c rd rb
  | 0x8A => .sleReadCfg c rd rb false
  | 0x8B => .sleReadCfg c rd rb true
  | 0xA3 => .sleReadInbind c rd rb 0
  | 0xA4 => .sleReadInbind c rd rb 1
  | 0xA5 => .sleReadInbind c rd rb 2
  | 0xA6 => .sleReadInbind c rd rb 3
  | 0xA7 => .sleReadInbind c rd rb 4
  | _ =>
    match (code.extractLsb' 5 3).toNat, (code.extractLsb' 3 2).toNat, (code.extractLsb' 2 1).toNat with
    | 0, 2, 0 => .sleReadOutput c rd rb (code.extractLsb' 0 2).toFin
    | 0, 3, _ => .sleReadInput c rd rb (code.extractLsb' 0 3).toFin
    | 1, 0, _ => .sleReadAge c rd rb (code.extractLsb' 0 3).toFin
    | 2, _, _ => .sleReadCoefA c rd rb (code.extractLsb' 0 5).toFin
    | 3, _, _ => .sleReadCoefB c rd rb (code.extractLsb' 0 5).toFin
    | 4, 2, b => .sleReadLmcfg c rd rb (b == 1) (code.extractLsb' 0 2).toFin
    | 5, 1, 0 => .sleReadOutbind c rd rb (code.extractLsb' 0 2).toFin
    | _, _, _ => .badcmd (.engr c 2 code rd rb)

/-- The read codes of ENGR (R69, R111, R164, R195, R328). -/
def decodeEngr (c : CoreId) (eng : BitVec 3) (code : BitVec 8) (rd rb : Reg) : Instr :=
  match eng.toNat, code.toNat with
  | 0, _ => decodeTrvRead c false code rd rb
  | 1, _ => decodeTrvRead c true code rd rb
  | 2, _ => decodeSleRead c code rd rb
  | 3, 0 => .triReadStat c rd rb
  | 3, 1 => .triReadDone c rd rb
  | 3, 2 => .triReadTau c rd rb
  | 3, 3 => .triReadCnt c rd rb
  | 3, 4 => .triReadMiss c rd rb
  | 4, 0 => .dmaReadStat c rd rb
  | 4, 1 => .dmaReadCnt c rd rb
  | 4, 2 => .dmaReadLevel c rd rb
  | _, _ => .badcmd (.engr c eng code rd rb)

/-- The instructions of opcode 0x01 by func (R45). -/
def decodeAlu (c : CoreId) (fn : Nat) (rd ra rb : Reg) (sh : BitVec 6) : Instr :=
  match fn with
  | 0x00 => .add c rd ra rb
  | 0x01 => .sub c rd ra rb
  | 0x02 => .and c rd ra rb
  | 0x03 => .or c rd ra rb
  | 0x04 => .xor c rd ra rb
  | 0x05 => .nor c rd ra rb
  | 0x06 => .slt c rd ra rb
  | 0x07 => .sltu c rd ra rb
  | 0x08 => .sll c rd ra rb
  | 0x09 => .srl c rd ra rb
  | 0x0A => .sra c rd ra rb
  | 0x0B => .slli c rd ra sh
  | 0x0C => .srli c rd ra sh
  | 0x0D => .srai c rd ra sh
  | 0x0E => .adds c rd ra rb
  | 0x0F => .subs c rd ra rb
  | 0x10 => .min c rd ra rb
  | 0x11 => .max c rd ra rb
  | 0x12 => .minu c rd ra rb
  | 0x13 => .maxu c rd ra rb
  | 0x14 => .clz c rd ra
  | _ => .popc c rd ra

/-- The instructions of opcode 0x02 by func (R46). -/
def decodeMul (c : CoreId) (fn : Nat) (rd ra rb : Reg) : Instr :=
  match fn with
  | 0 => .mul c rd ra rb
  | 1 => .mulh c rd ra rb
  | 2 => .mulhu c rd ra rb
  | 3 => .muls c rd ra rb
  | 4 => .div c rd ra rb
  | 5 => .divu c rd ra rb
  | 6 => .rem c rd ra rb
  | _ => .remu c rd ra rb

/-- The instructions of opcode 0x03 by func (chapter 02, Branches and jumps, System). -/
def decodeSys (c : CoreId) (fn : Nat) (rd ra : Reg) (sh : BitVec 6) : Instr :=
  match fn with
  | 0 => .jr c ra
  | 1 => .jalr c rd ra
  | 2 => .mfc c rd sh
  | 3 => .mtc c sh ra
  | 4 => .trap c sh
  | 5 => .eret c
  | 6 => .iinv c
  | 7 => .cinv c ra
  | _ => .cinva c

/-- The command that a core executes from a word of its program (R43–R49, R60, R61, R69): ILLEGAL for a word that is no
instruction, LOOPONLY for one that only the SLE executes. -/
def decodeWord (c : CoreId) (w : W32) : Instr :=
  let rd : Reg := w.extractLsb' 21 5
  let ra : Reg := w.extractLsb' 16 5
  let rb : Reg := w.extractLsb' 11 5
  let sh := w.extractLsb' 5 6
  let fn := (w.extractLsb' 0 5).toNat
  let imm := w.extractLsb' 0 16
  let hint := w.extractLsb' 14 2
  let disp := w.extractLsb' 0 14
  let off26 := w.extractLsb' 0 26
  let rc : Reg := w.extractLsb' 6 5
  let size := w.extractLsb' 4 2
  if Machine.wordIllegal w then .illegal c w
  else
    match (w.extractLsb' 26 6).toNat with
    | 0x01 => decodeAlu c fn rd ra rb sh
    | 0x02 => decodeMul c fn rd ra rb
    | 0x03 => decodeSys c fn rd ra sh
    | 0x04 => .addi c rd ra imm
    | 0x05 => .andi c rd ra imm
    | 0x06 => .ori c rd ra imm
    | 0x07 => .xori c rd ra imm
    | 0x08 => .slti c rd ra imm
    | 0x09 => .sltiu c rd ra imm
    | 0x0A => .lui c rd imm
    | 0x0B => .orh c rd ra imm
    | 0x0C => .ort c rd ra imm
    | 0x10 => .lb c hint rd ra disp
    | 0x11 => .lbu c hint rd ra disp
    | 0x12 => .lh c hint rd ra disp
    | 0x13 => .lhu c hint rd ra disp
    | 0x14 => .lw c hint rd ra disp
    | 0x15 => .lwu c hint rd ra disp
    | 0x16 => .ld c hint rd ra disp
    | 0x18 => .sb c hint rd ra disp
    | 0x19 => .sh c hint rd ra disp
    | 0x1A => .sw c hint rd ra disp
    | 0x1B => .sd c hint rd ra disp
    | 0x20 => .beq c rd ra imm
    | 0x21 => .bne c rd ra imm
    | 0x22 => .blt c rd ra imm
    | 0x23 => .bge c rd ra imm
    | 0x24 => .bltu c rd ra imm
    | 0x25 => .bgeu c rd ra imm
    | 0x28 => .j c off26
    | 0x29 => .jal c off26
    | 0x30 => .post c rd ra
    | 0x31 => .delay c rd ra rb
    | 0x32 => .done c ra
    | 0x33 => decodeEngw c (w.extractLsb' 8 3) (w.extractLsb' 0 8) rd ra rb
    | 0x34 => decodeEngr c (w.extractLsb' 8 3) (w.extractLsb' 0 8) rd rb
    | 0x35 => .solve c rd ra rb
    | 0x36 => .tsamp c rd rc
    | 0x37 => if w.getLsbD 4 && w.extractLsb' 0 4 != 0 then .looponly c w else .qmul c rd ra rb rc (w.getLsbD 5) (w.getLsbD 4)
    | 0x38 => if w.getLsbD 4 && w.extractLsb' 0 4 != 0 then .looponly c w else .qmac c rd ra rb rc (w.getLsbD 5) (w.getLsbD 4)
    | 0x39 => .luti c rd ra rb
    | 0x3A => .looponly c w
    | 0x3D => .aadd c size rd ra rb
    | 0x3E => .acas c size rd ra rb rc
    | _ => .fence c

/-! ### Spelling a command -/

/-- The G format (R43). -/
def wordG (op : BitVec 6) (rd ra rb : Reg) (sh : BitVec 6) (fn : BitVec 5) : W32 := op ++ rd ++ ra ++ rb ++ sh ++ fn

/-- The I format and the branch layout of J (R43). -/
def wordI (op : BitVec 6) (rd ra : Reg) (imm : BitVec 16) : W32 := op ++ rd ++ ra ++ imm

/-- The M format (R43). -/
def wordM (op : BitVec 6) (rt ra : Reg) (hint : BitVec 2) (disp : BitVec 14) : W32 := op ++ rt ++ ra ++ hint ++ disp

/-- The long layout of J (R43). -/
def wordJ (op : BitVec 6) (off : BitVec 26) : W32 := op ++ off

/-- The C general layout, which is the C memory layout (R43, R61). -/
def wordC (op : BitVec 6) (rd ra rb rc : Reg) (flags : BitVec 2) : W32 := op ++ rd ++ ra ++ rb ++ rc ++ flags ++ 0#4

/-- The C engine layout (R61). -/
def wordE (op : BitVec 6) (rd ra rb : Reg) (eng : BitVec 3) (cmd : BitVec 8) : W32 := op ++ rd ++ ra ++ rb ++ eng ++ cmd

/-- ENGW of a code to Traverse by the path of a command; none for the register path. -/
def trvWord (cmd : BitVec 8) : TrvSrc → Option (CoreId × W32)
  | .engw c hub rd ra rb => some (c, wordE 0x33 rd ra rb (if hub then 1 else 0) cmd)
  | .reg _ _ => none

/-- ENGW of a code to another engine by the path of a command; none for the register path. -/
def engWord (eng : BitVec 3) (cmd : BitVec 8) : EngSrc → Option (CoreId × W32)
  | .engw c rd ra rb => some (c, wordE 0x33 rd ra rb eng cmd)
  | .reg _ _ => none

/-- ENGR of a read code. -/
def readWord (c : CoreId) (eng : BitVec 3) (code : BitVec 8) (rd rb : Reg) : Option (CoreId × W32) :=
  some (c, wordE 0x34 rd 0 rb eng code)

/-- The word that spells a command of a core, and the core; none for a command that no word spells (R43–R49, R60, R61, R69). -/
def encodeWord : Instr → Option (CoreId × W32)
  | .add c rd ra rb => some (c, wordG 0x01 rd ra rb 0 0x00)
  | .sub c rd ra rb => some (c, wordG 0x01 rd ra rb 0 0x01)
  | .and c rd ra rb => some (c, wordG 0x01 rd ra rb 0 0x02)
  | .or c rd ra rb => some (c, wordG 0x01 rd ra rb 0 0x03)
  | .xor c rd ra rb => some (c, wordG 0x01 rd ra rb 0 0x04)
  | .nor c rd ra rb => some (c, wordG 0x01 rd ra rb 0 0x05)
  | .slt c rd ra rb => some (c, wordG 0x01 rd ra rb 0 0x06)
  | .sltu c rd ra rb => some (c, wordG 0x01 rd ra rb 0 0x07)
  | .sll c rd ra rb => some (c, wordG 0x01 rd ra rb 0 0x08)
  | .srl c rd ra rb => some (c, wordG 0x01 rd ra rb 0 0x09)
  | .sra c rd ra rb => some (c, wordG 0x01 rd ra rb 0 0x0A)
  | .slli c rd ra sh => some (c, wordG 0x01 rd ra 0 sh 0x0B)
  | .srli c rd ra sh => some (c, wordG 0x01 rd ra 0 sh 0x0C)
  | .srai c rd ra sh => some (c, wordG 0x01 rd ra 0 sh 0x0D)
  | .adds c rd ra rb => some (c, wordG 0x01 rd ra rb 0 0x0E)
  | .subs c rd ra rb => some (c, wordG 0x01 rd ra rb 0 0x0F)
  | .min c rd ra rb => some (c, wordG 0x01 rd ra rb 0 0x10)
  | .max c rd ra rb => some (c, wordG 0x01 rd ra rb 0 0x11)
  | .minu c rd ra rb => some (c, wordG 0x01 rd ra rb 0 0x12)
  | .maxu c rd ra rb => some (c, wordG 0x01 rd ra rb 0 0x13)
  | .clz c rd ra => some (c, wordG 0x01 rd ra 0 0 0x14)
  | .popc c rd ra => some (c, wordG 0x01 rd ra 0 0 0x15)
  | .mul c rd ra rb => some (c, wordG 0x02 rd ra rb 0 0)
  | .mulh c rd ra rb => some (c, wordG 0x02 rd ra rb 0 1)
  | .mulhu c rd ra rb => some (c, wordG 0x02 rd ra rb 0 2)
  | .muls c rd ra rb => some (c, wordG 0x02 rd ra rb 0 3)
  | .div c rd ra rb => some (c, wordG 0x02 rd ra rb 0 4)
  | .divu c rd ra rb => some (c, wordG 0x02 rd ra rb 0 5)
  | .rem c rd ra rb => some (c, wordG 0x02 rd ra rb 0 6)
  | .remu c rd ra rb => some (c, wordG 0x02 rd ra rb 0 7)
  | .jr c ra => some (c, wordG 0x03 0 ra 0 0 0)
  | .jalr c rd ra => some (c, wordG 0x03 rd ra 0 0 1)
  | .mfc c rd k => some (c, wordG 0x03 rd 0 0 k 2)
  | .mtc c k ra => some (c, wordG 0x03 0 ra 0 k 3)
  | .trap c k => some (c, wordG 0x03 0 0 0 k 4)
  | .eret c => some (c, wordG 0x03 0 0 0 0 5)
  | .iinv c => some (c, wordG 0x03 0 0 0 0 6)
  | .cinv c ra => some (c, wordG 0x03 0 ra 0 0 7)
  | .cinva c => some (c, wordG 0x03 0 0 0 0 8)
  | .addi c rd ra imm => some (c, wordI 0x04 rd ra imm)
  | .andi c rd ra imm => some (c, wordI 0x05 rd ra imm)
  | .ori c rd ra imm => some (c, wordI 0x06 rd ra imm)
  | .xori c rd ra imm => some (c, wordI 0x07 rd ra imm)
  | .slti c rd ra imm => some (c, wordI 0x08 rd ra imm)
  | .sltiu c rd ra imm => some (c, wordI 0x09 rd ra imm)
  | .lui c rd imm => some (c, wordI 0x0A rd 0 imm)
  | .orh c rd ra imm => some (c, wordI 0x0B rd ra imm)
  | .ort c rd ra imm => some (c, wordI 0x0C rd ra imm)
  | .lb c hint rt ra disp => some (c, wordM 0x10 rt ra hint disp)
  | .lbu c hint rt ra disp => some (c, wordM 0x11 rt ra hint disp)
  | .lh c hint rt ra disp => some (c, wordM 0x12 rt ra hint disp)
  | .lhu c hint rt ra disp => some (c, wordM 0x13 rt ra hint disp)
  | .lw c hint rt ra disp => some (c, wordM 0x14 rt ra hint disp)
  | .lwu c hint rt ra disp => some (c, wordM 0x15 rt ra hint disp)
  | .ld c hint rt ra disp => some (c, wordM 0x16 rt ra hint disp)
  | .sb c hint rt ra disp => some (c, wordM 0x18 rt ra hint disp)
  | .sh c hint rt ra disp => some (c, wordM 0x19 rt ra hint disp)
  | .sw c hint rt ra disp => some (c, wordM 0x1A rt ra hint disp)
  | .sd c hint rt ra disp => some (c, wordM 0x1B rt ra hint disp)
  | .beq c ra rb off => some (c, wordI 0x20 ra rb off)
  | .bne c ra rb off => some (c, wordI 0x21 ra rb off)
  | .blt c ra rb off => some (c, wordI 0x22 ra rb off)
  | .bge c ra rb off => some (c, wordI 0x23 ra rb off)
  | .bltu c ra rb off => some (c, wordI 0x24 ra rb off)
  | .bgeu c ra rb off => some (c, wordI 0x25 ra rb off)
  | .j c off => some (c, wordJ 0x28 off)
  | .jal c off => some (c, wordJ 0x29 off)
  | .post c rd ra => some (c, wordC 0x30 rd ra 0 0 0)
  | .delay c rd ra rb => some (c, wordC 0x31 rd ra rb 0 0)
  | .done c ra => some (c, wordC 0x32 0 ra 0 0 0)
  | .solve c rd ra rb => some (c, wordC 0x35 rd ra rb 0 0)
  | .tsamp c rd sel => some (c, wordC 0x36 rd 0 0 sel 0)
  | .qmul c rd ra rb sh l k => some (c, wordC 0x37 rd ra rb sh (BitVec.ofBool l ++ BitVec.ofBool k))
  | .qmac c rd ra rb sh l k => some (c, wordC 0x38 rd ra rb sh (BitVec.ofBool l ++ BitVec.ofBool k))
  | .luti c rd ra rb => some (c, wordC 0x39 rd ra rb 0 0)
  | .aadd c size rd ra rb => some (c, wordC 0x3D rd ra rb 0 size)
  | .acas c size rd ra rb rc => some (c, wordC 0x3E rd ra rb rc size)
  | .fence c => some (c, wordC 0x3F 0 0 0 0 0)
  | .enable s => trvWord 0x01 s
  | .disable s => trvWord 0x02 s
  | .stop s => trvWord 0x03 s
  | .qstop s => trvWord 0x04 s
  | .clearFault s => trvWord 0x05 s
  | .mode s => trvWord 0x06 s
  | .xtarget s => trvWord 0x10 s
  | .vstart s => trvWord 0x11 s
  | .a1 s => trvWord 0x12 s
  | .v1 s => trvWord 0x13 s
  | .amax s => trvWord 0x14 s
  | .vmax s => trvWord 0x15 s
  | .dmax s => trvWord 0x16 s
  | .d1 s => trvWord 0x17 s
  | .vstop s => trvWord 0x18 s
  | .qdec s => trvWord 0x19 s
  | .vjog s => trvWord 0x1A s
  | .setpos s => trvWord 0x1B s
  | .swlimLo s => trvWord 0x1C s
  | .swlimHi s => trvWord 0x1D s
  | .axisCfg s => trvWord 0x20 s
  | .limCfg s => trvWord 0x21 s
  | .debounce s => trvWord 0x22 s
  | .chatterWin s => trvWord 0x23 s
  | .stallCfg s => trvWord 0x24 s
  | .motor s => trvWord 0x25 s
  | .stallflow s => trvWord 0x26 s
  | .encCpr s => trvWord 0x27 s
  | .pathCommit s => trvWord 0x28 s
  | .gearMaster s => trvWord 0x30 s
  | .gearRatio s => trvWord 0x31 s
  | .gearArmpos s => trvWord 0x32 s
  | .gearArm s => trvWord 0x33 s
  | .gearRamp s => trvWord 0x34 s
  | .gearDisarm s => trvWord 0x35 s
  | .homeCfg s => trvWord 0x40 s
  | .homeVsearch s => trvWord 0x41 s
  | .homeVlatch s => trvWord 0x42 s
  | .homeOffset s => trvWord 0x43 s
  | .homeBackoff s => trvWord 0x44 s
  | .homeMaxdist s => trvWord 0x45 s
  | .homeStart s => trvWord 0x46 s
  | .load s => engWord 2 0x01 s
  | .free s => engWord 2 0x02 s
  | .gtab s => engWord 2 0x03 s
  | .coef s => engWord 2 0x04 s
  | .bank (.cmd s) => engWord 2 0x05 s
  | .lmode s => engWord 2 0x06 s
  | .lmcfg s => engWord 2 0x07 s
  | .inbind s => engWord 2 0x08 s
  | .outbind s => engWord 2 0x09 s
  | .axcfg s => engWord 2 0x0A s
  | .hocfg s => engWord 2 0x0B s
  | .abort s => engWord 3 1 s
  | .slotclr s => engWord 3 2 s
  | .tau s => engWord 3 3 s
  | .start s => engWord 4 1 s
  | .halt s => engWord 4 2 s
  | .trvReadStat c hub rd rb => readWord c (if hub then 1 else 0) 0x00 rd rb
  | .trvReadFlag c hub rd rb => readWord c (if hub then 1 else 0) 0x01 rd rb
  | .trvReadPosition c hub rd rb => readWord c (if hub then 1 else 0) 0x02 rd rb
  | .trvReadSpeed c hub rd rb => readWord c (if hub then 1 else 0) 0x03 rd rb
  | .trvReadAccel c hub rd rb => readWord c (if hub then 1 else 0) 0x04 rd rb
  | .trvReadXtarget c hub rd rb => readWord c (if hub then 1 else 0) 0x05 rd rb
  | .trvReadMaster c hub rd rb => readWord c (if hub then 1 else 0) 0x06 rd rb
  | .trvReadLoad c hub rd rb => readWord c (if hub then 1 else 0) 0x07 rd rb
  | .trvReadLatched c hub rd rb => readWord c (if hub then 1 else 0) 0x08 rd rb
  | .trvReadPlan c hub rd rb => readWord c (if hub then 1 else 0) 0x09 rd rb
  | .trvReadGrem c hub rd rb => readWord c (if hub then 1 else 0) 0x0A rd rb
  | .trvReadStored c hub rd rb code => readWord c (if hub then 1 else 0) (1#1 ++ code) rd rb
  | .sleReadStat c rd rb => readWord c 2 0x00 rd rb
  | .sleReadFlag c rd rb => readWord c 2 0x01 rd rb
  | .sleReadInteg c rd rb k => readWord c 2 (BitVec.ofNat 8 (0x02 + k.val)) rd rb
  | .sleReadRmp c rd rb => readWord c 2 0x06 rd rb
  | .sleReadPred c rd rb => readWord c 2 0x07 rd rb
  | .sleReadPlaus c rd rb => readWord c 2 0x08 rd rb
  | .sleReadOutput c rd rb o => readWord c 2 (BitVec.ofNat 8 (0x10 + o.val)) rd rb
  | .sleReadInput c rd rb k => readWord c 2 (BitVec.ofNat 8 (0x18 + k.val)) rd rb
  | .sleReadAge c rd rb k => readWord c 2 (BitVec.ofNat 8 (0x20 + k.val)) rd rb
  | .sleReadCoefA c rd rb k => readWord c 2 (BitVec.ofNat 8 (0x40 + k.val)) rd rb
  | .sleReadCoefB c rd rb k => readWord c 2 (BitVec.ofNat 8 (0x60 + k.val)) rd rb
  | .sleReadCfg c rd rb ho => readWord c 2 (if ho then 0x8B else 0x8A) rd rb
  | .sleReadLmcfg c rd rb b m => readWord c 2 (BitVec.ofNat 8 ((if b then 0x94 else 0x90) + m.val)) rd rb
  | .sleReadInbind c rd rb k => readWord c 2 (BitVec.ofNat 8 (0xA3 + k.val)) rd rb
  | .sleReadOutbind c rd rb o => readWord c 2 (BitVec.ofNat 8 (0xA8 + o.val)) rd rb
  | .triReadStat c rd rb => readWord c 3 0 rd rb
  | .triReadDone c rd rb => readWord c 3 1 rd rb
  | .triReadTau c rd rb => readWord c 3 2 rd rb
  | .triReadCnt c rd rb => readWord c 3 3 rd rb
  | .triReadMiss c rd rb => readWord c 3 4 rd rb
  | .dmaReadStat c rd rb => readWord c 4 0 rd rb
  | .dmaReadCnt c rd rb => readWord c 4 1 rd rb
  | .dmaReadLevel c rd rb => readWord c 4 2 rd rb
  | .badcmd (.engw c eng cmd rd ra rb) => some (c, wordE 0x33 rd ra rb eng cmd)
  | .badcmd (.engr c eng code rd rb) => readWord c eng code rd rb
  | _ => none

end Sys2Proof
end

