-- ==== Sys2Proof/Machine/BusWire.lean ====
section
/-! DEFINITION. The bytes of a Vistonik frame on the wire, written and read (R259–R263). -/

namespace Sys2Proof.Machine

/-- 0x0A on channel A, 0x0B on channel B (R259). -/
def chanOctet (chB : Bool) : Byte := if chB then 0x0B#8 else 0x0A#8

/-- The Ethernet header: destination and source address and EtherType 0x88B5 (R259). -/
def etherHead (chB : Bool) (sender : Nat) : List Byte :=
  [0x03, 0x56, 0x42, 0x00, 0x00, chanOctet chB, 0x02, 0x56, 0x42, 0x00, chanOctet chB, BitVec.ofNat 8 sender, 0x88, 0xB5]

/-- The word that begins a flow record (R261). -/
def recWord (r : FlowRec) : Nat := r.flow % 4096 + r.words % 1024 * 2 ^ 12 + r.age % 256 * 2 ^ 22

/-- A flow record (R261). -/
def recBytes (r : FlowRec) : List Byte := toBytes 4 (recWord r) ++ r.data.flatMap fun w => toBytes 4 w.toNat

/-- The frame body: the records of a DATA frame, or the bytes of another type (R261, R263). -/
def frameBody (f : BusFrame) : List Byte := if f.typ = 1 then f.recs.flatMap recBytes else f.body

/-- The Vistonik header, payload bytes 0–31 (R260). -/
def frameHeader (f : BusFrame) : List Byte :=
  toBytes 1 (f.ver % 16 + f.typ % 16 * 16) ++ toBytes 1 (if f.typ = 1 then f.recs.length else 0) ++ toBytes 1 f.sender ++
    toBytes 1 (f.gmode % 8 + b01 f.ack * 8 + b01 f.leader * 16 + b01 f.chB * 32) ++ toBytes 2 (f.flow % 4096) ++ toBytes 2 (f.slot % 1024) ++
    toBytes 4 f.cycle.toNat ++ toBytes 4 f.tsNs ++ toBytes 6 f.tsSec ++ toBytes 2 0 ++ toBytes 4 f.corr ++
    toBytes 2 (frameBody f).length ++ toBytes 2 0

/-- The Ethernet payload, padded with zeros to 46 bytes (R259). -/
def framePayload (f : BusFrame) : List Byte :=
  let p := frameHeader f ++ frameBody f
  p ++ List.replicate (46 - p.length) 0

/-- A frame before its FCS. -/
def frameBytes (f : BusFrame) : List Byte := etherHead f.chB f.sender ++ framePayload f

/-- A frame on the wire, with its FCS (R259). -/
def wireBytes (f : BusFrame) : List Byte := frameBytes f ++ fcsOf (frameBytes f)

/-- Wire time in 0.1 ns of a frame of `n` bytes from its destination address to its FCS, on a port of the given mode (R259). -/
def wireTime (n mode : Nat) : Nat := (n + 20) * (if mode = 2 then 32 else 80)

/-- Wire time of a frame in 0.1 ns on a port of the given mode (R259). -/
def frameWire (f : BusFrame) (mode : Nat) : Nat := wireTime (max 46 (32 + (frameBody f).length) + 18) mode

/-- Replace bytes at an offset. -/
def putAt (l : List Byte) (o : Nat) (x : List Byte) : List Byte := l.take o ++ x ++ l.drop (o + x.length)

/-- The frame without its FCS. -/
def unFcs (l : List Byte) : List Byte := l.take (l.length - 4)

/-- Add a forwarder's terms to CORR, payload bytes 24–27, and compute the FCS again; the copy of a frame whose FCS was bad ends with
an inverted FCS (R257, R262). -/
def forwardBytes (l : List Byte) (res16 : Nat) (dlink : Int) : List Byte :=
  let b := putAt (unFcs l) 38 (toBytes 4 (wrapN 32 ((leAt l 38 4 : Int) + res16 + dlink)))
  let c := fcsOf b
  b ++ if fcsOf (unFcs l) = l.drop (l.length - 4) then c else c.map (~~~ ·)

/-- Read `n` flow records (R261); none when they do not fill the bytes. -/
def readRecs : Nat → List Byte → Option (List FlowRec)
  | 0, l => if l.isEmpty then some [] else none
  | n + 1, l =>
    let w := leAt l 0 4
    let k := fld w 12 10
    if l.length < 4 + 4 * k then none
    else
      (readRecs n (l.drop (4 + 4 * k))).map
        ({ flow := fld w 0 12, words := k, age := fld w 22 8, data := (List.range k).map fun i => BitVec.ofNat 32 (leAt l (4 + 4 * i) 4) } :: ·)

/-- The Vistonik frame in a payload (R260–R263). -/
def readFrame (p : List Byte) : BusFrame :=
  let body := (p.drop 32).take (leAt p 28 2)
  let typ := fld (leAt p 0 1) 4 4
  let b3 := leAt p 3 1
  { ver := fld (leAt p 0 1) 0 4, typ := typ, sender := leAt p 2 1, gmode := fld b3 0 3, ack := bitN b3 3, leader := bitN b3 4, chB := bitN b3 5, flow := fld (leAt p 4 2) 0 12, slot := fld (leAt p 6 2) 0 10, cycle := BitVec.ofNat 32 (leAt p 8 4), tsNs := leAt p 12 4, tsSec := leAt p 16 6, corr := leAt p 24 4, recs := if typ = 1 then (readRecs (leAt p 1 1) body).getD [] else [], body := if typ = 1 then [] else body }

/-- Whether the body is laid out as R261 and R263 say: PLEN within the payload, 1–32 records of at most 1,468 bytes that fill it, or the
bytes that the type needs. -/
def bodyFits (p : List Byte) : Bool :=
  let n := leAt p 28 2
  let body := (p.drop 32).take n
  decide (32 + n ≤ p.length) && match fld (leAt p 0 1) 4 4 with
    | 1 => decide (1 ≤ leAt p 1 1) && decide (leAt p 1 1 ≤ 32) && decide (n ≤ 1468) && (readRecs (leAt p 1 1) body).isSome
    | 2 => !bitN (leAt p 3 1) 4 || (decide (24 ≤ n) && decide (24 + 4 * leAt body 20 1 ≤ n))
    | 3 => decide (7 ≤ n)
    | 4 => decide (8 ≤ n) && decide (8 + 2 * leAt body 4 1 ≤ n)
    | 6 => decide (13 ≤ n)
    | _ => true

end Sys2Proof.Machine

namespace Sys2Proof

/-- The Ethernet payload of a received frame. -/
def BusRx.payload (r : BusRx) : List Byte := (r.bytes.drop 14).take (r.bytes.length - 18)

/-- Whether its EtherType is 0x88B5: every Vistonik frame's is (R259). -/
def BusRx.vistonik (r : BusRx) : Bool := decide ((r.bytes.drop 12).take 2 = [0x88#8, 0xB5#8])

/-- Whether its FCS is correct (R259, R269). -/
def BusRx.fcsOk (r : BusRx) : Bool := decide (Machine.fcsOf (Machine.unFcs r.bytes) = r.bytes.drop (r.bytes.length - 4))

/-- The Vistonik frame in it. -/
def BusRx.frame (r : BusRx) : BusFrame := Machine.readFrame r.payload

/-- Whether its body is laid out as its type needs. -/
def BusRx.fits (r : BusRx) : Bool := Machine.bodyFits r.payload

end Sys2Proof
end

