-- ==== Sys2Proof/Config.lean ====
section
/-! DEFINITION. The free values: constants without a body for what the spec leaves undefined or unstated. Nothing can be
proved of their values, so a statement holds whatever they are. Each is applied to what it depends on, or to the counter
State.freeCtr for a fresh value (assumption log 2). -/

namespace Sys2Proof.Config

/-- Byte `off` of a hub core's local memory after the `n`-th WRST_N, which R54 leaves undefined. -/
opaque freeLocal : Nat → Nat → Byte

/-- Whether two writes of a 32-byte word that reach its bank by both ports within one Meridian clock, given the clock and the word,
fall into one 2 ns window (R313). -/
opaque sameWindow : Nat → Nat → Bool

/-- The way of a full cache set that a line fill replaces (the spec gives no replacement rule). -/
opaque freeWay : Nat → Nat

/-- Rounding of the binary angle of the vector (x, y), and its angle where the vector is 0: R138 gives neither. -/
opaque angle : Int → Int → Nat

/-- A set-point speed or acceleration beyond the 32-bit signed field that R14 gives it, as the field holds it: unstated. -/
opaque wide32 : Int → BitVec 32

/-- VALUE of a REFINE whose residual, given in binary32, is not finite: R172 states none. -/
opaque residual : List Nat → BitVec 32

/-- Duration of the `n`-th SLE sample in units of 10 ns, of which R34 gives a bound only. -/
opaque sleDur : Nat → Nat

/-- Error of a safety channel's sine of a binary angle in 2^-40: for the hard-wired channel (true) R207 gives a bound only, for the
processor channel's software nothing. -/
opaque sinErr : Bool → Nat → Int

/-- Error of its cosine in 2^-40 (R207). -/
opaque cosErr : Bool → Nat → Int

/-- Whether a quotient or root of a safety channel (true: the hard-wired one) is rounded up to whole units (R207 and R210 give no
rounding). -/
opaque chUp : Bool → Int → Nat → Bool

/-- Whether a quotient of another block whose rounding the spec does not give is rounded up. -/
opaque fixUp : Int → Nat → Bool

/-- Whether the joint table accepts a position of a prismatic joint of a given scale: R207 names the range, the spec gives it
nowhere. -/
opaque jointFits : Int → Int → Bool

/-- The `n`-th value of a field of an event source word or a Field Book entry whose content the spec does not state. -/
opaque freeWord : Nat → Nat

/-- Whether the `n`-th flash write that a register write commands programs and verifies (R375: an outcome of the flash). -/
opaque flashOk : Nat → Bool

/-- Error in ns of the `n`-th conversion's time-stamp, of which R235 gives a bound only. -/
opaque convErr : Nat → Int

/-- Value in 2^-32 d of the `n`-th weighing that the spec gives no value: no conversions, or a specific force of 0. -/
opaque freeMass : Nat → Int

/-- Rounding error in 2^-20 µm/s² of the `n`-th planned specific force, which R243 has computed in binary64. -/
opaque forceErr : Nat → Int

/-- Share in 1/1000 of its bound by which zero tracking moves the zero at the `n`-th update (R240 gives a bound only). -/
opaque trackShare : Nat → Nat

/-- Version that a Cartouche program image with the given CRC-32C names (R254; the spec gives its place nowhere). -/
opaque programVersion : Nat → Nat

end Sys2Proof.Config
end

