-- ==== Sys2Proof/Machine/StCtm.lean ====
section
/-! DEFINITION. State of the Contour safety system: the parsed safety images, connections, arms, safe inputs and outputs,
and the load of an image (chapter 08). -/

namespace Sys2Proof.Machine

/-- A CONN record of a cell image (R228). -/
structure ConnRec where
  conn : Nat
  out : Bool
  len : Nat
  node : Nat
  flow : Nat
  /-- decoded: 16 for a field of 0 -/
  missMax : Nat
  ageMax : Nat
  seqwin : Nat
  arms : Nat
  react : Nat
  cellWide : Bool
  jmask : Nat
  deriving DecidableEq, Repr

/-- A ZONE record (R228). -/
structure ZoneRec where
  keepIn : Bool
  arms : Nat
  react : Nat
  cellWide : Bool
  lo : List Int
  hi : List Int
  deriving DecidableEq, Repr

/-- A SINPAIR record (R228). -/
structure SinRec where
  mode : Nat := 0
  tp : Nat := 0
  func : Nat := 0
  react : Nat := 0
  disc : Nat := 0
  arms : Nat := 0
  cell : Bool := false
  deriving DecidableEq, Repr

/-- A SOUTPAIR record (R228). -/
structure SoutRec where
  src : Nat := 0
  tper : Nat := 0
  twid : Nat := 0
  arms : Nat := 0
  deriving DecidableEq, Repr

/-- A SCANNER record (R228). -/
structure ScanRec where
  conns : List Nat
  zd : Nat
  rp : Nat
  deriving DecidableEq, Repr

/-- A cell image in force (R227, R228). -/
structure CellImg where
  seqno : Nat
  key : Nat
  crc : Nat
  vh : Nat
  pmiss : Nat
  dtol : Nat
  vtolc : Nat
  hperson : Nat
  conns : List ConnRec
  zones : List ZoneRec
  sins : List SinRec
  souts : List SoutRec
  scans : List ScanRec
  deriving DecidableEq, Repr

/-- A JOINT record (R228). -/
structure JointRec where
  axis : Nat
  prism : Bool
  conn : Nat
  pos : Nat
  scale : Int
  rot : List Int
  tr : List Int
  slpLo : Int
  slpHi : Int
  sls : Nat
  sdi : Nat
  sdiTol : Nat
  sosWin : Nat
  adec : Nat
  deriving DecidableEq, Repr

/-- A CAPSULE record (R228). -/
structure CapRec where
  link : Nat
  p0 : List Int
  p1 : List Int
  rc : Nat
  deriving DecidableEq, Repr

/-- An arm image in force (R227, R228). -/
structure ArmImg where
  seqno : Nat
  crc : Nat
  tcpLink : Nat
  modeConn : Nat
  modeByte : Nat
  slsTcp : List Nat
  tcp : List Int
  tresp : Nat
  adec : Nat
  c : Nat
  zr : Nat
  swarn : Nat
  react : Nat
  auto : Bool
  resumeCyc : Nat
  hyst : Nat
  tss1 : Nat
  vzero : Nat
  joints : List JointRec
  caps : List CapRec
  deriving DecidableEq, Repr

/-- A received copy of a safe PDU that passed the checks of R216 (its SEQ and DATA). -/
structure PduCopy where
  seq : Nat
  data : List Byte
  deriving DecidableEq, Repr

/-- An inbound safe connection (R216, R217). -/
structure SafeConn where
  /-- 8; AGE (R217); 0 -/
  age : Nat := 0
  /-- 5; MISSRUN (R217); 0 -/
  missrun : Nat := 0
  /-- 16; SEQ_last (R216); 0 -/
  seqLast : Nat := 0
  /-- 1; a copy was accepted since the image load or reset (R216); 0 -/
  seen : Bool := false
  /-- 32 bytes; last accepted DATA; empty -/
  data : List Byte := []
  /-- 48; cycle counter at the datum of the last fresh acceptance (R207); 0 -/
  freshAt : Nat := 0
  /-- 1; accepted fresh at the last datum (R217); 0 -/
  fresh : Bool := false
  /-- option; valid copy of the present cycle on channel A (R217); none -/
  cpA : Option PduCopy := none
  /-- option; valid copy of the present cycle on channel B (R217); none -/
  cpB : Option PduCopy := none
  /-- 1; PDU_SEQ raised in the present cycle (R216); 0 -/
  seqErr : Bool := false
  deriving DecidableEq, Repr

/-- A demand (R198): level 0 NONE, 1 SS2, 2 SS1, 3 STO, and its cause. -/
structure Demand where
  lvl : Nat := 0
  cause : Nat := 0
  deriving DecidableEq, Repr

/-- What one channel found for an arm at a datum (R199). -/
structure ArmView where
  /-- 2; demand level; 0 -/
  lvl : Nat := 0
  /-- 8; its cause; 0 -/
  cause : Nat := 0
  /-- µm; smallest margin S − Sp over all persons; none without a person -/
  margin : Option Int := none
  /-- 8; closest person; 0xFF -/
  person : Nat := 255
  /-- mm/s; TCP speed; 0 -/
  tcp : Nat := 0
  /-- 64 each; joint positions used; empty -/
  pos : List Int := []
  /-- violation bits of R205: SLS joint, SLS TCP, SLP joint, SLP zone, SDI, SSM, ENABLE, ESTOP or GUARD -/
  viol : List Bool := []
  /-- 1; S < Sp + SWARN for a person (R212); 0 -/
  warn : Bool := false
  /-- 1; S ≥ Sp + HYST for every person (R212); 0 -/
  clear : Bool := false
  /-- option of mm/s; the limit that the TCP speed was held to, none where SLS at the TCP is off (R199, R204); none -/
  tcpLim : Option Nat := none
  /-- 1; a demand of another cause than SSM is present (R212); 0 -/
  others : Bool := false
  deriving DecidableEq, Repr

/-- The safety state of an arm (R203–R212). -/
structure CtmArm where
  /-- option; arm image in force (R229); none -/
  img : Option ArmImg := none
  /-- 1; the image failed its CRC check (R226, IMG_CRC); 0 -/
  imgBad : Bool := false
  /-- 3; SSTATE: 0 RUN, 1 SS1, 2 SS2, 3 SOS, 4 STO (CTM_ARMn); 4 -/
  sst : Nat := 4
  /-- 3; AMODE (CTM_ARMn); 0 -/
  amode : Nat := 0
  /-- 1; LATCH (CTM_ARMn); 0 -/
  latch : Bool := false
  /-- 8; CAUSE (CTM_ARMn); 0 -/
  cause : Nat := 0
  /-- 1; SSMWARN (R212); 0 -/
  ssmwarn : Bool := false
  /-- 1; PDEM (CTM_ARMn); 0 -/
  pdem : Bool := false
  /-- 8; PERSON (CTM_ARMn); 0xFF -/
  person : Nat := 255
  /-- 3; the SSTATE to which the hard-wired channel's own demand leads (CSM_ARMn); 4 -/
  hwSst : Nat := 4
  /-- 8; its CAUSE (CSM_ARMn); 0 -/
  hwCause : Nat := 0
  /-- 8; its PERSON (CSM_ARMn); 0xFF -/
  hwPerson : Nat := 255
  /-- the hard-wired channel's view at the last datum (R199); no demand -/
  view : ArmView := {}
  /-- 2; consecutive datums at which the channels disagreed (R199); 0 -/
  disc : Nat := 0
  /-- model; Meridian ns of k0 (R206); 0 -/
  k0 : Nat := 0
  /-- speed units; |v_j(k0)| (R206); 0 -/
  v0 : List Int := []
  /-- pu; Pc_j (R206); empty -/
  pc : List Int := []
  /-- pu; joint positions at the last datum (R207); empty -/
  pos : List Int := []
  /-- speed units; joint speeds v_j (R207); DESIGN CHOICE 0 -/
  vel : List Int := []
  /-- pu and 48; position and datum of the last fresh acceptance of each joint (R207); none -/
  last : List (Option (Int × Nat)) := []
  /-- option; TCP point in µm and datum of the last fresh acceptance (R207); none -/
  tcpAt : Option (List Int × Nat) := none
  /-- mm/s; TCP speed (R207); DESIGN CHOICE 0 -/
  tcpV : Nat := 0
  /-- µm; capsule end points at the last fresh acceptance, and their greatest speed in mm/s (R210); none, 0 -/
  ends : List (List Int) := []
  vr : Nat := 0
  /-- pu; SDI references (R205); none -/
  sdiRef : List (Option Int) := []
  /-- 1; the reset source has shown its change since the cause ended (R208); 0 -/
  rstSeen : Bool := false
  /-- 8; consecutive datums with S ≥ Sp + HYST (R212); 0 -/
  clear : Nat := 0
  /-- 1; only an SSM demand with AUTORESUME is latched (R212); 0 -/
  ssmOnly : Bool := false
  /-- demand raised between datums by the Contour die, until the next decision (R223); none -/
  raised : Demand := {}
  deriving DecidableEq, Repr

/-- A mask of a test pulse at a safe input (R222). -/
structure TpMask where
  /-- model; the 10 µs sample at which the pulse started -/
  at_ : Nat
  /-- 1; read low in a sample within 100 µs of the pulse start -/
  low : Bool := false
  /-- 1; read high in every sample of the last 50 µs of the mask so far -/
  back : Bool := true
  deriving DecidableEq, Repr

/-- A safe input pair (R221, R222). -/
structure SinPair where
  /-- 1; in its demand state at the last snapshot (CSM_SIO.DEMAND); 1 -/
  demand : Bool := true
  /-- 1; demand state at the snapshot before (R208); 1 -/
  was : Bool := true
  /-- 1; IN_DISC stands; 0 -/
  disc : Bool := false
  /-- 1; IN_TEST stands; 0 -/
  test : Bool := false
  /-- 1; both inputs have shown demand at one snapshot since the fault (R221); 0 -/
  both : Bool := false
  /-- option; the 10 µs sample since which the inputs disagree (R221); none -/
  since : Option Nat := none
  /-- 1; a snapshot was taken under the cell image in force, so that `was` tells a change (R208); 0 -/
  snapped : Bool := false
  deriving DecidableEq, Repr

/-- A safe output (R223, R224). -/
structure SafeOut where
  /-- 1; energised by its source (R223); 0 -/
  cmd : Bool := false
  /-- model; Meridian ns since which it is energised (R224); 0 -/
  since : Nat := 0
  /-- counter; consecutive skipped tests (R224); 0 -/
  skips : Nat := 0
  /-- 1; CTM_TPSKIP bit (R224); 0 -/
  warn : Bool := false
  /-- option; a dark test pulse runs: the 10 µs sample at its start, and whether the readback follows it (R224); none -/
  dark : Option (Nat × Bool) := none
  /-- option; the readback level that a mismatch showed, until the next commanded change (R223); none -/
  stuck : Option Bool := none
  deriving DecidableEq, Repr

/-- An image that waits or runs through its load (R229): the scope, and the parsed image once both channels accepted. -/
structure CtmLoad where
  /-- 5; arm number, 0 for a cell image -/
  arm : Nat
  cell : Option CellImg
  armImg : Option ArmImg
  deriving DecidableEq, Repr

/-- The Contour safety system (chapter 08). -/
structure Ctm where
  /-- option; cell image in force (R229); none -/
  cell : Option CellImg := none
  /-- 1; the cell image failed its CRC check (R226, IMG_CRC); 0 -/
  cellBad : Bool := false
  /-- 18 arms by n (R230) -/
  arms : Table CtmArm := []
  /-- 256; inbound safe connections (R217) -/
  conns : Table SafeConn := []
  /-- 256; the same connections as the processor channel received and checked them on its own (R197, R216) -/
  pConns : Table SafeConn := []
  /-- 18 arms by n; positions, speeds, references and view of each arm as the processor channel evaluates it (R197) -/
  pArms : Table CtmArm := []
  /-- 80; Meridian ns of the datum that opened the present cycle (R215, R216); 0 -/
  openNs : Nat := 0
  /-- model; ns since PORST_N of that datum (R206); 0 -/
  openUp : Nat := 0
  /-- 1; CTM_STAT.PROC_OK: the processor result arrived by 30 µs (R198); 0 -/
  procOk : Bool := false
  /-- the processor channel's result vector of the present cycle (R198); none -/
  proc : Option (List ProcArm) := none
  /-- 1; that vector arrived by 30 µs and enters the decision (R198); 0 -/
  procUsed : Bool := false
  /-- 5; consecutive missing processor results (R200); 0 -/
  missing : Nat := 0
  /-- 1; a lockstep mismatch halted the processor channel (R197); 0 -/
  halted : Bool := false
  /-- 1; that halt stood at the last datum (R200); 0 -/
  lostHalt : Bool := false
  /-- 1; the processor channel waits for WRST_N to rise and the CRCs to agree (R225); 0 -/
  procHeld : Bool := false
  /-- 1; the decision of the present cycle has been formed (R198); 1 -/
  decided : Bool := true
  /-- 1; WRST_N hold of R225 in force (CTM_STAT.WRST); 0 -/
  wrst : Bool := false
  /-- 20; CSM_CLK.COUNT (R28); 0 -/
  clkCount : Nat := 0
  /-- 1; consecutive cycles with a deviating count (R28); 0 -/
  clkDev : Nat := 0
  /-- 1; a clock deviation stands (R202); 0 -/
  clkFail : Bool := false
  /-- 8; CTM_STAT.LASTDIAG (R226); 0 -/
  lastDiag : Nat := 0
  /-- 16; CTM_STAT.DIAGCNT (R226); 0 -/
  diagCnt : Nat := 0
  /-- 8; CSM_STAT.LASTDIAG; 0 -/
  hwDiag : Nat := 0
  /-- diagnostics found at the datum, reported with the decision: code, arm number, object (R226); none -/
  diags : List (Nat × Nat × Nat) := []
  /-- 8; set of diagnostics that stand, so that each is reported once: code × 512 + object; none -/
  standing : List Nat := []
  /-- 16; levels at the pins SIN0–SIN15 (R221); 0 -/
  pins : W32 := 0
  /-- 16; levels in the last 10 µs sample (R221); 0 -/
  sampV : W32 := 0
  /-- counter; 10 µs samples taken on the Contour die's own clock (R221); 0 -/
  samp : Nat := 0
  /-- model; where that clock's grid stands, in ns before PORST_N's end (assumption log 110); DESIGN CHOICE 0 -/
  off : Nat := 0
  /-- diagnostics found between datums, reported at once: code, arm number, object (R226); none -/
  found : List (Nat × Nat × Nat) := []
  /-- 16; filtered levels of SIN0–SIN15 (R221); 0 -/
  sin : W32 := 0
  /-- 16; masks of the safe inputs (R222); none -/
  masks : Table (Option TpMask) := []
  /-- 8; safe input pairs (R221) -/
  pairs : Table SinPair := []
  /-- 16; safe outputs, 2i for A and 2i + 1 for B (R223) -/
  outs : Table SafeOut := []
  /-- 8; OUT_FAIL stands on a pair (R223); 0 -/
  outFail : Nat := 0
  /-- option; the load that runs or waits for its datum (R229); none -/
  load : Option CtmLoad := none
  /-- 1; the load is still being checked (R229); 0 -/
  checking : Bool := false
  /-- 32; address taken at GO (R229); 0 -/
  ldAddr : Nat := 0
  /-- 4; CTM_LDST.RESULT (R229); 0 -/
  result : Nat := 0
  /-- 5; CTM_LDST.ARM; 0 -/
  ldArm : Nat := 0
  /-- 16; CTM_LDST.WORD; 0 -/
  ldWord : Nat := 0
  deriving DecidableEq, Repr

end Sys2Proof.Machine
end

