-- ==== Sys2Proof/Machine/CtmFk.lean ====
section
/-! DEFINITION. The geometry of a safety channel, `hw` being true for the hard-wired one (R197): forward kinematics, distances and the separation distance
(R205, R207, R210). Numerators are exact integers over a power of two; where the spec leaves an error or a rounding open, it is a
free value of Config for each channel (assumption log 12). -/

namespace Sys2Proof.Machine

/-! ### Rounding and trigonometry -/

/-- A quotient rounded to an integer in a direction that the spec leaves open. -/
def fixDiv (n : Int) (d : Nat) : Int :=
  let q := n / (d : Int)
  if q * d = n then q else if Config.fixUp n d then q + 1 else q

/-- A channel's quotient, rounded to an integer in a direction that the spec leaves open. -/
def chDiv (hw : Bool) (n : Int) (d : Nat) : Int :=
  let q := n / (d : Int)
  if q * d = n then q else if Config.chUp hw n d then q + 1 else q

/-- A square root of n / d^2, rounded in a direction that the spec leaves open. -/
def chSqrt (hw : Bool) (n d : Nat) : Nat :=
  let r := isqrt (n / (d * d))
  if r * r * d * d = n then r else if Config.chUp hw n d then r + 1 else r

/-- π in 2^-48. -/
def piQ : Nat := 884279719003555

/-- Terms of the sine series from `t` on, at x² in 2^-48: `n` of them, `k` the next divisor. -/
def sinTerms (xx : Nat) : Nat → Nat → Nat → Int
  | 0, _, _ => 0
  | n + 1, k, t => (t : Int) - sinTerms xx n (k + 2) (t * xx / 2 ^ 48 / ((k + 1) * (k + 2)))

/-- Sine of x in 2^-48 for x in the first quadrant. -/
def sinQ (x : Nat) : Int := sinTerms (x * x / 2 ^ 48) 12 1 x

/-- Sine of a binary angle (2^32 to the turn) in 2^-40, to its nearest values. -/
def sinTurn (a : Nat) : Int :=
  let q := a % 2 ^ 32 / 2 ^ 30
  let r := a % 2 ^ 30
  let up := sinQ (r * piQ / 2 ^ 31)
  let dn := sinQ ((2 ^ 30 - r) * piQ / 2 ^ 31)
  (match q with
    | 0 => up
    | 1 => dn
    | 2 => -up
    | _ => -dn) / 256

/-- Largest error below 2^-24, in 2^-40 (R207), less the error of `sinTurn`. -/
def trigBound : Int := 65530

/-- An error of a channel: the hard-wired channel's is bounded (R207). -/
def trigErr (hw : Bool) (e : Int) : Int := if hw then clampI (-trigBound) trigBound e else e

/-- A channel's sine in 2^-40; the hard-wired channel's lies within 2^-24 of the sine (R207). -/
def chSin (hw : Bool) (a : Nat) : Int := sinTurn a + trigErr hw (Config.sinErr hw (a % 2 ^ 32))

/-- A channel's cosine in 2^-40 (R207). -/
def chCos (hw : Bool) (a : Nat) : Int := sinTurn (a + 2 ^ 30) + trigErr hw (Config.cosErr hw (a % 2 ^ 32))

/-! ### Frames -/

/-- A link frame over 2^e: rotation (row-major) and translation in µm. -/
structure Frame where
  e : Nat
  r : List Int
  t : List Int

/-- The cell frame. -/
def Frame.cell : Frame := { e := 0, r := [1, 0, 0, 0, 1, 0, 0, 0, 1], t := [0, 0, 0] }

/-- Component `i` of a vector. -/
def comp (v : List Int) (i : Nat) : Int := v.getD i 0

/-- Product of 3 × 3 matrices. -/
def matMul (a b : List Int) : List Int :=
  (List.range 9).map fun k => comp a (k / 3 * 3) * comp b (k % 3) + comp a (k / 3 * 3 + 1) * comp b (3 + k % 3) +
    comp a (k / 3 * 3 + 2) * comp b (6 + k % 3)

/-- A matrix times a vector. -/
def matVec (a v : List Int) : List Int :=
  (List.range 3).map fun k => comp a (3 * k) * comp v 0 + comp a (3 * k + 1) * comp v 1 + comp a (3 * k + 2) * comp v 2

/-- The frame of a joint from the frame before it (R228): the record's rotation and translation, then the joint position. -/
def Frame.joint (hw : Bool) (f : Frame) (j : JointRec) (p : Int) : Frame :=
  let t := List.zipWith (· + ·) f.t (matVec f.r j.tr)
  let r := matMul f.r j.rot
  if j.prism then
    let d := p * j.scale
    { e := f.e + 62, r := r.map (· * 2 ^ 32),
      t := List.zipWith (fun x y => x * 2 ^ 62 + y) t (matVec r [0, 0, d]) }
  else
    let a := wrapN 32 p
    let c := chCos hw a
    let s := chSin hw a
    { e := f.e + 70, r := matMul r [c, -s, 0, s, c, 0, 0, 0, 2 ^ 40], t := t.map (· * 2 ^ 70) }

/-- The frames 0 (cell) to 8. -/
def frames (hw : Bool) : Frame → List JointRec → List Int → List Frame
  | f, [], _ => [f]
  | f, j :: t, p => f :: frames hw (f.joint hw j (p.headD 0)) t (p.drop 1)

/-- A point of a link frame in cell coordinates, µm. -/
def Frame.point (hw : Bool) (f : Frame) (p : List Int) : List Int :=
  (List.zipWith (· + ·) f.t (matVec f.r p)).map fun x => chDiv hw x (2 ^ f.e)

/-- Whether the joint table accepts a position (R207): a revolute joint takes every one, its angle being P[31:0]; the range of a
prismatic joint stands nowhere in the spec and is free (assumption log 55). -/
def JointRec.fits (j : JointRec) (p : Int) : Bool := !j.prism || Config.jointFits j.scale p

/-- A point whose coordinates overflow 32 bits (R207). -/
def overflow (p : List Int) : Bool := p.any fun x => decide (x < -(2 ^ 31)) || decide (2 ^ 31 ≤ x)

/-- Distance of two points in µm. -/
def dist (hw : Bool) (a b : List Int) : Nat :=
  chSqrt hw (((List.zipWith (fun x y => (x - y) * (x - y)) a b).foldl (· + ·) 0).toNat) 1

/-- Speed in mm/s of a distance in µm over `m` cycles of `T` ns (R207). -/
def speedOf (hw : Bool) (d m T : Nat) : Nat := (chDiv hw ((d * 1000000 : Nat) : Int) (m * T)).toNat

/-! ### Boxes (R205) -/

/-- The bounding box of a capsule, widened by its radius. -/
def capBox (p0 p1 : List Int) (rc : Nat) : List Int × List Int :=
  (List.zipWith (fun x y => min x y - rc) p0 p1, List.zipWith (fun x y => max x y + rc) p0 p1)

/-- Whether two boxes overlap. -/
def boxMeets (a b : List Int × List Int) : Bool :=
  (List.range 3).all fun i => decide (comp a.1 i ≤ comp b.2 i) && decide (comp b.1 i ≤ comp a.2 i)

/-- Whether box `a` lies wholly inside box `b`. -/
def boxInside (a b : List Int × List Int) : Bool :=
  (List.range 3).all fun i => decide (comp b.1 i ≤ comp a.1 i) && decide (comp a.2 i ≤ comp b.2 i)

/-! ### The distance to a person (R210) -/

/-- A non-negative rational. -/
structure Ratio where
  n : Nat
  d : Nat

/-- The squared distance, over d², of the point at parameter n/d of a segment to the axis from (x, y, 0) to (x, y, h). -/
def axisDist2 (p0 p1 : List Int) (x y : Int) (h : Nat) (t : Ratio) : Nat :=
  let q (i : Nat) : Int := comp p0 i * t.d + (comp p1 i - comp p0 i) * t.n
  let hx := q 0 - x * t.d
  let hy := q 1 - y * t.d
  let z := q 2
  let g : Int := if z < 0 then z else if (h : Int) * t.d < z then z - h * t.d else 0
  (hx * hx + hy * hy + g * g).toNat

/-- A parameter n/d clamped to 0–1. -/
def clampRatio (n d : Int) : Ratio :=
  if d = 0 then ⟨0, 1⟩
  else
    let n := if d < 0 then -n else n
    let d := d.natAbs
    if n ≤ 0 then ⟨0, 1⟩ else if (d : Int) ≤ n then ⟨1, 1⟩ else ⟨n.toNat, d⟩

/-- The parameters at which the distance of a segment to an axis can be smallest: its ends, the crossings of the axis's end
heights, and the minima of the three quadratics between them. -/
def nearParams (p0 p1 : List Int) (x y : Int) (h : Nat) : List Ratio :=
  let dx := comp p1 0 - comp p0 0
  let dy := comp p1 1 - comp p0 1
  let dz := comp p1 2 - comp p0 2
  let a := (x - comp p0 0) * dx + (y - comp p0 1) * dy
  let z0 := comp p0 2
  let hh := dx * dx + dy * dy
  [⟨0, 1⟩, ⟨1, 1⟩, clampRatio (-z0) dz, clampRatio (h - z0) dz, clampRatio a hh, clampRatio (a - z0 * dz) (hh + dz * dz),
    clampRatio (a + (h - z0) * dz) (hh + dz * dz)]

/-- The smaller of two squared distances given over d². -/
def lesser (a b : Nat × Nat) : Nat × Nat := if b.1 * (a.2 * a.2) < a.1 * (b.2 * b.2) then b else a

/-- The smallest distance of a segment and a person axis, µm. -/
def axisDist (hw : Bool) (p0 p1 : List Int) (x y : Int) (h : Nat) : Nat :=
  let m := (nearParams p0 p1 x y h).foldl (fun m t => lesser m (axisDist2 p0 p1 x y h t, t.d)) (axisDist2 p0 p1 x y h ⟨0, 1⟩, 1)
  chSqrt hw m.1 m.2

/-- What the separation distance of an arm depends on (R210); lengths in µm, speeds in mm/s, times in ns. -/
structure SepEnv where
  T : Nat
  tresp : Nat
  adec : Nat
  vr : Nat
  vh : Nat
  ah : Nat
  ar : Nat
  c : Nat
  zd : Nat
  zr : Nat

/-- S_p in µm over the denominator of `sepDen` (R210). -/
def SepEnv.num (e : SepEnv) : Nat :=
  let tr := 2 * e.T + 20000 + e.tresp * 1000
  let k := 2 * e.adec * 1000000
  e.vh * (tr + e.ah * e.T) * (2 * e.adec) + e.vh * e.vr * 1000 * (2 * 1000000) + e.vr * (tr + e.ar * e.T) * (2 * e.adec) +
    e.vr * e.vr * 1000 * 1000000 + (e.c + e.zd + e.zr) * k

/-- The denominator of S_p. -/
def SepEnv.den (e : SepEnv) : Nat := 2 * e.adec * 1000000

/-- Whether S < S_p + w; with ADEC 0 an arm that moves never stops (R210). -/
def SepEnv.below (e : SepEnv) (s : Int) (w : Nat) : Bool :=
  if e.adec = 0 then decide (0 < e.vr) || decide (s < (e.c + e.zd + e.zr + w : Nat))
  else decide ((s - w) * e.den < (e.num : Int))

/-- The margin S − S_p in µm. -/
def SepEnv.margin (hw : Bool) (e : SepEnv) (s : Int) : Int :=
  if e.adec = 0 then s - ((e.c + e.zd + e.zr : Nat) : Int) else s - chDiv hw (e.num : Int) e.den

end Sys2Proof.Machine
end

