-- ==== Sys2Proof/Machine/Flags.lean ====
section
/-! DEFINITION. The arithmetic of Brorok as functions of operand values, with the saturation that sets CSTAT.SAT on a core
or the axis flag on the SLE (R45–R47, R75, R76, R85). Each saturating function answers the result and whether it
saturated. -/

namespace Sys2Proof.Machine

/-- A 64-bit register from an integer, modulo 2^64. -/
def w64 (i : Int) : W64 := BitVec.ofInt 64 i

/-- low32 of a register, signed. -/
def lowS (x : W64) : Int := (x.setWidth 32).toInt

/-- Saturate an exact value to 64 bits. -/
def sat64 (x : Int) : W64 × Bool := (w64 (satI 64 x), decide (satI 64 x ≠ x))

/-- ADDS (R45). -/
def aluAdds (a b : W64) : W64 × Bool := sat64 (a.toInt + b.toInt)
/-- SUBS (R45). -/
def aluSubs (a b : W64) : W64 × Bool := sat64 (a.toInt - b.toInt)
/-- MULS (R46). -/
def aluMuls (a b : W64) : W64 × Bool := sat64 (a.toInt * b.toInt)

/-- A comparison result. -/
def bool64 (b : Bool) : W64 := if b then 1 else 0

/-- SLT (R45). -/
def aluSlt (a b : W64) : W64 := bool64 (BitVec.slt a b)
/-- SLTU (R45). -/
def aluSltu (a b : W64) : W64 := bool64 (BitVec.ult a b)
/-- SLL by rb[5:0] (R45). -/
def aluSll (a b : W64) : W64 := a <<< (b.toNat % 64)
/-- SRL by rb[5:0] (R45). -/
def aluSrl (a b : W64) : W64 := a >>> (b.toNat % 64)
/-- SRA by rb[5:0] (R45). -/
def aluSra (a b : W64) : W64 := a.sshiftRight (b.toNat % 64)
/-- MIN (R45). -/
def aluMin (a b : W64) : W64 := if BitVec.slt b a then b else a
/-- MAX (R45). -/
def aluMax (a b : W64) : W64 := if BitVec.slt a b then b else a
/-- MINU (R45). -/
def aluMinu (a b : W64) : W64 := if BitVec.ult b a then b else a
/-- MAXU (R45). -/
def aluMaxu (a b : W64) : W64 := if BitVec.ult a b then b else a

/-- Leading zeros among the low `n` bits (R45). -/
def leadZeros (v : Nat) : Nat → Nat
  | 0 => 0
  | n + 1 => if bitN v n then 0 else 1 + leadZeros v n

/-- 1 bits among the low `n` bits (R45). -/
def onesIn (v : Nat) : Nat → Nat
  | 0 => 0
  | n + 1 => b01 (bitN v n) + onesIn v n

/-- CLZ (R45). -/
def aluClz (a : W64) : W64 := BitVec.ofNat 64 (leadZeros a.toNat 64)
/-- POPC (R45). -/
def aluPopc (a : W64) : W64 := BitVec.ofNat 64 (onesIn a.toNat 64)
/-- MULH (R46). -/
def aluMulh (a b : W64) : W64 := w64 (a.toInt * b.toInt / 2 ^ 64)
/-- MULHU (R46). -/
def aluMulhu (a b : W64) : W64 := BitVec.ofNat 64 (a.toNat * b.toNat / 2 ^ 64)

/-- DIV (R46). -/
def aluDiv (a b : W64) : W64 × Bool :=
  if b = 0 then (w64 (if a.toInt < 0 then -(2 ^ 63) else 2 ^ 63 - 1), true)
  else sat64 (Int.tdiv a.toInt b.toInt)
/-- DIVU (R46). -/
def aluDivu (a b : W64) : W64 × Bool :=
  if b = 0 then (BitVec.allOnes 64, true) else (BitVec.ofNat 64 (a.toNat / b.toNat), false)
/-- REM (R46). -/
def aluRem (a b : W64) : W64 × Bool :=
  if b = 0 then (0, true) else (w64 (Int.tmod a.toInt b.toInt), false)
/-- REMU (R46). -/
def aluRemu (a b : W64) : W64 × Bool :=
  if b = 0 then (0, true) else (BitVec.ofNat 64 (a.toNat % b.toNat), false)

/-- The rounded right shift of R75: half up. -/
def roundShift (p : Int) (s : Nat) : Int := if s = 0 then p else (p + 2 ^ (s - 1)) / 2 ^ s

/-- QMUL and QMAC (R75): `acc` is rd for QMAC and 0 for QMUL; `l` keeps 64 bits. -/
def aluQ (acc : Int) (a : W64) (coeff : Int) (s : Nat) (l : Bool) : W64 × Bool :=
  let t := acc + roundShift (lowS a * coeff) s
  let r := satI (if l then 64 else 32) t
  (w64 r, decide (r ≠ t))

/-- The interpolation of R76 over points `y i`, i < n, from x0 with spacing 2^e. `x` outside the table saturates. -/
def interp (x0 : Int) (e n : Nat) (y : Nat → Int) (x : Int) : Int × Bool :=
  let u := x - x0
  if u < 0 then (y 0, true)
  else
    let i := (u / 2 ^ e).toNat
    let f := u - (i : Int) * 2 ^ e
    if n - 1 < i ∨ (i = n - 1 ∧ 0 < f) then (y (n - 1), true)
    else if f = 0 then (y i, false)
    else (y i + roundShift ((y (i + 1) - y i) * f) e, false)

/-- The I-format operations of R47 on ra and imm16, by opcode 0x04–0x0C. -/
def aluImm (op : Nat) (a : W64) (imm : BitVec 16) : W64 :=
  let s := imm.signExtend 64
  let z := imm.setWidth 64
  match op with
  | 0x04 => a + s
  | 0x05 => a &&& z
  | 0x06 => a ||| z
  | 0x07 => a ^^^ z
  | 0x08 => bool64 (BitVec.slt a s)
  | 0x09 => bool64 (BitVec.ult a s)
  | 0x0A => (imm ++ 0#16).signExtend 64
  | 0x0B => a ||| (z <<< 32)
  | _ => a ||| (z <<< 48)

/-- The operations of opcode 0x01 by func (R45): result and saturation. `sh` serves SLLI, SRLI and SRAI. -/
def aluInt (func : Nat) (a b : W64) (sh : Nat) : Option (W64 × Bool) :=
  match func with
  | 0x00 => some (a + b, false)
  | 0x01 => some (a - b, false)
  | 0x02 => some (a &&& b, false)
  | 0x03 => some (a ||| b, false)
  | 0x04 => some (a ^^^ b, false)
  | 0x05 => some (~~~(a ||| b), false)
  | 0x06 => some (aluSlt a b, false)
  | 0x07 => some (aluSltu a b, false)
  | 0x08 => some (aluSll a b, false)
  | 0x09 => some (aluSrl a b, false)
  | 0x0A => some (aluSra a b, false)
  | 0x0B => some (a <<< sh, false)
  | 0x0C => some (a >>> sh, false)
  | 0x0D => some (a.sshiftRight sh, false)
  | 0x0E => some (aluAdds a b)
  | 0x0F => some (aluSubs a b)
  | 0x10 => some (aluMin a b, false)
  | 0x11 => some (aluMax a b, false)
  | 0x12 => some (aluMinu a b, false)
  | 0x13 => some (aluMaxu a b, false)
  | 0x14 => some (aluClz a, false)
  | 0x15 => some (aluPopc a, false)
  | _ => none

/-- The operations of opcode 0x02 by func (R46). -/
def aluMul (func : Nat) (a b : W64) : Option (W64 × Bool) :=
  match func with
  | 0 => some (a * b, false)
  | 1 => some (aluMulh a b, false)
  | 2 => some (aluMulhu a b, false)
  | 3 => some (aluMuls a b)
  | 4 => some (aluDiv a b)
  | 5 => some (aluDivu a b)
  | 6 => some (aluRem a b)
  | 7 => some (aluRemu a b)
  | _ => none

/-- The branch conditions of opcodes 0x20–0x25. -/
def branchTaken (op : Nat) (a b : W64) : Bool :=
  match op with
  | 0x20 => a == b
  | 0x21 => a != b
  | 0x22 => BitVec.slt a b
  | 0x23 => !BitVec.slt a b
  | 0x24 => BitVec.ult a b
  | _ => !BitVec.ult a b

end Sys2Proof.Machine
end

