-- ==== Sys2Proof/Machine/RegMap.lean ====
section
/-! DEFINITION. The register fields that software writes and the XN stores (R9–R11, R19 and the register tables of every
chapter): place, width, access, reset value and the values the field takes. Fields that only report are computed
where they are read; the XN's own commands (WO fields) act where they are written. -/

namespace Sys2Proof.Machine

/-- How a stored field takes a write (R9). -/
inductive Acc where
  | rw | w1c | w1s
  deriving DecidableEq, Repr

/-- The values that a field takes; any other written value leaves it unchanged (R11). -/
inductive Valid where
  | any
  | rng (lo hi : Nat)
  /-- whole multiples of `m` from `lo` to `hi` -/
  | mult (m lo hi : Nat)
  /-- signed 32-bit within ± `lim` -/
  | sgn (lim : Nat)
  deriving DecidableEq, Repr

/-- Whether a field value is one that the field takes. -/
def Valid.ok : Valid → Nat → Bool
  | .any, _ => true
  | .rng lo hi, v => decide (lo ≤ v) && decide (v ≤ hi)
  | .mult m lo hi, v => decide (lo ≤ v) && decide (v ≤ hi) && v % m == 0
  | .sgn lim, v => decide ((sxt 32 v).natAbs ≤ lim)

/-- A stored field. -/
structure Fld where
  lo : Nat
  w : Nat
  acc : Acc := .rw
  rst : Nat := 0
  ok : Valid := .any
  deriving DecidableEq, Repr

/-- A register, or `cnt` registers `stride` bytes apart, with its stored fields. -/
structure Rg where
  off : Nat
  stride : Nat := 4
  cnt : Nat := 1
  flds : List Fld
  deriving DecidableEq, Repr

/-- A whole-word RW register. -/
def word32 : List Fld := [{ lo := 0, w := 32 }]

/-- An event register: ENTRY and a MASK of `n` bits from bit 16. -/
def evtFlds (n : Nat) : List Fld := [{ lo := 0, w := 9 }, { lo := 16, w := n }]

/-- Two 16-bit counters. -/
def cnt2 : List Fld := [{ lo := 0, w := 16 }, { lo := 16, w := 16 }]

/-- SYS (chapter 01). TRV_LEGACY is stored at the place that SYS_COMPAT gives it. -/
def regsSys : List Rg :=
  [{ off := 0x04, flds := [{ lo := 0, w := 1 }] }, { off := 0x20, flds := word32 }, { off := 0x24, flds := word32 }]

/-- WDX (chapter 04). -/
def regsWdx : List Rg :=
  [{ off := 0x00, flds := [{ lo := 0, w := 12, rst := 4, ok := .rng 1 4000 }] },
   { off := 0x04, flds := [{ lo := 0, w := 16, rst := 0xC8 }] },
   { off := 0x20, flds := word32 },
   { off := 0x24, flds := [{ lo := 0, w := 4, rst := 8, ok := .rng 4 12 }] },
   { off := 0x2C, flds := [{ lo := 0, w := 12 }] },
   { off := 0x30, flds := cnt2 },
   { off := 0x40, cnt := 16, flds := [{ lo := 0, w := 13, rst := 4096, ok := .rng 1 4096 }] },
   { off := 0x4000, cnt := 4096, flds := word32 },
   { off := 0x8000, cnt := 512, flds := [{ lo := 0, w := 2 }] }]

/-- MER (chapter 11). -/
def regsMer : List Rg :=
  [{ off := 0x04, flds := [{ lo := 1, w := 1, acc := .w1c }, { lo := 2, w := 1, acc := .w1c }] },
   { off := 0x1C, flds := [{ lo := 0, w := 7, rst := 4, ok := .rng 1 64 }] },
   { off := 0x20, flds := [{ lo := 0, w := 22, rst := 250000, ok := .mult 500 62500 4000000 }] },
   { off := 0x24, flds := [{ lo := 0, w := 32, ok := .sgn 1099511628 }] },
   { off := 0x30, flds := [{ lo := 0, w := 32, ok := .rng 0 999999999 }] },
   { off := 0x34, flds := word32 },
   { off := 0x38, flds := [{ lo := 0, w := 16 }, { lo := 31, w := 1 }] },
   { off := 0x40, flds := [{ lo := 0, w := 32, ok := .rng 0 999999999 }] },
   { off := 0x44, flds := word32 },
   { off := 0x48, flds := [{ lo := 0, w := 16 }, { lo := 31, w := 1 }] },
   { off := 0x4C, flds := [{ lo := 0, w := 32, ok := .sgn 1099511628 }] }]

/-- VBA and VBB common part (chapter 10). -/
def regsVb : List Rg :=
  [{ off := 0x04, cnt := 2, flds := [{ lo := 0, w := 2 }, { lo := 8, w := 8 }, { lo := 16, w := 8 }] },
   { off := 0x14, cnt := 4, flds := cnt2 }]

/-- The cell part of VBA (chapter 10). -/
def regsVba : List Rg := regsVb ++
  [{ off := 0x100, flds := [{ lo := 0, w := 1 }, { lo := 8, w := 8, rst := 1, ok := .rng 1 250 }, { lo := 16, w := 3 }] },
   { off := 0x110, flds := [{ lo := 0, w := 32, ok := .rng 0 0x1FFFF }] },
   { off := 0x11C, flds := [{ lo := 0, w := 3 }] },
   { off := 0x124, flds := [{ lo := 0, w := 3 }] },
   { off := 0x138, flds := [{ lo := 0, w := 16, rst := 256, ok := .rng 1 65535 }] },
   { off := 0x140, flds := [{ lo := 0, w := 12 }] },
   { off := 0x14C, flds := evtFlds 6 }]

/-- HNA and HNB (chapter 11); TC exists in HNA alone. -/
def regsHn (b : Bool) : List Rg :=
  [{ off := 0x04, flds := [{ lo := 0, w := 3 }, { lo := 3, w := 1, rst := 1 }] },
   { off := 0x08, flds := [{ lo := 1, w := 1, acc := .w1c }] },
   { off := 0x0C, flds := word32 },
   { off := 0x10, flds := [{ lo := 0, w := 16 }] },
   { off := 0x20, stride := 8, cnt := 8, flds := word32 },
   { off := 0x24, stride := 8, cnt := 8, flds := [{ lo := 0, w := 16 }, { lo := 31, w := 1 }] },
   { off := 0x60, cnt := 2, flds := cnt2 },
   { off := 0x100, flds := (if b then [{ lo := 0, w := 2 }, { lo := 3, w := 2 }] else [{ lo := 0, w := 5 }]) ++
       [{ lo := 8, w := 8 }, { lo := 16, w := 8 }] },
   { off := 0x130, flds := [{ lo := 0, w := 8 }, { lo := 8, w := 8 }, { lo := 16, w := 8 }] }]

/-- DMH and DMS (chapter 12). -/
def regsDma : List Rg :=
  [{ off := 0x100, stride := 64, cnt := 16, flds := word32 },
   { off := 0x104, stride := 64, cnt := 16, flds := [{ lo := 0, w := 4, ok := .rng 0 12 }, { lo := 16, w := 12 }] },
   { off := 0x108, stride := 64, cnt := 16,
     flds := [{ lo := 0, w := 2, rst := 3 }, { lo := 4, w := 3, rst := 3 }, { lo := 12, w := 8, rst := 4 }, { lo := 20, w := 9 }] },
   { off := 0x10C, stride := 64, cnt := 16, flds := [{ lo := 0, w := 3, ok := .rng 0 4 }, { lo := 4, w := 12 }] },
   { off := 0x110, stride := 64, cnt := 16, flds := [{ lo := 0, w := 16, rst := 1 }, { lo := 16, w := 16 }] },
   { off := 0x114, stride := 64, cnt := 16, flds := word32 },
   { off := 0x11C, stride := 64, cnt := 16, flds := [{ lo := 16, w := 16 }] },
   { off := 0x120, stride := 64, cnt := 16, flds := cnt2 }]

/-- MEM (chapter 12), `banks` banks. -/
def regsMem (banks : Nat) : List Rg :=
  [{ off := 0x04, flds := [{ lo := 0, w := 1, rst := 1 }, { lo := 1, w := 1 }, { lo := 8, w := 8, rst := 8, ok := .rng 1 255 }] },
   { off := 0x08, flds := cnt2 },
   { off := 0x0C, flds := [{ lo := 0, w := 16 }] },
   { off := 0x10, flds := cnt2 },
   { off := 0x1C, flds := [{ lo := 0, w := banks }] },
   { off := 0x24, flds := evtFlds 1 }]

/-- CRT (chapter 09). -/
def regsCrt : List Rg :=
  [{ off := 0x14, flds := evtFlds 3 },
   { off := 0x20, flds := [{ lo := 0, w := 32, ok := .rng 0 0x1FFFF }] },
   { off := 0x30, flds := [{ lo := 0, w := 3 }, { lo := 3, w := 1 }, { lo := 4, w := 12 }] },
   { off := 0x34, flds := word32 },
   { off := 0x38, flds := [{ lo := 0, w := 16 }] },
   { off := 0x3C, flds := [{ lo := 16, w := 16 }] },
   { off := 0x48, flds := [{ lo := 0, w := 10 }] },
   { off := 0x100, cnt := 8, flds := [{ lo := 16, w := 8 }] }]

/-- SFY (chapter 15). -/
def regsSfy : List Rg :=
  [{ off := 0x24, cnt := 2, flds := word32 },
   { off := 0x30, flds := word32 },
   { off := 0x3C, flds := word32 },
   { off := 0x54, flds := [{ lo := 0, w := 13 }] },
   { off := 0x80, flds := [{ lo := 0, w := 8, rst := 140 }, { lo := 8, w := 8, rst := 150 }, { lo := 16, w := 1 }] },
   { off := 0x84, flds := evtFlds 4 },
   { off := 0x100, cnt := 14, flds := [{ lo := 16, w := 16 }] },
   { off := 0x140, cnt := 24, flds := [{ lo := 16, w := 1, acc := .w1c }, { lo := 17, w := 1, acc := .w1c }] }]

/-- PWR (chapter 14). -/
def regsPwr : List Rg :=
  [{ off := 0x00, flds := [{ lo := 8, w := 1, acc := .w1c }, { lo := 9, w := 1, acc := .w1c }] },
   { off := 0x0C, flds := [{ lo := 0, w := 1 }, { lo := 1, w := 1 }, { lo := 8, w := 8, rst := 30, ok := .rng 1 255 }] },
   { off := 0x18, flds := [{ lo := 0, w := 8 }, { lo := 8, w := 8 }, { lo := 16, w := 8 }] },
   { off := 0x1C, flds := evtFlds 2 }]

/-- RDN (chapter 14). -/
def regsRdn : List Rg :=
  [{ off := 0x00, flds := [{ lo := 2, w := 1 }, { lo := 8, w := 8, ok := .rng 1 250 }, { lo := 16, w := 8, rst := 8, ok := .rng 1 255 },
      { lo := 24, w := 8, rst := 3, ok := .rng 1 255 }] },
   { off := 0x14, flds := cnt2 },
   { off := 0x18, flds := [{ lo := 0, w := 32, ok := .rng 0 0x1FFFF }] },
   { off := 0x1C, flds := [{ lo := 0, w := 17, ok := .mult 32 0 65536 }] },
   { off := 0x24, flds := cnt2 },
   { off := 0x2C, flds := [{ lo := 0, w := 16 }] },
   { off := 0x30, flds := evtFlds 4 }]

/-- The seven W1C bits of TRV_AXn_FLAG, as single fields. -/
def w1cBits : Nat → List Fld
  | 0 => []
  | n + 1 => w1cBits n ++ [{ lo := n, w := 1, acc := .w1c }]

/-- The axis registers of TRV and TRH (chapter 05), `n` axes. -/
def regsTrvAx (n : Nat) : List Rg :=
  [{ off := 0x1004, stride := 64, cnt := n, flds := word32 },
   { off := 0x1008, stride := 64, cnt := n, flds := word32 },
   { off := 0x1014, stride := 64, cnt := n, flds := w1cBits 7 },
   { off := 0x1024, stride := 64, cnt := n, flds := [{ lo := 16, w := 16 }] },
   { off := 0x1028, stride := 64, cnt := n, flds := evtFlds 8 }]

/-- TRH (chapter 05). -/
def regsTrh : List Rg := regsTrvAx 16 ++
  [{ off := 0x2000, cnt := 16, flds := [{ lo := 0, w := 1 }, { lo := 1, w := 1 }, { lo := 2, w := 1 },
      { lo := 4, w := 8, rst := 10, ok := .rng 10 255 }, { lo := 12, w := 8, rst := 20 }] },
   { off := 0x2140, cnt := 16, flds := [{ lo := 0, w := 2 }, { lo := 2, w := 1 }, { lo := 3, w := 1, acc := .w1s },
      { lo := 4, w := 1, acc := .w1c }] }]

/-- SLE (chapter 06). -/
def regsSle : List Rg :=
  [{ off := 0x04, flds := [{ lo := 0, w := 16, rst := 0x3E8 }] },
   { off := 0x18, flds := [{ lo := 0, w := 16 }] },
   { off := 0x1C, flds := evtFlds 2 },
   { off := 0x1004, stride := 128, cnt := 24, flds := word32 },
   { off := 0x1008, stride := 128, cnt := 24, flds := word32 },
   { off := 0x1014, stride := 128, cnt := 24, flds := [{ lo := 1, w := 1, acc := .w1c }, { lo := 2, w := 1, acc := .w1c },
      { lo := 3, w := 1, acc := .w1c }, { lo := 4, w := 1, acc := .w1c }] },
   { off := 0x1018, stride := 128, cnt := 24, flds := [{ lo := 0, w := 1 }] },
   { off := 0x101C, stride := 128, cnt := 24, flds := evtFlds 8 },
   { off := 0x1024, stride := 128, cnt := 24, flds := [{ lo := 8, w := 8 }] },
   { off := 0x1028, stride := 128, cnt := 24, flds := [{ lo := 0, w := 16 }] }]

/-- TRI (chapter 07). -/
def regsTri : List Rg :=
  [{ off := 0x14, cnt := 2, flds := word32 },
   { off := 0x20, cnt := 2, flds := cnt2 },
   { off := 0x28, flds := [{ lo := 0, w := 7 }] }]

/-- CTM (chapter 08). -/
def regsCtm : List Rg :=
  [{ off := 0x04, flds := [{ lo := 0, w := 32, ok := .rng 0 0x1FFFF }] },
   { off := 0x10, flds := evtFlds 4 },
   { off := 0x14, flds := w1cBits 16 },
   { off := 0x18, flds := [{ lo := 0, w := 8 }] }]

/-- The stored registers of a block of a die (R18). -/
def blockRegs (die blk : Nat) : List Rg :=
  if die = 0 then
    match blk with
    | 0x00 => regsSys | 0x01 => regsWdx | 0x02 => regsMer | 0x03 => regsVba | 0x04 => regsVb
    | 0x05 => regsHn false | 0x06 => regsHn true | 0x07 => regsDma | 0x08 => regsMem 32 | 0x09 => regsCrt
    | 0x0A => regsSfy | 0x0B => regsPwr | 0x0C => regsRdn | 0x0D => regsTrh | 0x0F => regsCtm
    | _ => []
  else if die ≤ 6 then
    match blk with
    | 0x00 => regsTrvAx 24 | 0x01 => regsSle | 0x02 => regsTri | 0x03 => regsDma | 0x04 => regsMem 24
    | _ => []
  else []

/-- Whether offset `o` is a register of the entry. -/
def Rg.hit (r : Rg) (o : Nat) : Bool :=
  decide (r.off ≤ o) && (o - r.off) % r.stride == 0 && decide ((o - r.off) / r.stride < r.cnt)

/-- A register's number: die code, block and offset as R19 places them above 0xF0_0000_0000. -/
def rg (die blk off : Nat) : Nat := die * 2 ^ 24 + blk * 2 ^ 16 + off

/-- The stored fields of a register. -/
def regFlds (r : Nat) : List Fld :=
  match (blockRegs (r / 2 ^ 24) (fld r 16 8)).find? (·.hit (fld r 0 16)) with
  | some g => g.flds
  | none => []

/-- The reset value of the stored fields of a register. -/
def regReset (r : Nat) : W32 := BitVec.ofNat 32 ((regFlds r).foldl (fun a f => a + f.rst * 2 ^ f.lo) 0)

/-- One field of a write (R9, R11). -/
def Fld.write (f : Fld) (old v : Nat) : Nat :=
  let x := fld v f.lo f.w
  match f.acc with
  | .rw => if f.ok.ok x then setFld old f.lo f.w x else old
  | .w1c => if x = 0 then old else setFld old f.lo f.w 0
  | .w1s => if x = 0 then old else setFld old f.lo f.w x

/-- A write to a register without behaviour of its own: every stored field under its access code (R9, R11). -/
def plainWrite (r : Nat) (old v : W32) : W32 :=
  BitVec.ofNat 32 ((regFlds r).foldl (fun a f => f.write a v.toNat) old.toNat)

end Sys2Proof.Machine
end

