-- ==== Sys2Proof/Machine/StBus.lean ====
section
/-! DEFINITION. State of the Vistonik bus: ports, flows, the Gazetteer, the schedule store and the protocol (chapter 10). -/

namespace Sys2Proof.Machine

/-- The bus protocol states (R282). -/
inductive BusSt where
  | off | listen | coldstart | integrate | active
  deriving DecidableEq, Repr

/-- The code of a protocol state in VBA_STAT.STATE. -/
def BusSt.code : BusSt → Nat
  | .off => 0 | .listen => 1 | .coldstart => 2 | .integrate => 3 | .active => 4

/-- A bus port (R256, R257, R277). -/
structure BusPort where
  /-- 1; link up (VBx_PnST.LINK); 0 -/
  link : Bool := false
  /-- 16 signed values; the last valid link delays in 1/32 ns, newest first (R277); empty -/
  delays : List Int := []
  /-- option; transmit time of the last DLYREQ in 1/16 ns (R277); none -/
  t1 : Option Nat := none
  /-- option; bytes of the frame held to go out of this port, and the ingress port's mean link delay in 1/16 ns (R257, R262); none -/
  held : Option (List Byte × Int) := none
  /-- model; Meridian clock count at which the frame on the wire ends (R257, R259); 0 -/
  busyTill : Nat := 0
  /-- wire; the bytes of the last frame sent, with its FCS (R259); empty -/
  sent : List Byte := []
  deriving DecidableEq, Repr

/-- A Gazetteer entry (R271). -/
structure GazE where
  /-- 32; word 0; 0 -/
  w0 : W32 := 0
  /-- 32; word 1; 0 -/
  w1 : W32 := 0
  deriving DecidableEq, Repr

/-- The newest copy of a received flow, as the hub delivers it (R273). -/
structure Flow where
  /-- 1; a copy was ever received; 0 -/
  got : Bool := false
  /-- 32; KFRESH; 0 -/
  kfresh : Nat := 0
  /-- model; nanoseconds after the datum at which the fresh copy of that cycle arrived (R33); 0 -/
  arrNs : Nat := 0
  /-- 8; RAGE; 0 -/
  rage : Nat := 0
  /-- 1; a valid copy came on channel A in that cycle; 0 -/
  chA : Bool := false
  /-- 1; a valid copy came on channel B in that cycle; 0 -/
  chB : Bool := false
  /-- 16; SEQ; 0 -/
  seq : Nat := 0
  /-- 32; nanoseconds of the copy's TSTAMP; 0 -/
  tsNs : Nat := 0
  /-- 32; seconds of the copy's TSTAMP; 0 -/
  tsSec : Nat := 0
  /-- WORDS × 32; data; 0 -/
  data : List W32 := []
  deriving DecidableEq, Repr

/-- An entry of the schedule store (R266). -/
structure GEntry where
  start : Nat
  slotno : Nat
  len : Nat
  sender : Nat
  mask : Nat
  flow : Nat
  kind : Nat
  chA : Bool
  chB : Bool
  deriving DecidableEq, Repr

/-- A mode header of the schedule store (R265). -/
structure GMode where
  cycle : Nat := 0
  guardBand : Nat := 0
  prec : Nat := 0
  wadd : Nat := 0
  corrlim : Nat := 0
  na : Nat := 0
  nb : Nat := 0
  mcrc : Nat := 0
  deriving DecidableEq, Repr

/-- The schedule store (R264). -/
structure GStore where
  /-- 8; MODES, one bit per mode present; 0 -/
  modes : Nat := 0
  /-- 32; CSNODES; 0 -/
  csnodes : Nat := 0
  /-- 8 headers (R265); 0 -/
  hdr : Table GMode := []
  /-- 2048 entries (R266); none -/
  entries : List GEntry := []
  deriving DecidableEq, Repr

/-- A grant of a spare slot (R289, R290). -/
structure Grant where
  slot : Nat
  chB : Bool
  node : Nat
  /-- option of 12; first listed flow, none when the XN did not keep the claim -/
  flow : Option Nat
  /-- option of 48; datum from which it is in the schedule, two after the SYNC frame that first carries it -/
  since : Option Nat := none
  /-- option of 48; datum at which it leaves the schedule after its release -/
  endAt : Option Nat := none
  /-- 16; consecutive cycles without a kept frame of the grantee in the slot -/
  silent : Nat := 0
  /-- 1; such a frame was kept in the present cycle -/
  heard : Bool := false
  deriving DecidableEq, Repr

/-- A mode request (R291–R294). -/
structure ModeReq where
  /-- 3; TARGET -/
  target : Nat
  /-- 8; REQNO -/
  reqno : Nat
  /-- 32; TMCRC -/
  tmcrc : Nat
  /-- option of 48; c_r, the cycle of the first SYNC with REQ -/
  cr : Option Nat := none
  /-- nodes; the active set -/
  active : List Nat := []
  /-- nodes that acknowledged -/
  acked : List Nat := []
  /-- option of 48; SWCYC -/
  swcyc : Option Nat := none
  /-- 1; cancelled, CANCEL is being sent -/
  cancel : Bool := false
  deriving DecidableEq, Repr

/-- The offsets of one sync node in the present cycle, in 1/16 ns (R278). -/
structure SyncOff where
  a : Option Int := none
  b : Option Int := none
  deriving DecidableEq, Repr

/-- The bus (chapter 10). -/
structure Bus where
  /-- 4 ports by 2 × channel + port (R256) -/
  ports : Table BusPort := []
  /-- 32; staging word of the Gazetteer (R271); 0 -/
  staging : W32 := 0
  /-- 4096 × 64; Gazetteer in force (R271); not valid -/
  gaz : Table GazE := []
  /-- entries committed for the next datum (R271); none -/
  gazNext : List (Nat × GazE) := []
  /-- 4096; newest received copies (R273); never received -/
  flows : Table Flow := []
  /-- schedule store (R264); empty -/
  store : GStore := {}
  /-- option; accepted image that takes effect at the next datum (R267); none -/
  storeNext : Option GStore := none
  /-- 4; VBA_GST.RESULT; 0 -/
  gres : Nat := 0
  /-- 11; VBA_GST.ENTRY; 0 -/
  gentry : Nat := 0
  /-- enum; VBA_STAT.STATE (R282); OFF -/
  st : BusSt := .off
  /-- 1; VBA_STAT.LEADER; 0 -/
  leader : Bool := false
  /-- 3; VBA_STAT.GMODE; 0 -/
  gmode : Nat := 0
  /-- 3; VBA_STAT.CSFAILS (R285); 0 -/
  csfails : Nat := 0
  /-- 1; VBA_STAT.CSOFF (R285); 0 -/
  csoff : Bool := false
  /-- 48; cycle in which the unit took the lead (R340); 0 -/
  leadAt : Nat := 0
  /-- 8; VBA_STAT.LEADERID; 0 -/
  leaderId : Nat := 0
  /-- 8; VBA_STAT.REASON; 0 -/
  reason : Nat := 0
  /-- model; Meridian clock count at the entry into LISTEN (R283); 0 -/
  listenAt : Nat := 0
  /-- option of 8; node whose COLDSTART or SYNC the unit follows (R284); none -/
  follow : Option Nat := none
  /-- 48; cycle of the contention round (R283, R285); 0 -/
  csStart : Nat := 0
  /-- 48; cycle in which the unit last integrated (R286); 0 -/
  intCycle : Nat := 0
  /-- 1; WRST_N was low since the last entry to LISTEN (VBA_STAT.REASON); 0 -/
  afterWrst : Bool := false
  /-- 48; cycle to which `done` belongs (R268); 0 -/
  doneCyc : Nat := 0
  /-- slots in which the XN has acted in that cycle: channel B, SLOTNO (R268); none -/
  done : List (Bool × Nat) := []
  /-- offsets of the present cycle by sync node (R278); none -/
  offs : Table SyncOff := []
  /-- 1; the unit sent its own sync frame in the present cycle (R278); 0 -/
  ownSync : Bool := false
  /-- signed; c in ns (R279); 0 -/
  corr : Int := 0
  /-- 4; n (R279); 0 -/
  nval : Nat := 0
  /-- 2; k (R279); 0 -/
  kval : Nat := 0
  /-- option of signed ns; the correction formed in this cycle, applied in the next (R280); none -/
  corrNew : Option Int := none
  /-- option of 48; cycle of the last correction (R279); none -/
  corrCyc : Option Nat := none
  /-- 2; consecutive clean cycles of the integration (R286); 0 -/
  clean : Nat := 0
  /-- 1; a leader SYNC was kept in the present cycle (R286, R287); 0 -/
  leaderSync : Bool := false
  /-- 1; a sync frame of another node was kept in the present cycle (R287); 0 -/
  anySync : Bool := false
  /-- 3; consecutive cycles without a sync frame of another node (R287); 0 -/
  noSync : Nat := 0
  /-- 4; consecutive cycles without a leader SYNC (R287); 0 -/
  noLeader : Nat := 0
  /-- option of 48; cycle in which a cold-start node of lower rank last sent SYNC (R287); none -/
  lowerAt : Option Nat := none
  /-- nodes of which a valid frame was kept in the present cycle (R291); empty -/
  kept : List Nat := []
  /-- nodes of which a valid frame was kept in the last cycle (R291); empty -/
  keptPrev : List Nat := []
  /-- grants in force, in the order of their grant (R290); none -/
  grants : List Grant := []
  /-- answers of refused claims: grant record word, and the cycle whose SYNC frames carry it (R289); none -/
  refusals : List (Nat × Option Nat) := []
  /-- first listed flow of the claims kept, by 2 × node + channel (R289, R290); none -/
  claims : Table (Option Nat) := []
  /-- 8; VBA_CLAIMST.LASTNODE; 0 -/
  lastNode : Nat := 0
  /-- 3; VBA_CLAIMST.LASTRES; 0 -/
  lastRes : Nat := 0
  /-- option; mode request, the leader's own or one that the unit holds (R291, R292); none -/
  req : Option ModeReq := none
  /-- 3; VBA_MODEST.RESULT; 0 -/
  modeRes : Nat := 0
  /-- 3; VBA_MODEST.REFUSE; 0 -/
  modeRef : Nat := 0
  /-- 8; VBA_MODEST.REQNO; 0 -/
  reqno : Nat := 0
  /-- 8; VBA_MODEST.MISSING; 0 -/
  missing : Nat := 0
  /-- 8; VBA_MODEST.FIRSTMISS; 0 -/
  firstMiss : Nat := 0
  /-- 32; VBA_SWCYC; 0 -/
  swcyc : Nat := 0
  deriving DecidableEq, Repr

end Sys2Proof.Machine
end

