-- ==== Sys2Proof/Machine/StCell.lean ====
section
/-! DEFINITION. State of the cell level: pins and cell mode (SYS), Meridian time, the Field Book and the shared SRAM.
Each field's docstring is its line of the state list: width; content and rule; value at reset. -/

namespace Sys2Proof.Machine

/-- The cell modes of SYS_CELL.MODE (R336). -/
inductive CellMode where
  | boot | integrate | run | degraded | safeHold | shutdown
  deriving DecidableEq, Repr

/-- The code of a cell mode in SYS_CELL.MODE (R336). -/
def CellMode.code : CellMode → Nat
  | .boot => 0 | .integrate => 1 | .run => 2 | .degraded => 3 | .safeHold => 4 | .shutdown => 5

/-- The sheet service states (R338). -/
inductive SheetSt where
  | inService | draining | retired | survey | readmit
  deriving DecidableEq, Repr

/-- The code of a sheet service state in SFY_SHEET (R381). -/
def SheetSt.code : SheetSt → Nat
  | .inService => 0 | .draining => 1 | .retired => 2 | .survey => 3 | .readmit => 4

/-- One sheet's service state (R338). -/
structure Sheet where
  /-- enum; service state (R338, R371); RETIRED -/
  st : SheetSt := .retired
  /-- 1; READMIT pending in DRAINING (R338); 0 -/
  pend : Bool := false
  /-- option; the readmission checks have ended: 0 passed, else the number of the failed check; applies at the next datum
  (R380, R335); none -/
  checked : Option Nat := none
  /-- 1; the survey has ended; applies at the next datum (R379, R335); 0 -/
  surveyed : Bool := false
  deriving DecidableEq, Repr

/-- Package identity, reset inputs, pins and the cell mode (chapters 01, 13, 16). -/
structure Sys where
  /-- 8; SYS_ID.MEMBER: 1 XN880, 2 XN860, 3 XN840 (R1); DESIGN CHOICE 1 -/
  member : Nat := 1
  /-- 4; SYS_ID.STEPPING (01 SYS_ID); DESIGN CHOICE 1 -/
  stepping : Nat := 1
  /-- 32; SFY_UID0, unit identifier (R381); DESIGN CHOICE 0 -/
  uid0 : Nat := 0
  /-- 32; SFY_UID1, unit identifier (R381); DESIGN CHOICE 0 -/
  uid1 : Nat := 0
  /-- 1; COMPAT strap as sampled, 1 high (R5); DESIGN CHOICE 1 -/
  strapCompat : Bool := true
  /-- 1; PRI_SEL as sampled (R345); DESIGN CHOICE 1 -/
  priSel : Bool := true
  /-- 1; PORST_N low or the internal reset asserted (R344, R371); 1 -/
  porst : Bool := true
  /-- 1; WRST_N taken low (R372); 0 -/
  wrst : Bool := false
  /-- 1; REFCLK or supply holds the internal reset (R344, R390); 0 -/
  internal : Bool := false
  /-- model; consecutive samples of 50 µs with more than 10.0 V after the OR elements since the internal reset was asserted, 200 being the
  10 ms that end its hold (R344); 200 -/
  orOk : Nat := 200
  /-- 1; compat mode in force through SYS_COMPAT (R6); 0 -/
  legacy : Bool := false
  /-- 32; GPIO directions in force (R24); 0 -/
  gpioDir : W32 := 0
  /-- 32; GPIO output levels driven (R24); 0 -/
  gpioOut : W32 := 0
  /-- 32; SYS_GPIOIN, levels sampled at the last datum (R24); 0 -/
  gpioIn : W32 := 0
  /-- enum; cell mode (R336); BOOT -/
  mode : CellMode := .boot
  /-- 1; SYS_CELL.PENDING_RUN (R336); 0 -/
  pendRun : Bool := false
  /-- 1; SYS_CELL.SHUTDONE (R336); 0 -/
  shutDone : Bool := false
  /-- 1; SYS_CELL.DG_SHEET (R336); 0 -/
  dgSheet : Bool := false
  /-- 1; SYS_CELL.DG_CHAN (R336); 0 -/
  dgChan : Bool := false
  /-- 1; SYS_CELL.DG_FEED (R336); 0 -/
  dgFeed : Bool := false
  /-- 1; SYS_CELL.DG_PARTNER (R336); 0 -/
  dgPartner : Bool := false
  /-- 1; SHUT written, applies at the next datum (SYS_CELL); 0 -/
  shutReq : Bool := false
  /-- 1; RESUME written, applies at the next datum (SYS_CELL); 0 -/
  resumeReq : Bool := false
  /-- option; TRV_LEGACY written, applies at the next datum (SYS_COMPAT); none -/
  compatNext : Option Bool := none
  /-- 1; VBA_CTL.EN set at the next datum after a completed shut-down (R336); 0 -/
  enNext : Bool := false
  deriving DecidableEq, Repr

/-- Meridian (chapter 11). Time below a second and the phase are held in units of 2^-38 ns: the 16-bit fraction and the
22-bit hidden residue of R296. -/
structure Mer where
  /-- 48; seconds (R296); 0 -/
  sec : Nat := 0
  /-- 30+38; nanoseconds, fraction and residue in 2^-38 ns (R296); 0 -/
  sub : Nat := 0
  /-- 22+38; phase counter since the last datum in 2^-38 ns (R297); 0 -/
  phase : Nat := 0
  /-- 64; Meridian clocks since PORST_N, the base of CCYC (R42); 0 -/
  clocks : Nat := 0
  /-- 48; cycle counter at the last datum (R297); 0 -/
  cycle : Nat := 0
  /-- 22; cycle length in force, ns (R297); 250000 -/
  cycleLen : Nat := 250000
  /-- 32 signed; applied rate r in 2^-40 (R296); 0 -/
  rate : Int := 0
  /-- signed; base rate ρ of BUS, in units of 2^-40 × 10^-9, so that ppb and the units of r are whole (R298, R280); 0 -/
  rho : Int := 0
  /-- 1; MER_STAT.SRC: BUS (R298); 0 -/
  bus : Bool := false
  /-- option of ns; step pending (R299); none -/
  stepPend : Option Int := none
  /-- 7; plan period in force (R35); 4 -/
  planN : Nat := 4
  /-- 32; BIND0 in force (R309); 0 -/
  bind0 : W32 := 0
  /-- 32; BIND1 in force (R309); 0 -/
  bind1 : W32 := 0
  /-- 32; BIND2 in force (R309); 0 -/
  bind2 : W32 := 0
  /-- 32; BINDRATE in force (R309); 0 -/
  bindRate : W32 := 0
  /-- option of four words; BIND set pending (R309); none -/
  bindPend : Option (W32 × W32 × W32 × W32) := none
  /-- 48; TB seconds (R309); 0 -/
  tbSec : Nat := 0
  /-- 68; TB part below a second in 2^-38 ns (R309); 0 -/
  tbSub : Nat := 0
  /-- model; the binding in force before the present one: BIND0, BIND1, BIND2, BINDRATE, TB seconds and TB sub, for time-stamp
  points before TB (R303); zeros -/
  bindOld : W32 × W32 × W32 × W32 × Nat × Nat := (0, 0, 0, 0, 0, 0)
  /-- option; re-placement: phase (2^-38 ns) of the next datum and the counter at it (R300); none -/
  place : Option (Nat × Nat) := none
  deriving DecidableEq, Repr

/-- A Field Book entry (R362). -/
structure FbEntry where
  /-- 32; SEQ -/
  seq : Nat
  /-- 32; nanoseconds -/
  ns : Nat
  /-- 48; seconds -/
  sec : Nat
  /-- 16; CODE (R363) -/
  code : Nat
  /-- 8; die -/
  die : Nat
  /-- 8; block -/
  block : Nat
  /-- 8; SEV -/
  sev : Nat
  /-- 32; OBJ -/
  obj : Nat
  /-- 32; DATA0 -/
  d0 : Nat
  /-- 32; DATA1 -/
  d1 : Nat
  deriving DecidableEq, Repr

/-- The Field Book (R361). -/
structure FieldBook where
  /-- 8192 × 256; entries, oldest first (R361); empty -/
  entries : List FbEntry := []
  /-- 32; next sequence number (R361); DESIGN CHOICE 0 -/
  seq : Nat := 0
  /-- 16; SFY_FBSTAT.LOST (R361); 0 -/
  lost : Nat := 0
  /-- 64 × 256; entries that wait while Surveyor's firmware restarts (R361); empty -/
  queue : List FbEntry := []
  /-- 16; entries dropped during the present restart (R361, R363 SFY_RESTART); 0 -/
  dropped : Nat := 0
  deriving DecidableEq, Repr

/-- The shared SRAM of every die as (address, byte) pairs (R20, R311); an unlisted byte reads 0 (R317). -/
abbrev Memory := Table Byte

/-- What an unlisted byte of SRAM reads as: 0, written at initialisation (R317). -/
def memDefault : Nat → Byte := fun _ => 0

/-- The canonical form of a memory. -/
def Memory.wf (m : Memory) : Bool := Table.wf memDefault m

/-- A word of a hub bank before a write: the Meridian clock of the write, the word, its bytes and its symbols in error. -/
structure OldWord where
  at_ : Nat
  word : Nat
  bytes : List Byte
  syms : Nat
  deriving DecidableEq, Repr

/-- One die's banks (chapter 12). -/
structure MemDie where
  /-- 1; MEM_ID.INITDONE (R317); 0 -/
  initDone : Bool := false
  /-- 40; word address of the last uncorrectable error (MEM_ECCADDRL, MEM_ECCADDRH); 0 -/
  eccAddr : Nat := 0
  /-- 2; MEM_ECCADDRH.SRC; 0 -/
  eccSrc : Nat := 0
  /-- 32; MEM_RETST.RETAINED (R318); 0 -/
  retained : W32 := 0
  /-- 15 per bank; next word that the scrubber visits (R316); DESIGN CHOICE 0 -/
  scrub : Table Nat := []
  /-- model; the words that port 0 wrote at the Meridian clock `p0At` (R313); empty -/
  p0 : List Nat := []
  /-- model; that clock; 0 -/
  p0At : Nat := 0
  /-- model; the words of the hub's banks as they stood before the writes of the last 1,000 Meridian clocks, newest first: the bus reads
  a transmit buffer as of 1 µs before its slot (R274); empty -/
  old : List OldWord := []
  deriving DecidableEq, Repr

end Sys2Proof.Machine
end

