-- ==== Sys2Proof/Machine/StCrt.lean ====
section
/-! DEFINITION. State of the Cartouche weighing partition (chapter 09). Masses are held in 2^-32 d. -/

namespace Sys2Proof.Machine

/-- The states of a weighing channel (R238). -/
inductive CrtSt where
  | off | static | transfer | window
  deriving DecidableEq, Repr

/-- The code of a channel state (R238). -/
def CrtSt.code : CrtSt → Nat
  | .off => 0 | .static => 1 | .transfer => 2 | .window => 3

/-- A channel value: the sum of gain × (reading − zero) in 2^-31 counts, its time-stamp in ns, and whether a conversion in it
was marked OVR or SENSE (R235–R237). -/
structure CrtSample where
  v : Int
  at_ : Nat
  bad : Bool
  deriving DecidableEq, Repr

/-- One load-cell input (R235). -/
structure CrtIn where
  /-- 24 signed; reading that waits for the other inputs of its channel, with its time-stamp and marks; none -/
  wait : Option CrtSample := none
  /-- 4; consecutive conversions with the sense voltage low, up to 10 (R235); 0 -/
  low : Nat := 0
  deriving DecidableEq, Repr

/-- A transfer window (R244, R245). -/
structure CrtWin where
  /-- 48; S -/
  s : Nat
  /-- 13; L -/
  l : Nat
  /-- 16; tag -/
  tag : Nat
  /-- 1; ZERO -/
  zero : Bool
  /-- 1; SAFETY has failed -/
  safety : Bool := false
  /-- 1; PLAN has failed -/
  plan : Bool := false
  /-- 1; the seal was UNSEALED in the window -/
  unsealed : Bool := false
  /-- planned specific forces at the datums of the window, in 2^-20 µm/s² -/
  forces : List Int := []
  /-- fresh accelerometer counts at the datums of the window -/
  accs : List Int := []
  /-- option of Meridian ns of datum S -/
  t0 : Option Nat := none
  /-- option of Meridian ns of datum S + L -/
  t1 : Option Nat := none
  /-- 1; a conversion of the window was marked OVR or SENSE -/
  bad : Bool := false
  /-- samples since datum S, newest first -/
  got : List CrtSample := []
  deriving DecidableEq, Repr

/-- A static command that waits for its condition (R240). -/
structure CrtCmd where
  /-- 3; CODE: 1 MODE STATIC, 2 MODE TRANSFER, 3 ZERO, 4 TARE, 5 TAREVAL, 6 CLRTARE -/
  code : Nat
  /-- 3; channel -/
  ch : Nat
  /-- 24; value in d -/
  val : Nat
  /-- model; time since PORST_N (ns) of the write -/
  since : Nat
  deriving DecidableEq, Repr

/-- A weighing channel (R237, R238). -/
structure CrtCh where
  /-- enum; state (R238); OFF -/
  st : CrtSt := .off
  /-- 1; a check failed: FAULT BMFAIL (R234, R250); 0 -/
  fail : Bool := false
  /-- counter; channel values since the last EXC_CHOP edge (R236); 0 -/
  sinceEdge : Nat := 0
  /-- values kept in the last half-period with EXC_CHOP low, oldest first (R236); none -/
  half : List CrtSample := []
  /-- values of the moving average, newest first (R239); none -/
  samples : List CrtSample := []
  /-- filtered values in 2^-32 d of the last STABT, newest first (R239); none -/
  filt : List CrtSample := []
  /-- option; Meridian ns of the first filtered value since the channel entered STATIC; none -/
  since : Option Nat := none
  /-- option of Meridian ns; time-stamp of the last conversion marked OVR or SENSE (R239); none -/
  badAt : Option Nat := none
  /-- option of Meridian ns; the last conversion marked OVR (CRT_CHn_STAT.FAULT); none -/
  ovrAt : Option Nat := none
  /-- signed; zero in 2^-32 d, from the calibration zero (R240); 0 -/
  zero : Int := 0
  /-- 1; the zero has been set, by the initial zero or a ZERO command (R240); 0 -/
  zeroSet : Bool := false
  /-- 1; the initial zero has been tried (R240); 0 -/
  zeroTried : Bool := false
  /-- signed; T in d (R239, R240); 0 -/
  tare : Int := 0
  /-- 1; NET (R240); 0 -/
  net : Bool := false
  /-- signed; MG in force in 2^-32 d (R246); 0 -/
  mg : Int := 0
  /-- option; window (R244); none -/
  win : Option CrtWin := none
  /-- option of 48; S of the previous window (R244 RATE); none -/
  lastS : Option Nat := none
  /-- 16; SEQ of the mailbox (R248); 0 -/
  seq : Nat := 0
  /-- 8 × 32; words 0–7 of the mailbox (R248); 0 -/
  mail : List W32 := []
  /-- 8 × 32; words 0–7 of the last transfer result, SEQ and STATE clear (R248); 0 -/
  last : List W32 := []
  deriving DecidableEq, Repr

/-- An audit-trail entry (R251). -/
structure TrailE where
  /-- 32; event counter -/
  cnt : Nat
  /-- 32; nanoseconds -/
  ns : Nat
  /-- 48; seconds -/
  sec : Nat
  /-- 16; KIND -/
  kind : Nat
  /-- 16; object -/
  obj : Nat
  /-- 16; SEQNO low -/
  seq : Nat
  /-- 32; CRC-32C of the old content -/
  old : Nat
  /-- 32; CRC-32C of the new content -/
  new : Nat
  deriving DecidableEq, Repr

/-- What keeps its contents through every reset: the sealed program memory and the legal store (R231, R234). -/
structure CrtStore where
  /-- 512 KiB; sealed program (R231); DESIGN CHOICE empty -/
  program : List Byte := []
  /-- 32; CRT_SWID; DESIGN CHOICE 0 -/
  swid : Nat := 0
  /-- 32; CRT_SWCRC; DESIGN CHOICE 0, the CRC-32C of the empty string -/
  swcrc : Nat := 0
  /-- 16 × 512 bytes; Benchmark records, none where no record was written (R249); none -/
  recs : Table (List Byte) := []
  /-- 1024 × 256; audit trail, oldest first (R251); DESIGN CHOICE empty -/
  trail : List TrailE := []
  /-- 32; legal event counter (R251); DESIGN CHOICE 0 -/
  evcnt : Nat := 0
  /-- 1; the counter has reached 2^32 − 1 (R252); DESIGN CHOICE 0 -/
  spent : Bool := false
  /-- 32; last accepted SEQNO (R253); DESIGN CHOICE 0 -/
  seqno : Nat := 0
  /-- 1; a session is open: UNSEALED, or open at the reset (R254, R234); 0 -/
  unsealed : Bool := false
  deriving DecidableEq, Repr

/-- The Cartouche (chapter 09). -/
structure Crt where
  /-- sealed program memory and legal store (R231) -/
  store : CrtStore := {}
  /-- 1; the Cartouche has been reset and has not restarted yet (R234); 1 -/
  down : Bool := true
  /-- 8; inputs LC0–LC7 (R235) -/
  ins : Table CrtIn := []
  /-- 8; weighing channels (R237) -/
  chs : Table CrtCh := []
  /-- 1; the pin EXC_CHOP is high: the excitation is reversed (R236); 0 -/
  exc : Bool := false
  /-- set-point in pu of each axis (key 32 × die + axis) issued at the last three datums, newest first, and whether the axis was in a
  moving state or HOLD on a sheet in service (R243, R245); none -/
  past : List (Table (Int × Bool)) := []
  /-- option of 512 KiB; program image held in the request buffer (R254); none -/
  held : Option (List Byte) := none
  /-- model; time since PORST_N (ns) at which the session timer was last started (R254); 0 -/
  timer : Nat := 0
  /-- 8; CRT_SEAL.KEYREFLOST (R252); 0 -/
  keyLost : Nat := 0
  /-- 4; CRT_LST.RESULT; 0 -/
  lst : Nat := 0
  /-- 4; CRT_WST.RESULT; 0 -/
  wst : Nat := 0
  /-- 4; CRT_CMDST.RESULT; 0 -/
  cmdSt : Nat := 0
  /-- option; command that waits (R238, R240); none -/
  cmd : Option CrtCmd := none
  deriving DecidableEq, Repr

end Sys2Proof.Machine
end

