-- ==== Sys2Proof/Machine/StMgmt.lean ====
section
/-! DEFINITION. State of the DMA channels (chapter 12), the host ports (chapter 11), the redundancy and power blocks
(chapter 14) and Surveyor (chapter 15). -/

namespace Sys2Proof.Machine

/-- The states of a DMA channel (R327). -/
inductive DmaSt where
  | idle | running | wait | paced | disabling | halted
  deriving DecidableEq, Repr

/-- The code of a channel state in DMA_CHn_STAT (R327). -/
def DmaSt.code : DmaSt → Nat
  | .idle => 0 | .running => 1 | .wait => 2 | .paced => 3 | .disabling => 4 | .halted => 5

/-- Bytes still to move: from `src` (for FILL the index into the pattern) to `dst`. -/
structure Seg where
  src : Nat
  dst : Nat
  len : Nat
  deriving DecidableEq, Repr

/-- The descriptor that a channel has in hand (R319–R325). -/
structure DmaCur where
  /-- 3; KIND (R319) -/
  kind : Nat
  /-- 64; SRC field (R319) -/
  src : Nat
  /-- 64; DST field (R319) -/
  dst : Nat
  /-- 24; LEN field (R319) -/
  len : Nat
  /-- 1; EVT (R319) -/
  evt : Bool
  /-- 32; word 28 as read -/
  w28 : Nat
  /-- segments still to move, in order (R320, R324) -/
  todo : List Seg
  /-- 1; descending order (R323) -/
  down : Bool
  /-- 24; bytes of the completed bursts (R319) -/
  moved : Nat
  /-- 8; DSTAT with which it waits for its hand-back, 0 while it still moves (R319) -/
  dstat : Nat
  /-- bytes gathered for a frame of a TYPE 3 stream (R331) -/
  acc : List Byte := []
  /-- ring index of the descriptor -/
  at_ : Nat := 0
  /-- 16; SEQ of the flow buffer at the first burst of a TYPE 1 copy (R331) -/
  seq : Nat := 0
  deriving DecidableEq, Repr

/-- A DMA channel (R327). -/
structure DmaCh where
  /-- enum; DMA_CHn_STAT.STATE (R327); IDLE -/
  st : DmaSt := .idle
  /-- 1; PENDING_EN (R327); 0 -/
  pendEn : Bool := false
  /-- 1; ERR (R326); 0 -/
  err : Bool := false
  /-- 1; CFGERR (R328); 0 -/
  cfgErr : Bool := false
  /-- 8; LASTDSTAT; 0 -/
  lastDstat : Nat := 0
  /-- 12; present index (R321); 0 -/
  idx : Nat := 0
  /-- 16; L at the last burst boundary (R330); 0 -/
  level : Nat := 0
  /-- 32; RING taken at START (R327); 0 -/
  ring : Nat := 0
  /-- 4; LOG2 taken at START; 0 -/
  log2 : Nat := 0
  /-- 32; CFG taken at START; 0 -/
  cfg : Nat := 0
  /-- 32; PACE taken at START; 0 -/
  pace : Nat := 0
  /-- 32; LVL taken at START; 0 -/
  lvl : Nat := 0
  /-- 32; LVLADDR taken at START; 0 -/
  lvlAddr : Nat := 0
  /-- option; the descriptor in hand (R321); none -/
  cur : Option DmaCur := none
  /-- 8; fresh receptions of the TYPE 1 flow not yet copied (R330); 0 -/
  fresh : Nat := 0
  /-- 1; the stream runs since L reached HIGH (R330); 0 -/
  flowing : Bool := false
  /-- queue; accepted commands: code and phase of entry (R32, R328); empty -/
  cmds : List (Nat × Nat) := []
  /-- 8; DMA_CHn_CMDST.RESULT (R328); 0 -/
  cmdSt : Nat := 0
  deriving DecidableEq, Repr

/-- A time-stamp FIFO entry of a host port (R305). -/
structure TsEntry where
  seqId : Nat
  msgType : Nat
  domain : Nat
  ns : Nat
  sec : Nat
  deriving DecidableEq, Repr

/-- A host port (chapter 11). -/
structure HostSt where
  /-- 1; the port runs (R310); 0 -/
  on : Bool := false
  /-- 1; link up at 1000 Mbit/s full duplex (R310); 0 -/
  link : Bool := false
  /-- 16 KiB; receive FIFO, kept frames oldest first (R310); empty -/
  rx : List (List Byte) := []
  /-- 16 KiB; transmit FIFO, oldest first (R310); empty -/
  tx : List (List Byte) := []
  /-- option; frame held for pass-through out of this port, with its ingress time-stamp in 2^-16 ns (R307); none -/
  held : Option (List Byte × Nat) := none
  /-- option; heartbeat waiting for the wire (R310, R349); none -/
  beat : Option (List Byte) := none
  /-- 16 entries; receive time-stamp FIFO (R305); empty -/
  rxTs : List TsEntry := []
  /-- 16 entries; transmit time-stamp FIFO (R305); empty -/
  txTs : List TsEntry := []
  /-- 32; HNx_TSCFG in force (HNx_TSCFG); 0 -/
  tscfg : W32 := 0
  /-- wire; the last frame sent, with its FCS (R310); empty -/
  sent : List Byte := []
  deriving DecidableEq, Repr

/-- The redundancy states (R339). -/
inductive RdnSt where
  | active | standby | takeover | isolated
  deriving DecidableEq, Repr

/-- The code of a redundancy state in RDN_STAT. -/
def RdnSt.code : RdnSt → Nat
  | .active => 0 | .standby => 1 | .takeover => 2 | .isolated => 3

/-- The redundancy interlock (chapter 14). -/
structure Rdn where
  /-- 1; PAIRED, from the boot configuration (R349); 0 -/
  paired : Bool := false
  /-- 1; PORT: HNB, from the boot configuration (R349); 0 -/
  portB : Bool := false
  /-- enum; redundancy state (R339); ACTIVE -/
  st : RdnSt := .active
  /-- 1; ACT_OUT level (R346); 0 -/
  actOut : Bool := false
  /-- 1; filtered ACT_IN level (R347); 0 -/
  actIn : Bool := false
  /-- model; time since PORST_N (ns) at which the present low level of ACT_IN began (R347); 0 -/
  lowSince : Nat := 0
  /-- 1; the hold time has expired between datums; TAKEOVER applies at the next (R347); 0 -/
  holdDone : Bool := false
  /-- 1; PRICONF (R348); 0 -/
  priConf : Bool := false
  /-- 1; PLOST (R350); 0 -/
  plost : Bool := false
  /-- 8; LASTCAUSE (R354); 0 -/
  lastCause : Nat := 0
  /-- 2; PSTATE (RDN_STAT); 0 -/
  pstate : Nat := 0
  /-- 32; RDN_PHEALTH (R353); 0 -/
  phealth : Nat := 0
  /-- 16; HBSEQ of the next heartbeat (R349); DESIGN CHOICE 0 -/
  hbseq : Nat := 0
  /-- option of 48; cycle of the last heartbeat sent: one is sent in a cycle (R349); none -/
  beatCyc : Option Nat := none
  /-- 1; a heartbeat was kept in the present cycle (R350); 0 -/
  kept : Bool := false
  /-- 1; a heartbeat was ever kept (R354); 0 -/
  everKept : Bool := false
  /-- 8; consecutive cycles without a kept heartbeat (R350); 0 -/
  miss : Nat := 0
  /-- 32; IMGCRC of the last kept heartbeat (R353); 0 -/
  pImg : Nat := 0
  /-- 32; MCRC of the last kept heartbeat (R353); 0 -/
  pMcrc : Nat := 0
  /-- 32; RDN_CFG fields AUTOISO, PARTNER, HBMISS, SHLIM in force (RDN_CFG); 0x03080000 -/
  cfg : W32 := 0x03080000#32
  /-- 2; RDN_CMD pending for the next datum (RDN_CMD); 0 -/
  cmdPend : Nat := 0
  /-- 2; RDN_CMD.RESULT; 0 -/
  result : Nat := 0
  /-- 1; history behind SAFETY_OK: a safety-channel failure since power-on or REJOIN (R353); 0 -/
  safetyBad : Bool := false
  /-- 8; consecutive shadow mismatches (R352); 0 -/
  mismatch : Nat := 0
  /-- 32; RDN_SHDIG (R351); 0 -/
  digest : Nat := 0
  /-- 48; plan datum of the last digest (R351); 0 -/
  planCyc : Nat := 0
  /-- 1; a digest was formed at the last plan datum (R351); 0 -/
  digestOk : Bool := false
  /-- 1; a comparison was made in the present plan period (R352); 0 -/
  compared : Bool := false
  /-- 4 × 16; frames kept on channel A in the last plan periods, newest first (R353); empty -/
  rxA : List Nat := []
  /-- 4 × 16; the same for channel B (R353); empty -/
  rxB : List Nat := []
  /-- 32; RDN_LATTX (R355); 0 -/
  latTx : Nat := 0
  /-- 8; the monitored class as last formed, RDN_HEALTH bits 7–0 (R353); 0 -/
  health : Nat := 0
  /-- 1; LAT_OR (R355); 0 -/
  latOrF : Bool := false
  /-- 1; LAT_TX (R355); 0 -/
  latTxF : Bool := false
  deriving DecidableEq, Repr

/-- One supply feed (R342, R343). Durations count 50 µs samples. -/
structure Feed where
  /-- 16; MV (PWR_FA, PWR_FB); 0 -/
  mv : Nat := 0
  /-- 16; MA (PWR_FA, PWR_FB); 0 -/
  ma : Nat := 0
  /-- 2; class 0 OK, 1 UV, 2 OV, 3 OC (R343); 0 -/
  cls : Nat := 0
  /-- 1; carries (R342); 0 -/
  carry : Bool := false
  /-- 1; blocked (R356); 0 -/
  blocked : Bool := false
  /-- model; time since PORST_N (ns) at which the block is released (R356); 0 -/
  blkUntil : Nat := 0
  /-- counter; samples below 10.8 V (R343); 0 -/
  nUv : Nat := 0
  /-- counter; samples above 13.2 V (R343); 0 -/
  nOv : Nat := 0
  /-- counter; samples above 5.0 A (R343); 0 -/
  nOc : Nat := 0
  /-- counter; samples within 10.9–13.1 V (R343); 0 -/
  nOk : Nat := 0
  /-- 32; PWR_LATA or PWR_LATB (R355); 0 -/
  lat : Nat := 0
  deriving DecidableEq, Repr

/-- A boot flash (R367). -/
structure Flash where
  /-- 16 MiB; contents, erased bytes read 0xFF (R367); DESIGN CHOICE erased -/
  bytes : Table Byte := []
  deriving DecidableEq, Repr

/-- What an erased byte of flash reads as (R367). -/
def flashDefault : Nat → Byte := fun _ => 0xFF#8

/-- One temperature sensor (R359, R360). -/
structure TSensor where
  /-- 16 signed; T in 1/16 °C (SFY_TEMPn); 0 -/
  t : Int := 0
  /-- 1; WARN raised and not yet 5 °C below its limit (R360); 0 -/
  warned : Bool := false
  /-- 1; CRIT raised and not yet 5 °C below its limit (R360); 0 -/
  crit : Bool := false
  deriving DecidableEq, Repr

/-- Whether Surveyor's firmware restarts (R376). -/
inductive SfyBusy where
  | none
  /-- a restart from a flash, switch or rollback (R376) -/
  | restart (toB rollback : Bool)
  deriving DecidableEq, Repr

/-- Surveyor (chapter 15). -/
structure Sfy where
  /-- 16 MiB; flash A (R367); DESIGN CHOICE erased -/
  flashA : Flash := {}
  /-- 16 MiB; flash B (R367); DESIGN CHOICE erased -/
  flashB : Flash := {}
  /-- 1; the image in use is B (SFY_BOOT.IMAGE); DESIGN CHOICE 0 -/
  useB : Bool := false
  /-- 1; an image runs; clear while Surveyor stays in its ROM (R370); 0 -/
  booted : Bool := false
  /-- 1; SFY_BOOT.DONE (R371); 0 -/
  done : Bool := false
  /-- 2; SFY_BOOT.STATEA; DESIGN CHOICE 3 -/
  stateA : Nat := 3
  /-- 2; SFY_BOOT.STATEB; DESIGN CHOICE 3 -/
  stateB : Nat := 3
  /-- 2; SFY_BOOT.TRIALS; DESIGN CHOICE 0 -/
  trials : Nat := 0
  /-- 32; SFY_SEQA; DESIGN CHOICE 0 -/
  seqA : Nat := 0
  /-- 32; SFY_SEQB; DESIGN CHOICE 0 -/
  seqB : Nat := 0
  /-- 32; SFY_MINSEQ, fuses (R376); DESIGN CHOICE 0 -/
  minSeq : Nat := 0
  /-- 8; times MINSEQ was raised, fuses (R376); DESIGN CHOICE 0 -/
  raises : Nat := 0
  /-- 4 × 4 × 512; enrolled public keys of roles BOOT, MGMT, SAFETY, LEGAL, lowest generation first (R364); blank -/
  keys : Table (List (List Byte)) := []
  /-- 4 × 32; last SEQNO accepted for each signing role (R366); DESIGN CHOICE none -/
  lastSeq : Table Nat := []
  /-- 4; SFY_CMDST.RESULT (R381); 0 -/
  result : Nat := 0
  /-- option; the last answer to a signed record, on the console or the management port, and its SFY_CMDST value (R366); none -/
  answer : Option (Bool × Nat) := none
  /-- enum; restart that runs, SFY_CMDST.BUSY (R376, R381); none -/
  busy : SfyBusy := .none
  /-- option; sheet and test mask of the survey that runs, SFY_CMDST.BUSY (R379, R381); none -/
  surv : Option (Nat × Nat) := none
  /-- queue; accepted sheet commands that apply at the next datum: code and die (R335, R338); empty -/
  sheetReqs : List (Nat × Nat) := []
  /-- 6; sheets: service states (R338); RETIRED -/
  sheets : Table Sheet := []
  /-- 4; SFY_SURV.FAIL (R379); 0 -/
  survFail : Nat := 0
  /-- 4; SFY_SURV.DIE (R379); 0 -/
  survDie : Nat := 0
  /-- 1; SFY_RST.STUCK (R374); 0 -/
  stuck : Bool := false
  /-- 1; SFY_RST.MASKED (R374); 0 -/
  masked : Bool := false
  /-- 4; SFY_RST.LASTRST; 1 -/
  lastRst : Nat := 1
  /-- 1; the level of WRST_N, 1 low (R374); 0 -/
  wrstPin : Bool := false
  /-- model; time since PORST_N (ns) at which the present low period began, for HELD (SFY_RST); 0 -/
  lowAt : Nat := 0
  /-- counter; ms of the last finished low period (SFY_RST.HELD); 0 -/
  heldMs : Nat := 0
  /-- 14; temperature sensors (R359); 0 -/
  temps : Table TSensor := []
  /-- 24; VMON MV readings (R359); 0 -/
  vmon : Table Nat := []
  /-- model; time since PORST_N (ns) by which CONFIRM must come after a switch (R376); none -/
  confirmBy : Option Nat := none
  /-- 128; the 16 bytes of the CONFIG section of the image in use (R369); empty -/
  config : List Byte := []
  deriving DecidableEq, Repr

end Sys2Proof.Machine
end

