-- ==== Sys2Proof/Machine/StSle.lean ====
section
/-! DEFINITION. State of the Servo Loop Engine of a sheet (chapter 06). -/

namespace Sys2Proof.Machine

/-- The states of an SLE axis (R148). -/
inductive SleSt where
  | off | run | handover | stale | fault | disabling
  deriving DecidableEq, Repr

/-- The code of an SLE state in SLE_AXn_STAT.STATE (R148). -/
def SleSt.code : SleSt → Nat
  | .off => 0 | .run => 1 | .handover => 2 | .stale => 3 | .fault => 4 | .disabling => 5

/-- A loaded loop program (R153). -/
structure SleProg where
  /-- 14; BASE -/
  base : Nat
  /-- LEN × 32; instructions -/
  words : List W32
  /-- 4; integrators that its INTEG instructions name -/
  integ : Nat
  deriving DecidableEq, Repr

/-- A gain table (R156). -/
structure GainTab where
  /-- 32; X0; 0 -/
  x0 : Int := 0
  /-- 5; E; 0 -/
  e : Nat := 0
  /-- 64 × 32 signed; points; 0 -/
  ys : Table Int := []
  deriving DecidableEq, Repr

/-- An accepted command that waits for its datum (R32, R71). -/
structure SleCmd where
  /-- axis of the selector -/
  unit : Nat
  code : Nat
  val : W64
  phase : Nat
  deriving DecidableEq, Repr

/-- The Brorok-L state of an axis (R79). -/
structure LoopSt where
  /-- 32 × 64; g0–g31 (R79); 0 -/
  g : Table W64 := []
  /-- 4 × 32 signed; I0–I3 (R79); 0 -/
  i : Table Int := []
  /-- 64 signed; RMP (R79); DESIGN CHOICE 0 -/
  rmp : Int := 0
  /-- 64 signed; PRED (R79); DESIGN CHOICE 0 -/
  pred : Int := 0
  /-- 1; PVALID (R79); 0 -/
  pvalid : Bool := false
  /-- 8; PCOUNT (R79); 0 -/
  pcount : Nat := 0
  /-- 1; saturation flag, SLE_AXn_FLAG.SAT (R85); 0 -/
  sat : Bool := false
  /-- 4; ICLAMP (R82); 0 -/
  iclamp : Nat := 0
  deriving DecidableEq, Repr

/-- What SLE_AXn_STAT shows as of the most recent sample (R148). -/
structure SleShown where
  /-- 3; STATE; OFF -/
  st : SleSt := .off
  /-- 2; OUTGOING; 0 -/
  outgoing : Nat := 0
  /-- 7; HOJ; 0 -/
  hoj : Nat := 0
  deriving DecidableEq, Repr

/-- An SLE axis. -/
structure SleAx where
  /-- enum; state (R148); OFF -/
  st : SleSt := .off
  /-- STAT.STATE, OUTGOING and HOJ as of the most recent sample (R148); 0 -/
  shown : SleShown := {}
  /-- 1; DISABLING was entered from FAULT (R148); 0 -/
  fromFault : Bool := false
  /-- 1; the entry actions of RUN are due in the next sample (R148, R157); 0 -/
  entry : Bool := false
  /-- 1; a fault was declared that Traverse takes at the next datum (R148); 0 -/
  declared : Bool := false
  /-- 2; loop mode in force (R149); 0 -/
  lmode : Nat := 0
  /-- 2; OUTGOING (R158); 0 -/
  outgoing : Nat := 0
  /-- option of 2; loop mode of an LMODE whose hand-over sample comes next (R158); none -/
  hoReq : Option Nat := none
  /-- 1; active bank (R149); A -/
  bank : Bool := false
  /-- option; bank swap requested and not yet applied (R150); none -/
  swap : Option Bool := none
  /-- program state (R79) -/
  loop : LoopSt := {}
  /-- 7; HOJ (R159); 0 -/
  hoj : Nat := 0
  /-- 8; STAT.AGE (R161); 0 -/
  age : Nat := 0
  /-- 4; SWCLI (R151); 0 -/
  swcli : Nat := 0
  /-- 8; FCAUSE; 0 -/
  fcause : Nat := 0
  /-- 8; OFFCNT (R148); 0 -/
  offcnt : Nat := 0
  /-- 64 × 37; coefficient slots by 32 × bank + slot: value [31:0], shift [36:32] (R149); DESIGN CHOICE 0 -/
  coef : Table Nat := []
  /-- 8 × 14; loop-mode entries by 4 × bank + mode, in the LMCFG format (R149); not valid -/
  lm : Table Nat := []
  /-- 8 × 22; bindings of inputs in the INBIND format (R163); DESIGN CHOICE unbound 0 -/
  inb : Table W64 := []
  /-- 4 × 64; bindings of outputs in the OUTBIND format (R163); DESIGN CHOICE unbound 0 -/
  outb : Table W64 := []
  /-- 64; AXCFG (R163); MEAS 0, STALERUN 0, AGE_MAX 2, PLAUS_N 0, FACT 1, OFFDLY 4 -/
  axcfg : W64 := 0x04010020#64
  /-- 64; HOCFG (R163); HO_SAMPLES 8, HO_LIMIT 0 -/
  hocfg : W64 := 8#64
  /-- 4; gain tables (R156); 0 -/
  tabs : Table GainTab := []
  /-- 8 × 64; inputs at the most recent sample (R164); 0 -/
  inp : Table W64 := []
  /-- 8 × 8; AGE of the inputs at the most recent sample (R164); 0 -/
  inAge : Table Nat := []
  /-- 4 × 64; last value sent on the outputs (R164); DESIGN CHOICE 0 -/
  out : Table W64 := []
  /-- 9; SLE_AXn_INSTR.COUNT; 0 -/
  instr : Nat := 0
  /-- 16; LASTREF; 0 -/
  lastRef : Nat := 0
  /-- 8; CMDST.RESULT (R165); 0 -/
  cmdSt : Nat := 0
  deriving DecidableEq, Repr

/-- The SLE of a sheet. -/
structure Sle where
  /-- 24 axes -/
  ax : Table SleAx := []
  /-- 64 programs (R153); none loaded -/
  progs : Table (Option SleProg) := []
  /-- queue; accepted commands in their order (R32, R71); empty -/
  cmds : List SleCmd := []
  /-- queue; LOADs that apply at a later datum (R154); empty -/
  loads : List Nat := []
  /-- option; address of the record of the LOAD of this cycle (R154); none -/
  loading : Option Nat := none
  /-- 4; SLE_LOADST.RESULT; 0 -/
  result : Nat := 0
  /-- 8; SLE_LOADST.INDEX; 0 -/
  index : Nat := 0
  /-- 6; SLE_LOADST.PROG; 0 -/
  prog : Nat := 0
  /-- 16; latest start offset in force in 100 ns (SLE_START); 0x3E8 -/
  lso : Nat := 0x3E8
  /-- 22; SLE_TLAST.START; 0 -/
  tlast : Nat := 0
  /-- 1; SLE_TLAST.LATE; 0 -/
  late : Bool := false
  /-- 13; SLE_TSTAT.INSTR; 0 -/
  instr : Nat := 0
  /-- 16; SLE_TSTAT.DUR; 0 -/
  dur : Nat := 0
  /-- 1; the sample of the present cycle was taken (R145); DESIGN CHOICE 0 -/
  sampled : Bool := false
  deriving DecidableEq, Repr

end Sys2Proof.Machine
end

