-- ==== Sys2Proof/Machine/StTri.lean ====
section
/-! DEFINITION. State of the Triangulation Units (chapter 07). -/

namespace Sys2Proof.Machine

/-- The fields of an item (R172). -/
structure TriItem where
  kernel : Nat
  n : Nat
  nrhs : Nat
  slot : Nat
  uplo : Bool
  trans : Bool
  acc64 : Bool
  warm : Bool
  solve : Bool
  unit : Bool
  itmax : Nat
  band : Nat
  fk : Nat
  tol : Nat
  pat : Nat
  a : Nat
  b : Nat
  f : Nat
  e : Nat
  w0 : Nat
  w1 : Nat
  deriving DecidableEq, Repr

/-- An item that has started: its fields, and what it started with (R170, R178, R187). -/
structure TriStart where
  item : TriItem
  /-- 32; τ in force at the start -/
  tau : Nat
  /-- words of the slot's solution that x starts from; empty for a cold start -/
  sol : List Nat
  /-- 32; WARM_USED or WSTART_MISMATCH in their places of STATUS -/
  flags : Nat
  deriving DecidableEq, Repr

/-- A batch of a TRI queue (R73, R168–R171). -/
structure TriBatch where
  /-- 16; ticket (R73) -/
  ticket : Nat
  /-- 40; address of the descriptor (R168) -/
  addr : Nat
  /-- option of 48; cycle of the datum at which ABORT applied (R192); none -/
  abortAt : Option Nat := none
  /-- 1; the batch has started (R169); 0 -/
  run : Bool := false
  /-- 1; the descriptor was refused (R169); 0 -/
  refused : Bool := false
  /-- 1; the deadline had passed at the start (R169); 0 -/
  late : Bool := false
  /-- 8; COUNT (R168); 0 -/
  count : Nat := 0
  /-- 40; ITEMS (R168); 0 -/
  items : Nat := 0
  /-- 48; DEADLINE (R168); 0 -/
  deadline : Nat := 0
  /-- option of 9; EVT when EVTEN (R168); none -/
  evt : Option Nat := none
  /-- model; time since PORST_N (ns) of the start (R168 ELAPSED); 0 -/
  start : Nat := 0
  /-- model; time since PORST_N (ns) of the last output (R168 ELAPSED); 0 -/
  last : Nat := 0
  /-- items that have started, in item order (R170); empty -/
  started : List TriStart := []
  /-- 128 × 32; STATUS of the items that have ended, 0 for the others (R175); 0 -/
  ended : Table Nat := []
  deriving DecidableEq, Repr

/-- A batch slot (R186). -/
structure TriSlot where
  /-- 1; VALID; 0 -/
  valid : Bool := false
  /-- 4; KERNEL; 0 -/
  kernel : Nat := 0
  /-- 6; ORDER; 0 -/
  order : Nat := 0
  /-- 6; BAND; 0 -/
  band : Nat := 0
  /-- 32; PAT; 0 -/
  pat : Nat := 0
  /-- 32 × 32; solution words; empty -/
  sol : List Nat := []
  deriving DecidableEq, Repr

/-- A Triangulation Unit (chapter 07). -/
structure Tri where
  /-- 4; queued batches, the running one first (R169, R73); empty -/
  queue : List TriBatch := []
  /-- 16; next ticket (R73); 0 -/
  ticket : Nat := 0
  /-- 16; TRI_DONE.TICKET; 0 -/
  doneTicket : Nat := 0
  /-- 2; TRI_DONE.CLASS; 0 -/
  doneClass : Nat := 0
  /-- 1; TRI_DONE.VALID; 0 -/
  doneValid : Bool := false
  /-- 32; TRI_TAU in force (R178); 0x35800000 -/
  tau : Nat := 0x35800000
  /-- 128; batch slots (R186); not valid -/
  slots : Table TriSlot := []
  /-- queue; accepted commands: code, value, phase of entry (R194, R32); empty -/
  cmds : List (Nat × Nat × Nat) := []
  /-- 8; TRI_CMDST.RESULT; 0 -/
  cmdSt : Nat := 0
  deriving DecidableEq, Repr

end Sys2Proof.Machine
end

