-- ==== Sys2Proof/Machine/StTrv.lean ====
section
/-! DEFINITION. State of the Traverse engines TRV and TRH (chapter 05). -/

namespace Sys2Proof.Machine

/-- The axis states (R105). -/
inductive TrvSt where
  | off | hold | position | velocity | jog | path | gear | homing | stopping | disabling | fault
  deriving DecidableEq, Repr

/-- The code of an axis state in STAT.STATE (R105). -/
def TrvSt.code : TrvSt → Nat
  | .off => 0 | .hold => 1 | .position => 2 | .velocity => 3 | .jog => 4 | .path => 5 | .gear => 6
  | .homing => 7 | .stopping => 8 | .disabling => 9 | .fault => 10

/-- A debounced limit or reference input (R134, R135). -/
structure Debounce where
  /-- 1; debounced level; 0 -/
  level : Bool := false
  /-- 1; last sampled level; 0 -/
  last : Bool := false
  /-- 1; the source has been sampled since the reset or the LIM_CFG write that names it; 0 -/
  seen : Bool := false
  /-- 16; consecutive datums at which the sample differed from the debounced level; 0 -/
  diff : Nat := 0
  /-- list; axis datum numbers of the sampled-level changes inside the window; empty -/
  chg : List Nat := []
  deriving DecidableEq, Repr

/-- An accepted command that waits for its datum (R32, R71). -/
structure TrvCmd where
  /-- 8; code (R110) -/
  code : Nat
  /-- 64; value -/
  val : W64
  /-- model; phase of entry into the engine domain -/
  phase : Nat
  /-- 1; issued by the hub itself (R107) -/
  hub : Bool
  deriving DecidableEq, Repr

/-- A plan in force (R124–R126). -/
structure Plan where
  /-- 16; SEQ -/
  seq : Nat
  /-- the knots as (position, speed), in order -/
  knots : List (Int × Int)
  /-- 5; number of the next knot to take (R126); 0 in a newly taken plan -/
  next : Nat := 0
  deriving DecidableEq, Repr

/-- The cubic of the present plan period (R126). -/
structure Hermite where
  p0 : Int
  w0 : Int
  p1 : Int
  w1 : Int
  j : Nat
  m : Nat
  deriving DecidableEq, Repr

/-- An armed or running ratio change (R131, R132). -/
structure GearArm where
  num : Int
  den : Nat
  pos : Int
  deriving DecidableEq, Repr

/-- A ratio ramp (R132). -/
structure GearRamp where
  old : Int
  new : Int
  j : Nat
  n : Nat
  deriving DecidableEq, Repr

/-- The homing phases (R137). -/
inductive HomePh where
  | search | backoff | latch | set
  deriving DecidableEq, Repr

/-- A homing run (R137). -/
structure Home where
  ph : HomePh
  /-- direction of the running phase: negative -/
  neg : Bool
  /-- set-point at the start -/
  startP : Int
  /-- a limit stop with QDEC runs before the direction flips -/
  flip : Bool := false
  /-- limits met so far -/
  hits : Nat := 0
  /-- debounced LIMP and LIMN at the last datum -/
  limpWas : Bool := false
  limnWas : Bool := false
  /-- set-point at which the reference became inactive in BACKOFF -/
  freeAt : Option Int := none
  /-- the reference became active in LATCH of method 2 -/
  refSeen : Bool := false
  /-- latched position -/
  pl : Int := 0
  /-- last value of the bound index input -/
  idxLast : Int := 0
  deriving DecidableEq, Repr

/-- A Traverse axis. -/
structure TrvAx where
  /-- enum; STAT.STATE (R105, R399); OFF -/
  st : TrvSt := .off
  /-- 64 signed; set-point position P (R113); 0 -/
  p : Int := 0
  /-- signed; set-point speed V in pu/s (R113); 0 -/
  v : Int := 0
  /-- 31; remainder RP (R113); 0 -/
  rp : Nat := 0
  /-- 32 signed; set-point acceleration (R119); 0 -/
  acc : Int := 0
  /-- 3; STAT.SEG (R397); 0 -/
  seg : Nat := 0
  /-- 1; AT_TARGET (R115); 0 -/
  atTarget : Bool := false
  /-- 1; PENDING_EN (R108); 0 -/
  pendEn : Bool := false
  /-- 1; REVERSING (R115); 0 -/
  reversing : Bool := false
  /-- 1; HOMED (R137); 0 -/
  homed : Bool := false
  /-- 1; drive enable output (R106); 0 -/
  ena : Bool := false
  /-- 64 each; stored values by command code (R110, R399); R399 -/
  stored : Table W64 := []
  /-- 8; FLAG.FCAUSE (R398); 0 -/
  fcause : Nat := 0
  /-- list; fault causes that stood at the last datum (R398); empty -/
  stood : List Nat := []
  /-- 16; LASTREF (R107); 0 -/
  lastRef : Nat := 0
  /-- queue; accepted commands (R32); empty -/
  cmds : List TrvCmd := []
  /-- 8; CMDST.RESULT (R112); 0 -/
  cmdSt : Nat := 0
  /-- 1; the stop ramp uses QDEC (R107, R118); 0 -/
  quick : Bool := false
  /-- counter; datums since VJOG last applied (R117); DESIGN CHOICE 0 -/
  jogAge : Nat := 0
  /-- 1; the jog timeout has run out (R117); 0 -/
  jogOut : Bool := false
  /-- counter; datums seen by the axis (R135); 0 -/
  tick : Nat := 0
  /-- input LIMP (R134) -/
  limp : Debounce := {}
  /-- input LIMN (R134) -/
  limn : Debounce := {}
  /-- input REF (R134) -/
  ref : Debounce := {}
  /-- 1; CLEAR_FAULT was taken with LIMP still active (R136); 0 -/
  clrP : Bool := false
  /-- 1; CLEAR_FAULT was taken with LIMN still active (R136); 0 -/
  clrN : Bool := false
  /-- option; plan in force (R126); none -/
  plan : Option Plan := none
  /-- 16; SEQ of the last plan taken (R111); 0 -/
  planSeq : Nat := 0
  /-- option of 40; record committed for the next plan datum (R125); none -/
  commit : Option Nat := none
  /-- 8; STAT.PAGE (R127); 0 -/
  page : Nat := 0
  /-- 1; PATH_AGED was reported for the plan in force (R127); 0 -/
  aged : Bool := false
  /-- option; cubic of the present period (R126); none -/
  herm : Option Hermite := none
  /-- 64 signed; extended master position M (R130); 0 -/
  m : Int := 0
  /-- 32; master value at the last datum (R130); 0 -/
  mPrev : Nat := 0
  /-- 32; GREM (R130); 0 -/
  grem : Nat := 0
  /-- 32 signed; NUM_eff in force (R132); 0 -/
  num : Int := 0
  /-- signed; last change of a fresh master (R130); 0 -/
  lastDm : Int := 0
  /-- option; armed ratio change (R131); none -/
  arm : Option GearArm := none
  /-- option; ratio ramp (R132); none -/
  ramp : Option GearRamp := none
  /-- option; homing run (R137); none -/
  home : Option Home := none
  /-- 64 signed; latched position of the last homing (R111); 0 -/
  latched : Int := 0
  /-- 16 signed; LOAD.ANGLE (R138); 0 -/
  load : Int := 0
  /-- 1; STAT.STALL (R138); 0 -/
  stall : Bool := false
  /-- 8; consecutive datums with LOAD at or above TH (R138); 0 -/
  stallN : Nat := 0
  /-- 16 signed; IA at the previous datum (R138); 0 -/
  iaPrev : Int := 0
  /-- 16 signed; IB at the previous datum (R138); 0 -/
  ibPrev : Int := 0
  /-- 32; fraction of a lost full step (R139); 0 -/
  lostAcc : Nat := 0
  /-- 32; remainder ER of the followed encoder (R121); 0 -/
  er : Nat := 0
  /-- 32; encoder count at the last datum (R121); 0 -/
  encPrev : W32 := 0
  /-- pin; level of STPn_DIR (R141, R387); 0, driven low -/
  dirPin : Bool := false
  /-- signed; leading edge of the last step against the last datum, ns (R141); far past -/
  stepLast : Int := -1000000000
  /-- wire; leading edges in the present cycle, ns after its datum (R141); empty -/
  steps : List Nat := []
  /-- 20; STPn_CFG in force (TRH_STPn_CFG); 0x140A0 reset layout -/
  stpCfg : W32 := 0x000140A0#32
  deriving DecidableEq, Repr

/-- An encoder input of the hub (R140). -/
structure Enc where
  /-- 32; running count; 0 -/
  count : W32 := 0
  /-- 32; CNT, latched at the last datum; 0 -/
  latched : W32 := 0
  /-- 32; IDX; 0 -/
  idx : W32 := 0
  /-- 1; level of input A; DESIGN CHOICE 0 -/
  a : Bool := false
  /-- 1; level of input B; DESIGN CHOICE 0 -/
  b : Bool := false
  /-- 1; an index was captured since the last datum (R137); 0 -/
  idxNew : Bool := false
  deriving DecidableEq, Repr

end Sys2Proof.Machine
end

