-- ==== Sys2Proof/Machine/StWdx.lean ====
section
/-! DEFINITION. State of the Work Dispatcher (chapter 04) and of the Brorok cores (chapters 02, 03). -/

namespace Sys2Proof.Machine

/-- A source that holds its event under R94. -/
inductive EvSrc where
  | trv (die axis : Nat)
  | sle (die axis : Nat)
  | sleLoad (die : Nat)
  | tri (die : Nat)
  | dma (die ch : Nat)
  | ctm
  deriving DecidableEq, Repr

/-- A work item descriptor (R87). -/
structure Desc where
  pc : Nat := 0
  arg : Nat := 0
  deadline : Nat := 0
  tag : Nat := 0
  prio : Nat := 0
  rc : Bool := false
  aff : Nat := 0
  cmask : Nat := 0
  deriving DecidableEq, Repr

/-- The states of an item (R91). -/
inductive ItemSt where
  /-- in the delay list of a die, due at a tick -/
  | delayed (die tick : Nat)
  | ready
  | station (die : Nat)
  | running (die idx : Nat)
  deriving DecidableEq, Repr

/-- A work item in a slot (R89, R91). -/
structure Item where
  /-- 256; descriptor fields (R87) -/
  d : Desc
  /-- enum; state (R91) -/
  st : ItemSt
  /-- counter; arrival place at WDX, or place in the delay list (R91, R67) -/
  arr : Nat
  /-- 1; LATE (R101) -/
  late : Bool := false
  /-- option of 9; event entry that created it (R95) -/
  evt : Option Nat := none
  deriving DecidableEq, Repr

/-- A work item slot (R89). -/
structure Slot where
  /-- 4; generation (R89); DESIGN CHOICE 0 -/
  gen : Nat := 0
  /-- option; the item in the slot (R89); none -/
  item : Option Item := none
  deriving DecidableEq, Repr

/-- The coalescing state of an event entry (R95): idle, waiting for room, or with an item queued in a slot. -/
inductive Pend where
  | idle
  | waiting (word count : Nat)
  | queued (slot : Nat)
  deriving DecidableEq, Repr

/-- A firing that its source holds (R94). -/
structure Held where
  src : EvSrc
  entry : Nat
  word : Nat
  deriving DecidableEq, Repr

/-- The Work Dispatcher (chapter 04). -/
structure Wdx where
  /-- 4096 slots; work item slots (R89); all free -/
  slots : Table Slot := []
  /-- counter; next arrival place (R91); 0 -/
  arrival : Nat := 0
  /-- counter; tick count T (R99); 0 -/
  ticks : Nat := 0
  /-- counter; Meridian time since the last tick in 2^-38 ns (R99); 0 -/
  tickAcc : Nat := 0
  /-- counter; the last tick whose expiries were taken (R99); 0 -/
  tickDone : Nat := 0
  /-- 12; tick period in force in 250 ns (R100); 4 -/
  tickPer : Nat := 4
  /-- 512 × 16; FIRES of the event entries (R97); 0 -/
  fires : Table Nat := []
  /-- 512; PEND state of the event entries (R95); idle -/
  pend : Table Pend := []
  /-- queue; firings held by their sources, oldest first (R94); empty -/
  held : List Held := []
  /-- 12; WDX_CRHEAD (R102); 0 -/
  crHead : Nat := 0
  /-- counter; next place for a stalled POST (R65, R66); 0 -/
  stallSeq : Nat := 0
  /-- 16; WDX_HQUERY.HANDLE of a master outside the cores (04 WDX_HQUERY); 0 -/
  extHandle : Nat := 0
  /-- 8; STATE and DIE of that master's last query (R90); 0 -/
  extRes : Nat := 0
  /-- 3; WDX_CANCEL.RESULT of that master (R90); 0 -/
  extCancel : Nat := 0
  deriving DecidableEq, Repr

/-- A POST or DELAY that waits for a place (R66, R93). -/
structure Stall where
  rd : BitVec 5
  d : Desc
  /-- ticks of a DELAY, none for a POST -/
  delay : Option Nat
  seq : Nat
  /-- time since PORST_N (ns) at which the wait of WDX_POSTWAIT is over (R66, R93) -/
  limit : Nat := 0
  deriving DecidableEq, Repr

/-- A 64-byte cache line: its line number (address ÷ 64), its bytes (chapter 02, Memory as a core sees it) and whether its
parity is right (R54). -/
structure CLine where
  line : Nat
  data : List Byte
  par : Bool := true
  deriving DecidableEq, Repr

/-- A Brorok core (R38, R42). -/
structure Core where
  /-- 32 × 64; general registers g1–g31, g0 reads 0 (R38); DESIGN CHOICE 0 -/
  g : Table W64 := []
  /-- 64; pc (R38); DESIGN CHOICE 0 -/
  pc : Nat := 0
  /-- 1; CSTAT.XM (R42); 0 -/
  xm : Bool := false
  /-- 1; CSTAT.SAT (R42); 0 -/
  sat : Bool := false
  /-- 1; CSTAT.DLPEND (R59); 0 -/
  dlpend : Bool := false
  /-- option of 12; slot of the running item; CWID, CARG, CDEAD, CTAG and PRIO come from it (R42); none -/
  item : Option Nat := none
  /-- 16; CWID (R42); DESIGN CHOICE 0 -/
  cwid : Nat := 0
  /-- 64; CARG (R42); DESIGN CHOICE 0 -/
  carg : Nat := 0
  /-- 64; CTIME (R42); DESIGN CHOICE 0 -/
  ctime : Nat := 0
  /-- 64; CCAUSE (R42); 0 -/
  ccause : Nat := 0
  /-- 64; CEPC (R42); DESIGN CHOICE 0 -/
  cepc : Nat := 0
  /-- 64; CBADA (R42); DESIGN CHOICE 0 -/
  cbada : Nat := 0
  /-- 64; CVEC (R42); DESIGN CHOICE 0 -/
  cvec : Nat := 0
  /-- 64; CSAVE (R42); DESIGN CHOICE 0 -/
  csave : Nat := 0
  /-- 48; CDEAD (R42); DESIGN CHOICE 0 -/
  cdead : Nat := 0
  /-- 32; CTAG (R42); DESIGN CHOICE 0 -/
  ctag : Nat := 0
  /-- 4; CSTAT.PRIO (R42); DESIGN CHOICE 0 -/
  prio : Nat := 0
  /-- 64; Meridian clocks at the last release of the core's reset, for CCYC (R42); 0 -/
  relClk : Nat := 0
  /-- option of 40; address of a lost store whose error is pending (R58); none -/
  asyncEcc : Option Nat := none
  /-- option; POST or DELAY that stalls the core (R66); none -/
  stall : Option Stall := none
  /-- 32 KiB; D-cache lines (R51, R54); DESIGN CHOICE empty -/
  dcache : List CLine := []
  /-- 32 KiB; I-cache lines (R51, R54); DESIGN CHOICE empty -/
  icache : List CLine := []
  /-- 64 KiB; local memory (R20, R21, R317); 0 -/
  lm : Table Byte := []
  /-- model; which undefined contents local memory holds after WRST_N (R54); none = zeros of R317 -/
  lmEpoch : Option Nat := none
  /-- 2048; uncorrectable symbols per 32-byte local-memory word (R54); 0 -/
  lmEcc : Table Nat := []
  /-- 16; WDX_HQUERY.HANDLE of this core (04 WDX_HQUERY); 0 -/
  hqHandle : Nat := 0
  /-- 8; STATE and DIE found by this core's last query, in bits [23:16] places (R90); 0 -/
  hqRes : Nat := 0
  /-- 3; WDX_CANCEL.RESULT of this core (R90); 0 -/
  cancelRes : Nat := 0
  /-- option; the snapshot of a TSAMP with sel 1 or 2 that waits for the other of its pair: that sel, the cycle counter and the
  nanoseconds since the datum (R74); none -/
  tsnap : Option (Nat × Nat × Nat) := none
  deriving DecidableEq, Repr

end Sys2Proof.Machine
end

