-- ==== Sys2Proof/Machine/State.lean ====
section
/-! DEFINITION. The state of the XN as plain data, the ways a step can stop, and the state after reset. -/

namespace Sys2Proof.Machine

/-- The state of the block: every register, FIFO, buffer, counter, mode and pin, and the waiting commands. -/
structure State where
  /-- queue; commands that wait, oldest first; empty -/
  pending : List Instr := []
  /-- reset inputs, pins, cell mode (chapters 01, 13) -/
  sys : Sys := {}
  /-- Meridian (chapter 11) -/
  mer : Mer := {}
  /-- 32 each; every field that software writes and the XN stores, by die, block and offset (R9–R11); RegMap -/
  regs : Table W32 := []
  /-- 32 each; captured higher words of multi-register values (R13); 0 -/
  cap : Table W32 := []
  /-- 32 each; engine parameter registers in force, which follow the written ones at datums (R32); their reset values -/
  parIn : Table W32 := []
  /-- queue; parameter writes that no datum has taken yet: register, phase of entry, word (R32); empty -/
  parQ : List (Nat × Nat × W32) := []
  /-- 32; data of the external master's last read; DESIGN CHOICE 0 -/
  busData : W32 := 0
  /-- 104 MiB; SRAM of the hub and the sheets (R20, R311); 0 -/
  mem : Memory := []
  /-- per 32-byte word; byte symbols in error (R315); 0 -/
  ecc : Table Nat := []
  /-- 7 dies; bank control (chapter 12) -/
  memDie : Table MemDie := []
  /-- the Field Book (R361) -/
  fb : FieldBook := {}
  /-- the Work Dispatcher (chapter 04) -/
  wdx : Wdx := {}
  /-- 40; Brorok cores by 16 × die + index (R38) -/
  cores : Table Core := []
  /-- 112; DMA channels by 16 × die + channel (R327) -/
  dma : Table DmaCh := []
  /-- 144 axes and 16 stepper axes by 32 × die + axis; Traverse (chapter 05) -/
  trv : Table TrvAx := []
  /-- 16; encoder inputs ENC0–ENC15 (R140) -/
  enc : Table Enc := []
  /-- 6; Servo Loop Engines by die code (chapter 06) -/
  sle : Table Sle := []
  /-- 6; Triangulation Units by die code (chapter 07) -/
  tri : Table Tri := []
  /-- the Vistonik bus (chapter 10) -/
  bus : Bus := {}
  /-- the Contour safety system (chapter 08) -/
  ctm : Ctm := {}
  /-- the Cartouche (chapter 09) -/
  crt : Crt := {}
  /-- HNA (chapter 11) -/
  hostA : HostSt := {}
  /-- HNB (chapter 11) -/
  hostB : HostSt := {}
  /-- the redundancy interlock (chapter 14) -/
  rdn : Rdn := {}
  /-- feed A (chapter 14) -/
  feedA : Feed := {}
  /-- feed B (chapter 14) -/
  feedB : Feed := {}
  /-- Surveyor (chapter 15) -/
  sfy : Sfy := {}
  /-- model; counter that picks fresh free values; DESIGN CHOICE 0 -/
  freeCtr : Nat := 0
  deriving DecidableEq, Repr

/-- Ways the machine could stop with a fault. The spec gives the XN none: every error it describes is a status, an
exception of a core, or a demand of the safety system, and the machine goes on. -/
inductive Fault where
  /-- raised by no meaning; safe -/
  | none
  deriving DecidableEq, Repr

/-- Ways a command is refused by the model. -/
inductive Refusal where
  /-- raised by an arm of exec whose meaning is not written; safe -/
  | notModelled (mnemonic : String)
  deriving DecidableEq, Repr

/-- The outcome of a command. -/
abbrev Out := Host.Outcome State Fault Refusal

/-- The machine right after PORST_N goes low, before BOOT (R301, R317, R371). -/
def State.reset : State := {}

end Sys2Proof.Machine
end

