-- ==== Sys2Proof/Machine/Ops.lean ====
section
/-! DEFINITION. Named operations over the state: register storage, the dies, Meridian's clock, the Field Book, the
bytes of SRAM and the decoding of addresses. -/

namespace Sys2Proof.Machine

/-! ### Register storage -/

/-- The stored word of a register. -/
def State.rd (s : State) (r : Nat) : W32 := Table.get regReset s.regs r

/-- A stored field of a register, as a number. -/
def State.rf (s : State) (r lo w : Nat) : Nat := fld (s.rd r).toNat lo w

/-- A stored bit of a register. -/
def State.rb (s : State) (r i : Nat) : Bool := bitN (s.rd r).toNat i

/-- Store a register word. -/
def State.wr (s : State) (r : Nat) (v : W32) : State := { s with regs := Table.set regReset s.regs r v }

/-- Store one field of a register. -/
def State.setRf (s : State) (r lo w x : Nat) : State := s.wr r (BitVec.ofNat 32 (setFld (s.rd r).toNat lo w x))

/-- An engine parameter register as it is in force since the last datum (R32). -/
def State.par (s : State) (r : Nat) : W32 := Table.get regReset s.parIn r

/-- A written parameter register enters the engine domain now; a datum at least 1 µs later takes it (R32). -/
def State.enterPar (s : State) (r : Nat) : State := { s with parQ := s.parQ ++ [(r, s.mer.phase, s.rd r)] }

/-- A datum takes the parameter writes that entered by phase `lim` of the ending cycle, in their order (R32). -/
def State.takePars (s : State) (lim : Nat) : State :=
  let due := s.parQ.filter fun x => decide (x.2.1 ≤ lim)
  { s with
    parIn := due.foldl (fun t x => Table.set regReset t x.1 x.2.2) s.parIn
    parQ := (s.parQ.filter fun x => !decide (x.2.1 ≤ lim)).map fun x => (x.1, 0, x.2.2) }

/-- Count in a field that saturates at its maximum. -/
def State.count (s : State) (r lo w : Nat) (n : Nat := 1) : State :=
  s.setRf r lo w (min (s.rf r lo w + n) (2 ^ w - 1))

/-- A captured word (R13). -/
def State.capOf (s : State) (r : Nat) : W32 := Table.get (fun _ => 0#32) s.cap r

/-- Capture a word (R13). -/
def State.setCap (s : State) (r : Nat) (v : W32) : State := { s with cap := Table.set (fun _ => 0#32) s.cap r v }

/-- Reset the registers, captures and engine parameters for which `p` holds. -/
def State.wipeRegs (s : State) (p : Nat → Bool) : State := 
  { s with regs := s.regs.wipe p, cap := s.cap.wipe p, parIn := s.parIn.wipe p, parQ := s.parQ.filter fun x => !p x.1 }

/-! ### Dies, cores and sheets -/

/-- Sheets fitted (R1). -/
def sheetCount (member : Nat) : Nat := if member = 1 then 6 else if member = 2 then 4 else 2

/-- Whether `d` is a fitted sheet. -/
def State.sheetFitted (s : State) (d : Nat) : Bool := decide (1 ≤ d) && decide (d ≤ sheetCount s.sys.member)

/-- Whether `d` is the hub or a fitted sheet. -/
def State.dieFitted (s : State) (d : Nat) : Bool := d == 0 || s.sheetFitted d

/-- The fitted sheets, ascending. -/
def State.sheetList (s : State) : List Nat := (List.range (sheetCount s.sys.member)).map (· + 1)

/-- A sheet's record. -/
def State.sheet (s : State) (d : Nat) : Sheet := Table.get (fun _ => {}) s.sfy.sheets d

/-- Change a sheet's record. -/
def State.setSheet (s : State) (d : Nat) (x : Sheet) : State :=
  { s with sfy := { s.sfy with sheets := Table.set (fun _ => {}) s.sfy.sheets d x } }

/-- Whether die `d` is the hub or a sheet that is IN_SERVICE (R88). -/
def State.inService (s : State) (d : Nat) : Bool := d == 0 || (s.sheetFitted d && (s.sheet d).st == .inService)

/-- Whether die `d` answers accesses: the hub, or a sheet that is IN_SERVICE or DRAINING (R326). -/
def State.answers (s : State) (d : Nat) : Bool :=
  d == 0 || (s.sheetFitted d && ((s.sheet d).st == .inService || (s.sheet d).st == .draining))

/-- Cores of a die (R18). -/
def coresOf (d : Nat) : Nat := if d = 0 then 4 else 6

/-- The table key of a core. -/
def coreKey (c : CoreId) : Nat := 16 * c.die + c.idx

/-- A core's state. -/
def State.core (s : State) (c : CoreId) : Core := Table.get (fun _ => {}) s.cores (coreKey c)

/-- Replace a core's state. -/
def State.setCore (s : State) (c : CoreId) (x : Core) : State := { s with cores := Table.set (fun _ => {}) s.cores (coreKey c) x }

/-- Change a core's state. -/
def State.updCore (s : State) (c : CoreId) (f : Core → Core) : State := s.setCore c (f (s.core c))

/-- The cores of the hub and the fitted sheets. -/
def State.coreList (s : State) : List CoreId :=
  (0 :: s.sheetList).flatMap fun d => (List.range (coresOf d)).map fun i => ⟨d, i⟩

/-- Whether a core exists, is out of reset and its die is in service (R372, R103). -/
def State.coreLive (s : State) (c : CoreId) : Bool :=
  !s.sys.porst && !s.sys.internal && !s.sys.wrst && s.answers c.die && decide (c.idx < coresOf c.die)

/-- A Brorok register's value; g0 reads 0 (R38). -/
def Core.reg (x : Core) (r : BitVec 5) : W64 := if r = 0 then 0 else Table.get (fun _ => 0#64) x.g r.toNat

/-- Write a Brorok register; a write to g0 is discarded (R38). -/
def Core.setReg (x : Core) (r : BitVec 5) (v : W64) : Core :=
  if r = 0 then x else { x with g := Table.set (fun _ => 0#64) x.g r.toNat v }

/-! ### Meridian's clock -/

/-- One nanosecond in the unit of the time fields. -/
def unitNs : Nat := 2 ^ 38

/-- What one Meridian clock adds, 4 ns × (1 + r) (R296). -/
def Mer.inc (m : Mer) : Nat := ((2 ^ 40 : Int) + m.rate).toNat

/-- Meridian nanoseconds. -/
def State.ns (s : State) : Nat := s.mer.sub / unitNs

/-- Meridian time in whole nanoseconds since 0 s. -/
def State.nowNs (s : State) : Nat := s.mer.sec * 1000000000 + s.ns

/-- Meridian time in whole milliseconds. -/
def State.nowMs (s : State) : Nat := s.nowNs / 1000000

/-- Nanoseconds since the start of Meridian at PORST_N, which durations are measured in. -/
def State.upNs (s : State) : Nat := s.mer.clocks * 4

/-- Nanoseconds since the last datum. -/
def State.phaseNs (s : State) : Nat := s.mer.phase / unitNs

/-- Meridian time in units of 2^-16 ns. -/
def State.now16 (s : State) : Nat := s.mer.sec * 1000000000 * 65536 + s.mer.sub / 2 ^ 22

/-- The phase at which the next datum occurs: the cycle length, or a re-placement (R297, R300). -/
def Mer.target (m : Mer) : Nat :=
  match m.place with
  | some (p, _) => p
  | none => m.cycleLen * unitNs

/-- Let `dt` of Meridian time pass at the delay-list tick (R99, R100). -/
def Wdx.passTime (w : Wdx) (dt per : Nat) : Wdx :=
  let first := w.tickPer * 250 * unitNs
  let acc := w.tickAcc + dt
  if acc < first then { w with tickAcc := acc }
  else
    let unit := per * 250 * unitNs
    { w with ticks := w.ticks + 1 + (acc - first) / unit, tickAcc := (acc - first) % unit, tickPer := per }

/-- Let `n` Meridian clocks pass (R296, R297, R99). -/
def State.advance (s : State) (n : Nat) : State :=
  let dt := n * s.mer.inc
  let t := s.mer.sub + dt
  let lim := 1000000000 * unitNs
  { s with
    mer := { s.mer with sec := (s.mer.sec + t / lim) % 2 ^ 48, sub := t % lim, phase := s.mer.phase + dt, clocks := s.mer.clocks + n }
    wdx := s.wdx.passTime dt (s.rf (rg 0 1 0x00) 0 12) }

/-- Whether the present cycle has run its length, so that only its datum can follow (R297). -/
def State.cycleOver (s : State) : Bool := decide (s.mer.target ≤ s.mer.phase + s.mer.inc)

/-- Let Meridian run to `ns` after the datum, if that lies ahead and before the next datum. -/
def State.runTo (s : State) (ns : Nat) : State :=
  if s.mer.phase < ns * unitNs ∧ ns * unitNs < s.mer.target then s.advance (ceilDiv (ns * unitNs - s.mer.phase) s.mer.inc) else s

/-! ### The Field Book -/

/-- Append an entry; when the Field Book is full the oldest is overwritten and counted lost (R361). -/
def FieldBook.push (b : FieldBook) (e : FbEntry) : FieldBook :=
  if b.entries.length < 8192 then { b with entries := b.entries ++ [e] }
  else { b with entries := b.entries.drop 1 ++ [e], lost := min (b.lost + 1) 65535 }

/-- Whether Surveyor's firmware restarts (R376). -/
def State.sfyRestarting (s : State) : Bool :=
  match s.sfy.busy with
  | .restart _ _ => true
  | _ => false

/-- Record an event in the Field Book, stamped with Meridian time (R361–R363). -/
def State.log (s : State) (code sev die block obj d0 d1 : Nat) : State :=
  let e : FbEntry := { seq := s.fb.seq, ns := s.ns, sec := s.mer.sec, code := code, die := die, block := block, sev := sev, obj := obj % 2 ^ 32, d0 := d0 % 2 ^ 32, d1 := d1 % 2 ^ 32 }
  let b : FieldBook := { s.fb with seq := (s.fb.seq + 1) % 2 ^ 32 }
  if s.sfyRestarting then
    if b.queue.length < 64 then { s with fb := { b with queue := b.queue ++ [e] } }
    else { s with fb := { b with lost := min (b.lost + 1) 65535, dropped := b.dropped + 1 } }
  else { s with fb := b.push e }

/-! ### Addresses and bytes of SRAM -/

/-- What an address names (R20). -/
inductive Where where
  | hub (off : Nat)
  | sheet (d off : Nat)
  | loc (off : Nat)
  | reg (r : Nat)
  | none
  deriving DecidableEq, Repr

/-- The address map of R20. -/
def whereIs (a : Nat) : Where :=
  if a < 0x02000000 then .hub a
  else if 0x10000000 ≤ a ∧ a < 0x16000000 ∧ a % 0x01000000 < 0x00C00000 then
    .sheet ((a - 0x10000000) / 0x01000000 + 1) (a % 0x01000000)
  else if 0xF0000000 ≤ a ∧ a < 0xF0010000 then .loc (a - 0xF0000000)
  else if 0xF000000000 ≤ a ∧ a < 0xF010000000 then .reg (a - 0xF000000000)
  else .none

/-- The die that holds an SRAM address. -/
def sramDie (a : Nat) : Option Nat :=
  match whereIs a with
  | .hub _ => some 0
  | .sheet d _ => some d
  | _ => none

/-- The bank of an SRAM address on its die (R311). -/
def bankOf (a : Nat) : Nat := if a < 0x02000000 then a / 0x100000 else a % 0x01000000 / 0x80000

/-- Whether every byte of a range lies in the SRAM of the hub or of a fitted sheet, on one die. -/
def State.sramRange (s : State) (a n : Nat) : Bool :=
  match sramDie a, sramDie (a + n - 1) with
  | some d, some e => d == e && s.dieFitted d && decide (n ≤ 0x2000000)
  | _, _ => false

/-- Whether a range lies wholly in hub SRAM. -/
def hubRange (a n : Nat) : Bool := decide (a + n ≤ 0x02000000)

/-- The stored byte at an SRAM address. -/
def State.byte (s : State) (a : Nat) : Byte := Table.get memDefault s.mem a

/-- `n` stored bytes from an SRAM address. -/
def State.bytes (s : State) (a n : Nat) : List Byte := (List.range n).map fun i => s.byte (a + i)

/-- Put bytes into a memory. -/
def putBytes (m : Memory) (a : Nat) : List Byte → Memory
  | [] => m
  | b :: t => putBytes (Table.set memDefault m a b) (a + 1) t

/-- Write bytes into SRAM without a check. -/
def State.poke (s : State) (a : Nat) (l : List Byte) : State := { s with mem := putBytes s.mem a l }

/-- The 32-byte words that a range meets. -/
def wordsOf (a n : Nat) : List Nat := (List.range ((a + n + 31) / 32 - a / 32)).map (· + a / 32)

/-- One die's bank control. -/
def State.md (s : State) (d : Nat) : MemDie := Table.get (fun _ => {}) s.memDie d

/-- Change one die's bank control. -/
def State.setMd (s : State) (d : Nat) (x : MemDie) : State := { s with memDie := Table.set (fun _ => {}) s.memDie d x }

/-- The block number of MEM on a die (R18). -/
def memBlk (d : Nat) : Nat := if d = 0 then 8 else 4

/-- Banks of a die (R311). -/
def banksOf (d : Nat) : Nat := if d = 0 then 32 else 24

/-- Wake the bank of an address (R318). -/
def State.wakeBank (s : State) (die bank : Nat) : State :=
  let m := s.md die
  if m.retained.getLsbD bank then s.setMd die { m with retained := m.retained &&& ~~~(1#32 <<< bank) } else s

/-- What the block does at a clock without a command: one Meridian clock passes, unless the next datum is due, which
only DATUM brings (assumption log 1). -/
def State.idle (s : State) : State :=
  if s.sys.porst || s.sys.internal || s.cycleOver then s else s.advance 1

end Sys2Proof.Machine
end

