-- ==== Sys2Proof/Machine/Wdx.lean ====
section
/-! DEFINITION. The Work Dispatcher: descriptors, slots, ready lists, event entries, deadlines and completion records
(chapter 04). -/

namespace Sys2Proof.Machine

/-- Read a descriptor from its eight words; none if it breaks R87 (BADDESC). -/
def Desc.ofWords (w : Nat → Nat) : Option Desc :=
  if w 1 / 256 = 0 ∧ w 0 % 4 = 0 ∧ w 5 / 65536 = 0 ∧ fld (w 7) 5 3 = 0 ∧ fld (w 7) 15 1 = 0 ∧ fld (w 7) 22 10 = 0 then
    some { pc := w 0 + w 1 * 2 ^ 32, arg := w 2 + w 3 * 2 ^ 32, deadline := w 4 + w 5 * 2 ^ 32, tag := w 6,
           prio := fld (w 7) 0 4, rc := bitN (w 7) 4, aff := fld (w 7) 8 7, cmask := fld (w 7) 16 6 }
  else none

/-- Read a descriptor from its 32 bytes. -/
def Desc.ofBytes (l : List Byte) : Option Desc := Desc.ofWords fun i => leAt l (4 * i) 4

/-- Whether an item may run on a core (R88, R91). -/
def Desc.names (d : Desc) (die idx : Nat) : Bool := bitN d.aff die && decide (idx < coresOf die) && bitN d.cmask idx

/-- Whether some core that the descriptor names is in service (R88, NOAFFINITY). -/
def State.affinityOk (s : State) (d : Desc) : Bool :=
  (0 :: s.sheetList).any fun die => s.inService die && (List.range (coresOf die)).any (d.names die)

/-- A work item slot. -/
def Wdx.slot (w : Wdx) (n : Nat) : Slot := Table.get (fun _ => {}) w.slots n

/-- Replace a slot. -/
def Wdx.setSlot (w : Wdx) (n : Nat) (x : Slot) : Wdx := { w with slots := Table.set (fun _ => {}) w.slots n x }

/-- The items, with their slots. -/
def Wdx.items (w : Wdx) : List (Nat × Item) := w.slots.filterMap fun kv => kv.2.item.map fun i => (kv.1, i)

/-- The first number from `k` that `used` does not hold, at most `fuel` tries. -/
def firstFree (used : Nat → Bool) : Nat → Nat → Option Nat
  | 0, _ => none
  | fuel + 1, k => if used k then firstFree used fuel (k + 1) else some k

/-- The lowest free slot (R89). -/
def Wdx.freeSlot (w : Wdx) : Option Nat := firstFree (fun k => (w.slot k).item.isSome) 4096 0

/-- Free slots, for WDX_STAT. -/
def Wdx.freeCount (w : Wdx) : Nat := 4096 - w.items.length

/-- The handle of a slot (R89). -/
def Wdx.handle (w : Wdx) (n : Nat) : Nat := (w.slot n).gen * 4096 + n

/-- Whether an item is READY or STATION. -/
def ItemSt.queued : ItemSt → Bool
  | .ready | .station _ => true
  | _ => false

/-- READY and STATION items at a priority (R93). -/
def Wdx.queuedAt (w : Wdx) (prio : Nat) : Nat := (w.items.filter fun x => x.2.st.queued && x.2.d.prio == prio).length

/-- Whether the items at a priority have reached WDX_PLIMn (R93). -/
def State.prioFull (s : State) (prio : Nat) : Bool := decide (s.rf (rg 0 1 (0x40 + 4 * prio)) 0 13 ≤ s.wdx.queuedAt prio)

/-- Whether the ready list is full for a new item (R93). -/
def State.listFull (s : State) (prio : Nat) : Bool := s.wdx.freeSlot.isNone || s.prioFull prio

/-- Items in a sheet's station. -/
def Wdx.stationCount (w : Wdx) (d : Nat) : Nat := (w.items.filter fun x => x.2.st == .station d).length

/-- Whether item `a` comes before item `b` in the order of R91. -/
def Item.before (a b : Item) : Bool := decide (a.d.prio < b.d.prio) || (a.d.prio == b.d.prio && decide (a.arr < b.arr))

/-- The first item of a list in the order of R91. -/
def firstItem : List (Nat × Item) → Option (Nat × Item)
  | [] => none
  | x :: t =>
    match firstItem t with
    | none => some x
    | some y => if y.2.before x.2 then some y else some x

/-- The last item of a list in the order of R91. -/
def lastItem : List (Nat × Item) → Option (Nat × Item)
  | [] => none
  | x :: t =>
    match lastItem t with
    | none => some x
    | some y => if x.2.before y.2 then some y else some x

/-- Change the item of a slot. -/
def Wdx.updItem (w : Wdx) (n : Nat) (f : Item → Item) : Wdx :=
  match (w.slot n).item with
  | some i => w.setSlot n { w.slot n with item := some (f i) }
  | none => w

/-- A new item displaces a less urgent one from a full station (R92): tried when no named station has room, also when a free hub
core could take it. Of several named stations the one with the lowest die code gives up its item (assumption log 116). -/
def State.displace (s : State) (n : Nat) : State :=
  match (s.wdx.slot n).item with
  | none => s
  | some i =>
    let named := s.sheetList.filter fun d => bitN i.d.aff d && (s.sheet d).st == .inService
    if named.isEmpty || named.any (fun d => decide (s.wdx.stationCount d < 64)) then s
    else
      match named.find? fun d => (lastItem (s.wdx.items.filter fun x => x.2.st == .station d)).any fun x => decide (i.d.prio < x.2.d.prio) with
      | none => s
      | some d =>
        match lastItem (s.wdx.items.filter fun x => x.2.st == .station d) with
        | none => s
        | some (m, _) =>
          { s with wdx := (s.wdx.updItem m fun y => { y with st := .ready }).updItem n fun y => { y with st := .station d } }

/-- An item arrives at WDX and becomes READY in slot `n` (R91, R92). -/
def State.arrive (s : State) (n : Nat) (d : Desc) (evt : Option Nat := none) : State :=
  let w := s.wdx.setSlot n { s.wdx.slot n with item := some { d := d, st := .ready, arr := s.wdx.arrival, evt := evt } }
  { s with wdx := { w with arrival := w.arrival + 1 } }.displace n

/-! ### Event entries -/

/-- KIND of an event entry (R97). -/
def State.evKind (s : State) (e : Nat) : Nat := s.rf (rg 0 1 (0x8000 + 4 * e)) 0 2

/-- The template of an entry, none if it breaks R87 or names no in-service core (R96). -/
def State.template (s : State) (e : Nat) : Option Desc :=
  match Desc.ofWords fun i => (s.rd (rg 0 1 (0x4000 + 32 * e + 4 * i))).toNat with
  | some d => if s.affinityOk d then some d else none
  | none => none

/-- PEND state of an entry. -/
def Wdx.pendOf (w : Wdx) (e : Nat) : Pend := Table.get (fun _ => Pend.idle) w.pend e

/-- Set the PEND state of an entry. -/
def Wdx.setPend (w : Wdx) (e : Nat) (p : Pend) : Wdx := { w with pend := Table.set (fun _ => Pend.idle) w.pend e p }

/-- Count a firing in FIRES, modulo 2^16 (R97). -/
def State.fired (s : State) (e : Nat) : State :=
  if s.sys.wrst then s
  else { s with wdx := { s.wdx with fires := Table.upd (fun _ => 0) s.wdx.fires e fun n => (n + 1) % 65536 } }

/-- Log a firing that is refused, discarded or dropped (R94, R96, R97). -/
def State.evtDrop (s : State) (e word : Nat) : State := s.log 0x0101 2 0 1 e word 0

/-- Create the item of entry `e` from its template (R96); `ofs` marks an item of a coalescing source. -/
def State.createEvt (s : State) (e word count : Nat) (d : Desc) (dl : Option Nat) (ofs : Bool) : State :=
  match s.wdx.freeSlot with
  | none => s
  | some n =>
    let d := { d with tag := word % 2 ^ 24 + min count 255 * 2 ^ 24, deadline := dl.getD d.deadline }
    let t := s.arrive n d (if ofs then some e else none)
    if ofs then { t with wdx := t.wdx.setPend e (.queued n) } else t

/-- A firing by an engine, DMA channel or CTM, which holds the event when the list is full (R94, R96, R97). -/
def State.fireHeld (s : State) (src : EvSrc) (e word : Nat) : State :=
  let s := s.fired e
  if s.evKind e = 0 then s
  else if s.evKind e ≠ 1 then s.evtDrop e word
  else
    match s.template e with
    | none => s.evtDrop e word
    | some d =>
      if s.listFull d.prio || s.wdx.held.any (fun h => h.src == src) then
        { s with wdx := { s.wdx with held := s.wdx.held ++ [⟨src, e, word⟩] } }
      else s.createEvt e word 0 d none false

/-- Whether a source waits for WDX to take its event, and so starts nothing new (R94). -/
def State.holds (s : State) (src : EvSrc) : Bool := s.wdx.held.any fun h => h.src == src

/-- A firing by a coalescing source (R94–R97). -/
def State.fireCoal (s : State) (e word : Nat) : State :=
  let s := s.fired e
  if s.evKind e = 0 then s
  else if s.evKind e ≠ 1 then s.evtDrop e word
  else
    match s.wdx.pendOf e with
    | .queued n => { s with wdx := s.wdx.updItem n fun i =>
        { i with d := { i.d with tag := i.d.tag % 2 ^ 24 + min (i.d.tag / 2 ^ 24 + 1) 255 * 2 ^ 24 } } }
    | .waiting w c => { s with wdx := s.wdx.setPend e (.waiting w (min (c + 1) 255)) }
    | .idle =>
      match s.template e with
      | none => s.evtDrop e word
      | some d =>
        if s.listFull d.prio then { s with wdx := s.wdx.setPend e (.waiting word 0) }
        else s.createEvt e word 0 d none true

/-- A firing of an event register with ENTRY and MASK: code `c` fires if its mask bit is set. -/
def State.fireMasked (s : State) (r c : Nat) (word : Nat) : State :=
  if s.rb r (15 + c) then s.fireCoal (s.rf r 0 9) word else s

/-- A DATUM or PLAN firing: dropped when the list is full (R94, R98). -/
def State.fireDatum (s : State) (e dl : Nat) : State :=
  let word := s.mer.cycle % 2 ^ 24
  let s := s.fired e
  match s.template e with
  | none => s.evtDrop e word
  | some d =>
    if s.listFull d.prio then (s.count (rg 0 1 0x30) 16 16).evtDrop e word
    else s.createEvt e word 0 d (some dl) false

/-! ### Stalled POSTs, held events and pending firings -/

/-- The core whose stalled POST or DELAY came first among those of the list. -/
def firstStall (s : State) : List CoreId → Option (CoreId × Stall)
  | [] => none
  | c :: t =>
    match (s.core c).stall, firstStall s t with
    | none, r => r
    | some x, none => some (c, x)
    | some x, some (c', y) => if y.seq < x.seq then some (c', y) else some (c, x)

/-- Entries of a die's delay list (WDX_DLYn). -/
def Wdx.delayCount (w : Wdx) (die : Nat) : Nat :=
  (w.items.filter fun x => match x.2.st with | .delayed d _ => d == die | _ => false).length

/-- Whether the stalled POST or DELAY of a core now finds its place within its wait (R66, R93): a free slot and, for a POST, room at
its priority; for a DELAY, room in the die's delay list. NOAFFINITY is not checked again (assumption log 112). -/
def State.stallFits (s : State) (c : CoreId) (x : Stall) : Bool :=
  decide (s.upNs ≤ x.limit) &&
    match x.delay with
    | none => !s.listFull x.d.prio
    | some _ => s.wdx.freeSlot.isSome && decide (s.wdx.delayCount c.die < 1024)

/-- Put a descriptor into a delay list (R67, R99). The ticks count from the tick at which the entry gets its slot, also after a
stall (assumption log 113). -/
def State.putDelay (s : State) (die n : Nat) (d : Desc) (ticks : Nat) : State :=
  let st := ItemSt.delayed die (s.wdx.ticks + max ticks 1)
  let w := s.wdx.setSlot n { s.wdx.slot n with item := some { d := d, st := st, arr := s.wdx.arrival } }
  { s with wdx := { w with arrival := w.arrival + 1 } }

/-- A POST or DELAY takes slot `n`: rd holds the handle and the core goes on (R65, R67). -/
def State.placePost (s : State) (c : CoreId) (rd : BitVec 5) (d : Desc) (delay : Option Nat) (n : Nat) : State :=
  let t := match delay with
    | none => s.arrive n d
    | some k => s.putDelay c.die n d k
  t.updCore c fun x => { x.setReg rd (BitVec.ofNat 64 (t.wdx.handle n)) with stall := none, pc := (x.pc + 4) % 2 ^ 64 }

/-- Of each source the event that it held first; the others wait behind it (R94). -/
def heldHeads : List EvSrc → List Held → List Held
  | _, [] => []
  | seen, h :: t => if seen.contains h.src then heldHeads seen t else h :: heldHeads (h.src :: seen) t

/-- The first held event that WDX can accept now, its template's priority being one of `p` (R94, R97). -/
def State.nextHeld (s : State) (p : Nat → Bool) : Option Held :=
  (heldHeads [] s.wdx.held).find? fun h => s.evKind h.entry == 1 && (s.template h.entry).all fun d => p d.prio && !s.listFull d.prio

/-- Take a held event: queue it with the template in force, or discard it if the template is refused (R96, R97). -/
def State.takeHeld (s : State) (h : Held) : State :=
  let t := { s with wdx := { s.wdx with held := s.wdx.held.erase h } }
  match s.template h.entry with
  | none => t.evtDrop h.entry h.word
  | some d => t.createEvt h.entry h.word 0 d none false

/-- Take the first held event that WDX can accept (R94, R97). -/
def State.acceptHeld (s : State) : State :=
  match s.nextHeld fun _ => true with
  | none => s
  | some h => s.takeHeld h

/-- Take the held events of a priority as far as its list has room, which go before a new POST (R94). -/
def acceptAt (prio : Nat) : Nat → State → State
  | 0, s => s
  | fuel + 1, s =>
    match s.nextHeld (· == prio) with
    | none => s
    | some h => acceptAt prio fuel (s.takeHeld h)

/-- The held events that go before a new POST at a priority (R94). -/
def State.acceptFor (s : State) (prio : Nat) : State := acceptAt prio s.wdx.held.length s

/-- End stalls whose place has freed, earliest first; held events at the priority of a POST go before it (R66, R94). -/
def settle : Nat → State → State
  | 0, s => s
  | fuel + 1, s =>
    match firstStall s (s.coreList.filter fun c => (s.core c).stall.any (s.stallFits c)) with
    | none => s
    | some (c, x) =>
      let t := if x.delay.isNone then s.acceptFor x.d.prio else s
      match t.wdx.freeSlot with
      | none => t
      | some n => settle fuel (if t.stallFits c x then t.placePost c x.rd x.d x.delay n else t)

/-- After anything that frees a place. -/
def State.settled (s : State) : State := settle 80 s

/-- Queue a pending firing of a coalescing source once the list has room (R95, R97). -/
def State.queuePend (s : State) (e : Nat) : State :=
  match s.wdx.pendOf e with
  | .waiting w c =>
    if s.evKind e ≠ 1 then s
    else
      match s.template e with
      | none => { s with wdx := s.wdx.setPend e .idle }.evtDrop e w
      | some d => if s.listFull d.prio then s else s.createEvt e w c d none true
  | _ => s

/-! ### Ends of items -/

/-- Clear PEND of the entry whose item leaves READY or STATION (R95). -/
def Wdx.leaveQueue (w : Wdx) (i : Item) : Wdx :=
  match i.evt with
  | some e => w.setPend e .idle
  | none => w

/-- How an item ends (R102). -/
structure Ending where
  /-- 1 DONE, 2 FAULT, 3 EXPIRED, 4 CANCELLED, 5 STRANDED -/
  status : Nat
  die : Nat := 0
  idx : Nat := 0
  result : Nat := 0
  cause : Nat := 0
  epc : Nat := 0
  bada : Nat := 0
  deriving DecidableEq, Repr

/-- The 32 bytes of a completion record (R102). -/
def recordBytes (handle : Nat) (i : Item) (e : Ending) : List Byte :=
  toBytes 4 (handle + e.status * 2 ^ 16 + b01 i.late * 2 ^ 23 + e.die % 16 * 2 ^ 24 + e.idx % 16 * 2 ^ 28)
    ++ toBytes 4 e.result ++ toBytes 4 i.d.tag ++ toBytes 4 e.cause ++ toBytes 8 e.epc ++ toBytes 8 e.bada

/-- Write a completion record to the ring, which wakes its bank, or count it lost (R102, R318). -/
def State.writeRecord (s : State) (l : List Byte) : State :=
  let base := s.rf (rg 0 1 0x20) 0 32 * 256
  let size := 2 ^ s.rf (rg 0 1 0x24) 0 4
  if base = 0 then s
  else if (s.wdx.crHead + 1) % size = s.rf (rg 0 1 0x2C) 0 12 % size then s.count (rg 0 1 0x30) 0 16
  else
    let a := base + s.wdx.crHead * 32
    let t := { (s.wakeBank 0 (bankOf a)).poke a l with ecc := s.ecc.drop (a / 32) }
    { t with wdx := { t.wdx with crHead := (s.wdx.crHead + 1) % size } }

/-- Free a slot: its generation goes up modulo 16 (R89). -/
def Wdx.freeUp (w : Wdx) (n : Nat) : Wdx := w.setSlot n { gen := ((w.slot n).gen + 1) % 16, item := none }

/-- An item ends: its record is written or dropped and its slot freed (R89, R102). -/
def State.endItem (s : State) (n : Nat) (e : Ending) : State :=
  match (s.wdx.slot n).item with
  | none => s
  | some i =>
    let t := if i.d.rc || e.status == 2 then s.writeRecord (recordBytes (s.wdx.handle n) i e) else s
    let w := if i.st.queued then t.wdx.leaveQueue i else t.wdx
    { t with wdx := w.freeUp n }.settled

/-- The core ends its item and is free (R57, R68). -/
def State.endOnCore (s : State) (c : CoreId) (e : Ending) : State :=
  match (s.core c).item with
  | none => s
  | some n => (s.updCore c fun x => { x with item := none, dlpend := false }).endItem n { e with die := c.die, idx := c.idx }

/-! ### Dispatch -/

/-- The item that a free core takes (R91, R92): a hub core from the READY items, a sheet core from its station. -/
def State.candidate (s : State) (c : CoreId) : Option (Nat × Item) :=
  firstItem (s.wdx.items.filter fun x => x.2.d.names c.die c.idx &&
    (if c.die = 0 then x.2.st == .ready else x.2.st == .station c.die))

/-- The item in slot `n` starts on a core, which sets its state under R40. -/
def State.startItem (s : State) (c : CoreId) (n : Nat) (i : Item) : State :=
  let w := (s.wdx.leaveQueue i).updItem n fun y => { y with st := .running c.die c.idx }
  let t := { s with wdx := w }
  (t.updCore c fun x =>
    { x with
      g := [(2, 0xF0010000#64)], pc := i.d.pc, xm := false, sat := false, dlpend := false, item := some n,
      cwid := s.wdx.handle n, carg := i.d.arg, ctime := s.ns + s.mer.sec % 2 ^ 32 * 2 ^ 32, cvec := 0, cdead := i.d.deadline,
      ctag := i.d.tag, prio := i.d.prio, stall := none, tsnap := none, dcache := [] }).settled

/-- Whether a free hub core could take the item now (R92). -/
def State.hubTakes (s : State) (d : Desc) : Bool :=
  (List.range 4).any fun i => d.names 0 i && s.coreLive ⟨0, i⟩ && (s.core ⟨0, i⟩).item.isNone

/-- The sheet whose station the item goes to: IN_SERVICE, named, with room, lowest die code (R92). -/
def State.stationFor (s : State) (d : Desc) : Option Nat :=
  s.sheetList.find? fun k => bitN d.aff k && (s.sheet k).st == .inService && decide (s.wdx.stationCount k < 64)

/-- WDX moves one READY item to a station (R92). -/
def State.stationMove (s : State) : State :=
  match firstItem (s.wdx.items.filter fun x => x.2.st == .ready && !s.hubTakes x.2.d && (s.stationFor x.2.d).isSome) with
  | none => s
  | some (n, i) =>
    match s.stationFor i.d with
    | none => s
    | some d => { s with wdx := s.wdx.updItem n fun y => { y with st := .station d } }

/-! ### Delay lists, deadlines -/

/-- The place of a delayed item in its list: earlier tick first, then earlier DELAY (R67). -/
def Item.tick (i : Item) : Nat :=
  match i.st with
  | .delayed _ t => t
  | _ => 0

/-- The delayed item that expires first among those of a list. -/
def firstDelayed : List (Nat × Item) → Option (Nat × Item)
  | [] => none
  | x :: t =>
    match firstDelayed t with
    | none => some x
    | some y => if y.2.tick < x.2.tick ∨ (y.2.tick = x.2.tick ∧ y.2.arr < x.2.arr) then some y else some x

/-- Whether an item is DELAYED. -/
def ItemSt.isDelayed : ItemSt → Bool
  | .delayed _ _ => true
  | _ => false

/-- Take the delay-list entries that are due at tick `lim`; an entry that finds its list full stays at its place
(R94, R99). -/
def expire (lim : Nat) : Nat → List Nat → State → State
  | 0, _, s => s
  | fuel + 1, skip, s =>
    match firstDelayed (s.wdx.items.filter fun x => x.2.st.isDelayed && decide (x.2.tick ≤ lim) && !skip.contains x.1) with
    | none => s
    | some (n, i) =>
      if s.prioFull i.d.prio then expire lim fuel (n :: skip) s else expire lim fuel skip (s.arrive n i.d i.evt)

/-- The delay-list expiries of the ticks up to `lim`, once per tick (R99). -/
def State.expireTo (s : State) (lim : Nat) : State :=
  if s.wdx.tickDone < lim then
    let t := expire lim 7168 [] s
    { t with wdx := { t.wdx with tickDone := lim } }
  else s

/-- Whether the last tick fell on the Meridian clock that has just passed, which added `inc` (R98, R99). -/
def Wdx.onTick (w : Wdx) (inc : Nat) : Bool := decide (w.tickAcc < inc)

/-- Whether a deadline has passed (R101). -/
def Item.overdue (i : Item) (cycle : Nat) : Bool := i.d.deadline != 0 && decide (i.d.deadline ≤ cycle)

/-- End the listed items without running them. -/
def endAll (status : Nat) : List Nat → State → State
  | [], s => s
  | n :: t, s => endAll status t (s.endItem n { status := status })

/-- A POST stall ends with a refusal in rd (R62, R66). -/
def Core.endStall (x : Core) (code : Nat) : Core :=
  match x.stall with
  | none => x
  | some y => { x.setReg y.rd (BitVec.ofNat 64 (2 ^ 63 + code)) with stall := none, pc := (x.pc + 4) % 2 ^ 64 }

/-- WDX signals DEADLINE to the core of a running item, which also ends a stall (R66, R101). -/
def State.signalDeadline (s : State) (n : Nat) (i : Item) : State :=
  match i.st with
  | .running d k =>
    let t := { s with wdx := s.wdx.updItem n fun y => { y with late := true } }
    if i.late then t else t.updCore ⟨d, k⟩ fun x => { x.endStall 1 with dlpend := true }
  | _ => s

/-- Signal DEADLINE to every listed item. -/
def signalAll : List (Nat × Item) → State → State
  | [], s => s
  | (n, i) :: t, s => signalAll t (s.signalDeadline n i)

/-- The deadline check of a datum (R98 step 1, R101). The items that expire end in rising slot number, which the spec leaves open
(assumption log 114). -/
def State.checkDeadlines (s : State) : State :=
  let late := s.wdx.items.filter fun x => x.2.overdue s.mer.cycle
  let run := late.filter fun x => !(x.2.st.queued || x.2.st.isDelayed)
  let wait := late.filter fun x => x.2.st.queued || x.2.st.isDelayed
  endAll 3 (wait.map (·.1)) (signalAll run s)

/-- The first cycle after the present one that is a whole multiple of `n`; the counter wraps to 0, a multiple of every `n`. -/
def State.nextMultiple (s : State) (n : Nat) : Nat := min ((s.mer.cycle / n + 1) * n) (2 ^ 48)

/-- The next plan datum after the present cycle: a multiple of the N in force or of a written N that waits, which takes effect at the
first multiple of its own (R35, R36). -/
def State.nextPlan (s : State) : Nat := min (s.nextMultiple s.mer.planN) (s.nextMultiple (s.rf (rg 0 2 0x1C) 0 7)) % 2 ^ 48

/-- Fire the entries of the list that have the given KIND. -/
def fireKind (kind dl : Nat) : List Nat → State → State
  | [], s => s
  | e :: t, s => fireKind kind dl t (if s.evKind e = kind then s.fireDatum e dl else s)

/-- End the POST waits that ran out before the present instant (R66, R93). -/
def State.endWaits (s : State) : State :=
  (s.coreList.filter fun c => (s.core c).stall.any fun x => decide (x.limit ≤ s.upNs)).foldl (fun s c => s.updCore c fun x => x.endStall 1) s

/-- What WDX does at a datum (R98), after the waits and the delay ticks that ended before it. -/
def State.wdxDatum (s : State) (plan : Bool) : State :=
  let on := s.wdx.onTick s.mer.inc
  let s := s.endWaits.expireTo (if on then s.wdx.ticks - 1 else s.wdx.ticks)
  let s := s.checkDeadlines
  let entries := (s.regs.filter fun kv => decide (rg 0 1 0x8000 ≤ kv.1 ∧ kv.1 < rg 0 1 0x8800)).map fun kv => (kv.1 - rg 0 1 0x8000) / 4
  let s := fireKind 2 ((s.mer.cycle + 1) % 2 ^ 48) entries s
  let s := if plan then fireKind 3 s.nextPlan entries s else s
  if on then s.expireTo s.wdx.ticks else s

/-- Items of a sheet that are STRANDED when its drain completes (R103). -/
def State.strand (s : State) : State :=
  endAll 5 ((s.wdx.items.filter fun x => (x.2.st == .ready || x.2.st.isDelayed) && !s.affinityOk x.2.d).map (·.1)) s

/-- A sheet's station returns the items that another in-service die may run (R103). -/
def State.closeStation (s : State) (d : Nat) : State :=
  let back := s.wdx.items.filter fun x => x.2.st == .station d &&
    (0 :: s.sheetList).any fun k => k != d && s.inService k && bitN x.2.d.aff k
  { s with wdx := back.foldl (fun w x => w.updItem x.1 fun y => { y with st := .ready }) s.wdx }

/-- STATE and DIE of WDX_HQUERY for an item state. -/
def ItemSt.report : ItemSt → Nat
  | .delayed _ _ => 1
  | .ready => 2
  | .station d => 3 + 16 * d
  | .running d _ => 4 + 16 * d

/-- The state of the item that a handle names, as WDX_HQUERY reports it: STATE in [2:0], DIE in [7:4] (R90). -/
def Wdx.query (w : Wdx) (handle : Nat) : Nat :=
  let x := w.slot (handle % 4096)
  if x.gen ≠ handle / 4096 % 16 then 0
  else
    match x.item with
    | none => 0
    | some i => i.st.report

/-- A cancellation (R90, R104): the state after it and its RESULT. A handle whose slot holds no item is STALE, also where its
generation matches (assumption log 115). -/
def State.cancelItem (s : State) (handle : Nat) : State × Nat :=
  let n := handle % 4096
  match s.wdx.query handle % 16 with
  | 0 => (s, 2)
  | 4 => (s, 3)
  | _ => (s.endItem n { status := 4 }, 1)

/-- Discard the held and pending firings of an entry whose KIND becomes 2 or 3 (R97). -/
def State.dropFirings (s : State) (e : Nat) : State :=
  let gone := s.wdx.held.filter fun h => h.entry == e
  let t := gone.foldl (fun t h => t.evtDrop e h.word) { s with wdx := { s.wdx with held := s.wdx.held.filter fun h => h.entry != e } }
  match t.wdx.pendOf e with
  | .waiting w _ => { t with wdx := t.wdx.setPend e .idle }.evtDrop e w
  | _ => t

end Sys2Proof.Machine
end

