-- ==== Sys2Proof/Machine/Mem.lean ====
section
/-! DEFINITION. Checked accesses to the banks: ECC, retention, the scrubber (chapter 12), and the Reed–Solomon code of
R314. -/

namespace Sys2Proof.Machine

/-! ### The code of R314 -/

/-- Multiply by α = 0x02 in GF(2^8) with x^8 + x^4 + x^3 + x^2 + 1. -/
def gfTwice (a : Byte) : Byte := if a.getLsbD 7 then (a <<< 1) ^^^ 0x1D#8 else a <<< 1

/-- Multiplication in GF(2^8), over the bits of `b` from the lowest. -/
def gfMulAux : Nat → Byte → Byte → Byte
  | 0, _, _ => 0
  | n + 1, a, b => (if b.getLsbD 0 then a else 0) ^^^ gfMulAux n (gfTwice a) (b >>> 1)

/-- Multiplication in GF(2^8). -/
def gfMul (a b : Byte) : Byte := gfMulAux 8 a b

/-- α to a power. -/
def alphaPow : Nat → Byte
  | 0 => 1
  | n + 1 => gfTwice (alphaPow n)

/-- Multiply a polynomial, highest coefficient first, by (x + a). -/
def polyTimes (p : List Byte) (a : Byte) : List Byte :=
  List.zipWith (· ^^^ ·) (p ++ [0]) (0 :: p.map (gfMul a))

/-- The generator (x + α^0) … (x + α^7), highest coefficient first. -/
def rsGen : List Byte := (List.range 8).foldl (fun p i => polyTimes p (alphaPow i)) [1]

/-- One step of the division by the generator: the remainder register after one more data byte. -/
def rsStep (r : List Byte) (d : Byte) : List Byte :=
  let f := d ^^^ r.headD 0
  List.zipWith (fun x g => x ^^^ gfMul f g) (r.drop 1 ++ [0]) (rsGen.drop 1)

/-- The check bytes c0–c7 of data bytes d0–d31 (R314). -/
def rsCheck (d : List Byte) : List Byte := d.foldl rsStep (List.replicate 8 0)

/-- The stored 320-bit word: d0–d31 then c0–c7 (R314). -/
def rsWord (d : List Byte) : List Byte := d ++ rsCheck d

/-! ### Checked accesses -/

/-- Report an uncorrectable error: count, address, Field Book and MEM_EVT (R315). -/
def State.reportUncorr (s : State) (w src : Nat) : State :=
  let d := (sramDie (32 * w)).getD 0
  let b := memBlk d
  let t := (s.count (rg d b 0x08) 16 16).setMd d { s.md d with eccAddr := 32 * w, eccSrc := src }
  let t := t.log 0x0600 3 d b (32 * w) src d
  if t.rb (rg d b 0x24) 16 then t.fireCoal (t.rf (rg d b 0x24) 0 9) (2 ^ 16 + d * 256 + bankOf (32 * w)) else t

/-- Byte symbols in error in a word. -/
def State.badSyms (s : State) (w : Nat) : Nat := Table.get (fun _ => 0) s.ecc w

/-- Decode a word on a read: corrected silently up to 4 symbols, reported beyond (R315). -/
def State.checkWord (s : State) (w src : Nat) : State × Bool :=
  let t := s.wakeBank ((sramDie (32 * w)).getD 0) (bankOf (32 * w))
  if s.badSyms w = 0 then (t, true)
  else if s.badSyms w ≤ 4 then
    let d := (sramDie (32 * w)).getD 0
    (t.count (rg d (memBlk d) 0x08) 0 16, true)
  else (t.reportUncorr w src, false)

/-- Decode every word of a list. -/
def checkWords (src : Nat) : List Nat → State → State × Bool
  | [], s => (s, true)
  | w :: l, s =>
    let (t, a) := s.checkWord w src
    let (u, b) := checkWords src l t
    (u, a && b)

/-- Read bytes of SRAM through a bank; none when a word is uncorrectable (R315). -/
def State.readMem (s : State) (a n src : Nat) : State × Option (List Byte) :=
  let (t, ok) := checkWords src (wordsOf a n) s
  (t, if ok then some (s.bytes a n) else none)

/-- Keep what a word of the hub's banks holds before a write (R274). -/
def State.noteOld (s : State) (w : Nat) : State :=
  if sramDie (32 * w) = some 0 then
    s.setMd 0 { s.md 0 with old := ⟨s.mer.clocks, w, s.bytes (32 * w) 32, s.badSyms w⟩ :: (s.md 0).old.filter fun x => decide (s.mer.clocks ≤ x.at_ + 1000) }
  else s

/-- The hub's banks as they stood at a Meridian clock of the last 1,000: the writes made after it are taken back. -/
def State.asAt (s : State) (clock : Nat) : State :=
  ((s.md 0).old.filter fun x => decide (clock < x.at_)).foldl (fun t x =>
    { t.poke (32 * x.word) x.bytes with ecc := Table.set (fun _ => 0) t.ecc x.word x.syms }) s

/-- Write the part of a byte string that falls into one word: a whole word outright, a part by read-modify-write, which
leaves the word unchanged when it reads an uncorrectable error (R58, R320). -/
def State.writeWord (s : State) (w a : Nat) (l : List Byte) : State × Bool :=
  let lo := max a (32 * w)
  let hi := min (a + l.length) (32 * w + 32)
  let part := (l.drop (lo - a)).take (hi - lo)
  let s := s.noteOld w
  if hi - lo = 32 then ({ (s.wakeBank ((sramDie lo).getD 0) (bankOf lo)).poke lo part with ecc := s.ecc.drop w }, true)
  else
    let (t, ok) := s.checkWord w 3
    if ok then ({ t.poke lo part with ecc := t.ecc.drop w }, true) else (t, false)

/-- Write word by word. -/
def writeWords (a : Nat) (l : List Byte) : List Nat → State → State × Bool
  | [], s => (s, true)
  | w :: ws, s =>
    let (t, x) := s.writeWord w a l
    let (u, y) := writeWords a l ws t
    (u, x && y)

/-- Port 0 has written words of a bank of die `d` at the present Meridian clock (R313). -/
def State.notePort0 (s : State) (d : Nat) (ws : List Nat) : State :=
  let m := s.md d
  s.setMd d { m with p0 := if m.p0At = s.mer.clocks then ws ++ m.p0 else ws, p0At := s.mer.clocks }

/-- Port 1 writes a word: where port 0 wrote it at the same Meridian clock, it is free whether they met in one window, which counts
as a collision and is logged under COLLOG; the port-1 bytes stand (R313, assumption log 109). -/
def State.noteCollision (s : State) (w : Nat) : State :=
  let d := (sramDie (32 * w)).getD 0
  let m := s.md d
  if m.p0At = s.mer.clocks ∧ m.p0.contains w ∧ Config.sameWindow s.mer.clocks w then
    let t := s.count (rg d (memBlk d) 0x0C) 0 16
    if s.rb (rg d (memBlk d) 0x04) 1 then t.log 0x0601 1 d (memBlk d) (32 * w) d 0 else t
  else s

/-- Write bytes of SRAM by port 1 of a bank; false when a read-modify-write met an uncorrectable error (R312, R313, R320). -/
def State.writeMem (s : State) (a : Nat) (l : List Byte) : State × Bool :=
  let ws := wordsOf a l.length
  let (t, ok) := writeWords a l ws s
  (ws.foldl State.noteCollision t, ok)

/-- Write bytes of SRAM by port 0 of a bank of die `d`, which serves that die's cores (R312, R313). -/
def State.writeMem0 (s : State) (d a : Nat) (l : List Byte) : State × Bool :=
  let ws := wordsOf a l.length
  let (t, ok) := writeWords a l ws s
  (if ok then t.notePort0 d ws else t, ok)

/-- Whether every die that holds bytes of the range answers (R326). -/
def State.rangeAnswers (s : State) (a n : Nat) : Bool :=
  match sramDie a, sramDie (a + n - 1) with
  | some d, some e => s.answers d && s.answers e
  | _, _ => false

/-! ### Scrubber and retention -/

/-- First word of a bank and its number of words (R311, R316). -/
def bankWords (d b : Nat) : Nat × Nat :=
  if d = 0 then (b * 0x100000 / 32, 32768) else ((0x10000000 + (d - 1) * 0x01000000 + b * 0x80000) / 32, 16384)

/-- The scrubber visits the next word of a bank, whatever the service state of its sheet: R316 exempts retention alone. -/
def State.scrubVisit (s : State) (d b : Nat) : State :=
  if s.dieFitted d ∧ b < banksOf d ∧ s.rb (rg d (memBlk d) 0x04) 0 ∧ !(s.md d).retained.getLsbD b then
    let (base, n) := bankWords d b
    let k := Table.get (fun _ => 0) (s.md d).scrub b
    let w := base + k
    let m := { s.md d with scrub := Table.set (fun _ => 0) (s.md d).scrub b ((k + 1) % n) }
    let t := s.setMd d m
    let (u, ok) := t.checkWord w 2
    if ok then { u with ecc := u.ecc.drop w } else u
  else s

/-- A write of MEM_RET: a bit that rises puts its bank into retention, a bit that falls ends it (R318). -/
def State.writeRet (s : State) (d : Nat) (v : W32) : State :=
  let r := rg d (memBlk d) 0x1C
  let old := s.rd r
  let new := plainWrite r old v
  (s.wr r new).setMd d { s.md d with retained := ((s.md d).retained ||| (new &&& ~~~old)) &&& new }

end Sys2Proof.Machine
end

