-- ==== Sys2Proof/Machine/Core0.lean ====
section
/-! DEFINITION. What every Brorok instruction shares: exceptions, the fetch, the caches and local memory (chapter 02). -/

namespace Sys2Proof.Machine

/-- An exception (R55): code, sub-code, ASYNC, FETCH and the address, where there is one. -/
structure Exc where
  code : Nat
  tcode : Nat := 0
  async : Bool := false
  fetch : Bool := false
  bada : Option Nat := none
  deriving DecidableEq, Repr

/-- The exception in the CCAUSE layout (R42). -/
def Exc.cause (e : Exc) : Nat := e.code + b01 e.async * 256 + b01 e.fetch * 512 + e.tcode * 65536

/-- ILLEGAL (R55). -/
def excIllegal : Exc := { code := 1 }
/-- ALIGN at an address. -/
def excAlign (a : Nat) : Exc := { code := 2, bada := some a }
/-- BUSERR at an address or selector. -/
def excBus (a : Nat) : Exc := { code := 3, bada := some a }
/-- ECC_UNCORR at an address. -/
def excEcc (a : Nat) : Exc := { code := 4, bada := some a }
/-- ADDR at an address. -/
def excAddr (a : Nat) : Exc := { code := 5, bada := some a }
/-- ATOMIC at an address. -/
def excAtomic (a : Nat) : Exc := { code := 8, bada := some a }
/-- CELLADDR with its sub-code (R63). -/
def excCell (sub a : Nat) : Exc := { code := 0x10, tcode := sub, bada := some a }
/-- ENGADDR with its sub-code and the selector (R63). -/
def excEng (sub sel : Nat) : Exc := { code := 0x11, tcode := sub, bada := some sel }

/-- Take an exception (R57): enter the handler, or end the item with FAULT when there is none or one is running. -/
def State.takeExc (s : State) (c : CoreId) (e : Exc) : State :=
  let x := s.core c
  if x.xm ∨ x.cvec = 0 then
    let t := s.log 0x0100 3 c.die 1 x.cwid e.cause x.pc
    t.endOnCore c { status := 2, cause := e.cause, epc := x.pc, bada := e.bada.getD 0 }
  else
    s.setCore c { x with cepc := x.pc, ccause := e.cause, cbada := e.bada.getD x.cbada, xm := true, pc := x.cvec }

/-- What an instruction ends in: a state, or an exception at a state. -/
inductive CRes where
  | ok (s : State)
  | exc (s : State) (e : Exc)
  deriving DecidableEq, Repr

/-- The pc goes on by one word. -/
def State.pc4 (s : State) (c : CoreId) : State := s.updCore c fun x => { x with pc := (x.pc + 4) % 2 ^ 64 }

/-- Write rd and go on. -/
def State.put (s : State) (c : CoreId) (rd : BitVec 5) (v : W64) : State :=
  s.updCore c fun x => { x.setReg rd v with pc := (x.pc + 4) % 2 ^ 64 }

/-- Write rd, set CSTAT.SAT if the operation saturated, and go on (R39). -/
def State.putSat (s : State) (c : CoreId) (rd : BitVec 5) (r : W64 × Bool) : State :=
  s.updCore c fun x => { x.setReg rd r.1 with pc := (x.pc + 4) % 2 ^ 64, sat := x.sat || r.2 }

/-- A general register of a core. -/
def State.reg (s : State) (c : CoreId) (r : BitVec 5) : W64 := (s.core c).reg r

/-! ### Registers as targets -/

/-- Whether a register address names a block of R18 on a die that answers (R3, R19, R326). -/
def State.regOk (s : State) (r : Nat) : Bool :=
  let d := r / 2 ^ 24
  let b := fld r 16 8
  if d = 0 then decide (b ≤ 0x0F)
  else if d = 0x0C then b == 0
  else s.answers d && decide (b ≤ 5)

/-! ### Caches and local memory -/

/-- Bytes of local memory; after WRST_N the unwritten bytes are free values (R54, R317). -/
def Core.lmByte (x : Core) (key off : Nat) : Byte :=
  Table.get (fun o => match x.lmEpoch with
    | none => 0#8
    | some n => Config.freeLocal (n * 128 + key) o) x.lm off

/-- Write a byte of local memory. -/
def Core.lmPut (x : Core) (off : Nat) : List Byte → Core
  | [] => x
  | b :: t =>
    match x.lmEpoch with
    | none => { x with lm := Table.set (fun _ => 0#8) x.lm off b }.lmPut (off + 1) t
    | some _ => { x with lm := x.lm.put off b }.lmPut (off + 1) t

/-- Report a local-memory error (R54, R315): counted, recorded, logged. -/
def State.reportLm (s : State) (die off src : Nat) : State :=
  let b := memBlk die
  let a := 0xF0000000 + off / 32 * 32
  let t := (s.count (rg die b 0x10) 16 16).setMd die { s.md die with eccAddr := a, eccSrc := src }
  let t := t.log 0x0600 3 die b a src die
  if t.rb (rg die b 0x24) 16 then t.fireCoal (t.rf (rg die b 0x24) 0 9) (2 ^ 16 + die * 256 + 0xFF) else t

/-- Read local memory: none when the word is uncorrectable (R54). -/
def State.readLm (s : State) (c : CoreId) (off n : Nat) : State × Option (List Byte) :=
  let x := s.core c
  let bad := Table.get (fun _ => 0) x.lmEcc (off / 32)
  let l := (List.range n).map fun i => x.lmByte (coreKey c) (off + i)
  if bad = 0 then (s, some l)
  else if bad ≤ 4 then (s.count (rg c.die (memBlk c.die) 0x10) 0 16, some l)
  else (s.reportLm c.die off 0, none)

/-- Put a line into a cache of 128 sets of 4 ways in place of its older copy; a full set loses one line, free which (chapter 02). -/
def cachePut (k : Nat) (l : List CLine) (n : CLine) : List CLine :=
  let l := l.filter fun x => x.line != n.line
  let mates := l.filter fun x => x.line % 128 == n.line % 128
  if mates.length < 4 then n :: l
  else
    let victim := (mates.drop (Config.freeWay k % 4)).headD n
    n :: l.erase victim

/-- A line fill (R51): both ECC words are read; the line is allocated when both are good. False when the addressed word is
uncorrectable. -/
def State.lineFill (s : State) (c : CoreId) (a : Nat) (icache : Bool) : State × Bool :=
  let src := if sramDie a = some c.die then 0 else 1
  let line := a / 64
  let (s, own) := s.checkWord (a / 32) src
  let (s, other) := s.checkWord (4 * line + 1 - a / 32) src
  if own && other then
    let n : CLine := { line := line, data := s.bytes (64 * line) 64 }
    let t := s.updCore c fun x => if icache then { x with icache := cachePut s.freeCtr x.icache n } else { x with dcache := cachePut s.freeCtr x.dcache n }
    ({ t with freeCtr := t.freeCtr + 1 }, true)
  else (s, own)

/-- The line of a cache that holds an address; one whose parity is wrong is invalid (R54). -/
def lineOf (l : List CLine) (a : Nat) : Option CLine := l.find? fun x => x.line == a / 64 && x.par

/-- Whether the line of an address is present with wrong parity, so that it is refetched (R54). -/
def lineBad (l : List CLine) (a : Nat) : Bool := l.any fun x => x.line == a / 64 && !x.par

/-- Load bytes of SRAM or local memory with a hint (R51, R53): none after an uncorrectable error. -/
def State.load (s : State) (c : CoreId) (a n : Nat) (hint : Nat) : State × Option (List Byte) :=
  let src := if sramDie a = some c.die then 0 else 1
  match whereIs a with
  | .loc off => s.readLm c off n
  | _ =>
    match hint, lineOf (s.core c).dcache a with
    | 1, _ => s.readMem a n src
    | _, some l => (s, some (slice l.data (a % 64) n))
    | k, none =>
      if k = 2 ∧ lineBad (s.core c).dcache a = false then s.readMem a n src
      else
        let (t, ok) := s.lineFill c a false
        (t, if ok then some (t.bytes a n) else none)

/-- Update a line that is present (R51). -/
def lineStore (l : List CLine) (a : Nat) (b : List Byte) : List CLine :=
  l.map fun x => if x.line = a / 64 then { x with data := x.data.take (a % 64) ++ b ++ x.data.drop (a % 64 + b.length) } else x

/-- Store bytes to SRAM or local memory (R51, R58): an uncorrectable read-modify-write leaves the word and raises a pending
asynchronous error. R58 says so of SRAM; the model takes local memory, which has the same words (R54), to do the same
(assumption log 119). -/
def State.store (s : State) (c : CoreId) (a : Nat) (b : List Byte) : State :=
  match whereIs a with
  | .loc off =>
    let bad := Table.get (fun _ => 0) (s.core c).lmEcc (off / 32)
    if 4 < bad then (s.reportLm c.die off 3).updCore c fun x => { x with asyncEcc := some a }
    else
      let t := if bad = 0 then s else s.count (rg c.die (memBlk c.die) 0x10) 0 16
      t.updCore c fun x => { x.lmPut off b with lmEcc := x.lmEcc.drop (off / 32) }
  | _ =>
    let (t, ok) := if sramDie a = some c.die then s.writeMem0 c.die a b else s.writeMem a b
    if ok then t.updCore c fun x => { x with dcache := lineStore x.dcache a b }
    else t.updCore c fun x => { x with asyncEcc := some a }

/-! ### The checks of R48 -/

/-- Whether an address outside register space answers (R3, R20). -/
def State.addrOk (s : State) (a : Nat) : Bool :=
  match whereIs a with
  | .hub _ | .loc _ => true
  | .sheet d _ => s.answers d
  | _ => false

/-- The checks of an access of `n` bytes (R48); `word` for LW, LWU and SW. -/
def State.accCheck (s : State) (a n : Nat) (word : Bool) : Option Exc :=
  if 2 ^ 40 ≤ a then some (excAddr a)
  else
    match whereIs a with
    | .reg r => if word && a % 4 == 0 && s.regOk r then none else some (excBus a)
    | _ => if a % n ≠ 0 then some (excAlign a) else if s.addrOk a then none else some (excBus a)

/-- The checks of a memory operand of a cell instruction (R56, R64): register space raises CELLADDR; with `eng`, local
memory too. -/
def State.cellCheck (s : State) (a n : Nat) (eng : Bool) : Option Exc :=
  if 2 ^ 40 ≤ a then some (excAddr a)
  else
    match whereIs a with
    | .reg _ => some (excCell 1 a)
    | .loc _ => if eng then some (excCell 2 a) else if a % n ≠ 0 then some (excAlign a) else none
    | _ => if a % n ≠ 0 then some (excAlign a) else if s.addrOk a then none else some (excBus a)

/-- The checks of the target of AADD and ACAS (R49, R56). -/
def State.atomicCheck (s : State) (a n : Nat) : Option Exc :=
  if 2 ^ 40 ≤ a then some (excAddr a)
  else
    match whereIs a with
    | .reg _ | .loc _ => some (excAtomic a)
    | _ => if a % n ≠ 0 then some (excAlign a) else if s.addrOk a then none else some (excBus a)

/-- The fetch from pc (R48, R51, R56): it may raise an exception with FETCH = 1, and it fills the I-cache. -/
def State.fetch (s : State) (c : CoreId) : State × Option Exc :=
  let a := (s.core c).pc
  match s.accCheck a 4 false with
  | some e => (s, some { e with fetch := true })
  | none =>
    match whereIs a with
    | .loc off =>
      let (t, r) := s.readLm c off 4
      (t, if r.isSome then none else some { excEcc a with fetch := true })
    | _ =>
      if (lineOf (s.core c).icache a).isSome then (s, none)
      else
        let (t, ok) := s.lineFill c a true
        (t, if ok then none else some { excEcc a with fetch := true })

/-! ### One instruction -/

/-- Whether the core can execute an instruction now: its die is live, it runs an item and no POST stalls it. -/
def State.canRun (s : State) (c : CoreId) : Bool :=
  s.coreLive c && (s.core c).item.isSome && (s.core c).stall.isNone

/-- The exception that is pending at the instruction boundary: a lost store's error, then DEADLINE outside a handler
(R58, R59). -/
def Core.boundary (x : Core) : Option Exc :=
  match x.asyncEcc with
  | some a => some { code := 4, async := true, bada := some a }
  | none => if x.dlpend && !x.xm then some { code := 9, async := true } else none

/-- Take the exception pending at the boundary. -/
def State.takeBoundary (s : State) (c : CoreId) (e : Exc) : State :=
  (s.updCore c fun x => if e.code = 9 then { x with dlpend := false } else { x with asyncEcc := none }).takeExc c e

/-- One instruction of a core: the pending exception if there is one, else the fetch and the body. -/
def runInstr (c : CoreId) (body : State → CRes) (s : State) : State :=
  if !s.canRun c then s
  else
    match (s.core c).boundary with
    | some e => s.takeBoundary c e
    | none =>
      match s.fetch c with
      | (t, some e) => t.takeExc c e
      | (t, none) =>
        match body t with
        | .ok u => u
        | .exc u e => u.takeExc c e

end Sys2Proof.Machine
end

