-- ==== Sys2Proof/Machine/CoreCell.lean ====
section
/-! DEFINITION. The cell instructions of Brorok that need no engine: POST, DELAY, DONE, TSAMP, QMUL, QMAC, LUTI, and the end
of a POST stall (chapter 03). -/

namespace Sys2Proof.Machine

/-- The refusal value of R62. -/
def refusal (code : Nat) : W64 := BitVec.ofNat 64 (2 ^ 63 + code)

/-- Read the descriptor at an address as cached loads (R65): the bytes or the exception. -/
def State.readDesc (s : State) (c : CoreId) (a : Nat) : State × (Exc ⊕ List Byte) :=
  match s.cellCheck a 32 false with
  | some e => (s, .inl e)
  | none =>
    match s.load c a 32 0 with
    | (t, some l) => (t, .inr l)
    | (t, none) => (t, .inl (excEcc a))

/-- The core stalls for a place, or ends with BUSY at once when WDX_POSTWAIT is 0 (R66, R93). -/
def State.stallOr (s : State) (c : CoreId) (rd : Reg) (d : Desc) (delay : Option Nat) : State :=
  if s.rf (rg 0 1 0x04) 0 16 = 0 then s.put c rd (refusal 1)
  else
    let x : Stall := { rd := rd, d := d, delay := delay, seq := s.wdx.stallSeq, limit := s.upNs + 10 * s.rf (rg 0 1 0x04) 0 16 }
    { s with wdx := { s.wdx with stallSeq := s.wdx.stallSeq + 1 } }.updCore c fun y => { y with stall := some x }

/-- The effect of POST (R65, R66, R88); held events at its priority go before it (R94). -/
def State.post (s : State) (c : CoreId) (rd ra : Reg) : CRes :=
  match s.readDesc c (s.reg c ra).toNat with
  | (t, .inl e) => .exc t e
  | (t, .inr l) =>
    match Desc.ofBytes l with
    | none => .ok (t.put c rd (refusal 4))
    | some d =>
      if !t.affinityOk d then .ok (t.put c rd (refusal 3))
      else
        let u := t.acceptFor d.prio
        if u.listFull d.prio then .ok (u.stallOr c rd d none)
        else
          match u.wdx.freeSlot with
          | some n => .ok (u.placePost c rd d none n)
          | none => .ok (u.stallOr c rd d none)

/-- POST: queue a work item (R65, R66, R88). -/
def execPost (c : CoreId) (rd ra : Reg) (s : State) : Out := .next (runInstr c (fun t => t.post c rd ra) s)

/-- POST_BUSY: the stall of POST or DELAY reaches WDX_POSTWAIT and ends with BUSY (R66, R93). -/
def execPostBusy (c : CoreId) (s : State) : Out :=
  .next (if s.coreLive c && (s.core c).stall.any (fun x => decide (x.limit ≤ s.upNs)) then s.updCore c fun x => x.endStall 1 else s)

/-- The effect of DELAY (R67, R88). -/
def State.delay (s : State) (c : CoreId) (rd ra rb : Reg) : CRes :=
  match s.readDesc c (s.reg c ra).toNat with
  | (t, .inl e) => .exc t e
  | (t, .inr l) =>
    let k := (t.reg c rb).toNat
    match Desc.ofBytes l with
    | none => .ok (t.put c rd (refusal 4))
    | some d =>
      if !t.affinityOk d then .ok (t.put c rd (refusal 3))
      else if 2 ^ 32 ≤ k then .ok (t.put c rd (refusal 6))
      else if 1024 ≤ t.wdx.delayCount c.die then .ok (t.put c rd (refusal 2))
      else
        match t.wdx.freeSlot with
        | some n => .ok (t.placePost c rd d (some k) n)
        | none => .ok (t.stallOr c rd d (some k))

/-- DELAY: place an item in the die's delay list (R67, R88). -/
def execDelay (c : CoreId) (rd ra rb : Reg) (s : State) : Out := .next (runInstr c (fun t => t.delay c rd ra rb) s)

/-- DONE: end the item with status DONE (R68). -/
def execDone (c : CoreId) (ra : Reg) (s : State) : Out :=
  .next (runInstr c (fun t => .ok (t.endOnCore c { status := 1, result := (t.reg c ra).toNat % 2 ^ 32 })) s)

/-- The snapshot that TSAMP with sel 1 or 2 reads: the one that the other of its pair took, or a new one, which then waits for the
other; cycle counter and nanoseconds (R74, assumption log 117). -/
def State.pairSnap (s : State) (c : CoreId) (sel : Nat) : (Nat × Nat) × Option (Nat × Nat × Nat) :=
  let new := ((s.mer.cycle, s.phaseNs), some (3 - sel, s.mer.cycle, s.phaseNs))
  match (s.core c).tsnap with
  | some (k, v) => if k = sel then (v, none) else new
  | none => new

/-- The effect of TSAMP (R74). -/
def State.tsamp (s : State) (c : CoreId) (rd : Reg) (sel : Nat) : CRes :=
  let v := s.ns + s.mer.sec % 2 ^ 32 * 2 ^ 32
  match sel with
  | 0 => .ok ((s.updCore c fun x => { x with ctime := v }).put c rd (BitVec.ofNat 64 v))
  | 1 =>
    let r := s.pairSnap c 1
    .ok ((s.updCore c fun x => { x with tsnap := r.2 }).put c rd (BitVec.ofNat 64 r.1.1))
  | 2 =>
    let r := s.pairSnap c 2
    .ok ((s.updCore c fun x => { x with tsnap := r.2 }).put c rd (BitVec.ofNat 64 r.1.2))
  | _ => .exc s excIllegal

/-- TSAMP (R74). -/
def execTsamp (c : CoreId) (rd : Reg) (sel : BitVec 5) (s : State) : Out := .next (runInstr c (fun t => t.tsamp c rd sel.toNat) s)

/-- The effect of QMUL and QMAC on a core (R64, R75). -/
def State.qop (s : State) (c : CoreId) (rd ra rb : Reg) (sh : BitVec 5) (l k mac : Bool) : CRes :=
  if k then .exc s { code := 0x12, tcode := 2 }
  else .ok (s.putSat c rd (aluQ (if mac then (s.reg c rd).toInt else 0) (s.reg c ra) (lowS (s.reg c rb)) sh.toNat l))

/-- QMUL (R75). -/
def execQmul (c : CoreId) (rd ra rb : Reg) (sh : BitVec 5) (l k : Bool) (s : State) : Out :=
  .next (runInstr c (fun t => t.qop c rd ra rb sh l k false) s)

/-- QMAC (R75). -/
def execQmac (c : CoreId) (rd ra rb : Reg) (sh : BitVec 5) (l k : Bool) (s : State) : Out :=
  .next (runInstr c (fun t => t.qop c rd ra rb sh l k true) s)

/-- Read 32-bit words at the given addresses as cached loads, in order: the words or the first exception. -/
def readWords (c : CoreId) : List Nat → State → State × (Exc ⊕ List Nat)
  | [], s => (s, .inr [])
  | a :: l, s =>
    match s.cellCheck a 4 false with
    | some e => (s, .inl e)
    | none =>
      match s.load c a 4 0 with
      | (t, none) => (t, .inl (excEcc a))
      | (t, some b) =>
        match readWords c l t with
        | (u, .inr r) => (u, .inr (ofBytes b :: r))
        | r => r

/-- The indices of the points that R76 uses at distance `u` from x0. -/
def lutIdx (u : Int) (e n : Nat) : List Nat :=
  if u < 0 then [0]
  else
    let i := (u / 2 ^ e).toNat
    let f := u - (i : Int) * 2 ^ e
    if n - 1 < i ∨ (i = n - 1 ∧ 0 < f) then [n - 1] else if f = 0 then [i] else [i, i + 1]

/-- The effect of LUTI (R76). A malformed header raises TABLE after the header has been read; its points, which it does not
define, are not read (assumption log 118). -/
def State.luti (s : State) (c : CoreId) (rd ra rb : Reg) : CRes :=
  let a := (s.reg c ra).toNat
  match readWords c [a, a + 4] s with
  | (t, .inl e) => .exc t e
  | (t, .inr hdr) =>
    let h := hdr.getD 1 0
    let n := fld h 8 8 + 1
    let e := fld h 0 5
    if n = 1 ∨ fld h 16 16 ≠ 0 ∨ fld h 5 3 ≠ 0 then .exc t { code := 0x13, tcode := 1, bada := some a }
    else
      let x0 := sxt 32 (hdr.getD 0 0)
      let x := lowS (t.reg c rb)
      let idx := lutIdx (x - x0) e n
      match readWords c (idx.map fun i => a + 8 + 4 * i) t with
      | (u, .inl ex) => .exc u ex
      | (u, .inr ws) =>
        let y (i : Nat) : Int := if i = idx.getD 0 0 then sxt 32 (ws.getD 0 0) else sxt 32 (ws.getD 1 0)
        let r := interp x0 e n y x
        .ok (u.putSat c rd (w64 r.1, r.2))

/-- LUTI (R76). -/
def execLuti (c : CoreId) (rd ra rb : Reg) (s : State) : Out := .next (runInstr c (fun t => t.luti c rd ra rb) s)

end Sys2Proof.Machine
end

