-- ==== Sys2Proof/Machine/Flows.lean ====
section
/-! DEFINITION. The Gazetteer and the flow buffers as the engines see them (R271–R274, R163). -/

namespace Sys2Proof.Machine

/-- The Gazetteer entry in force of a flow (R271). -/
def State.gaz (s : State) (f : Nat) : GazE := Table.get (fun _ => {}) s.bus.gaz f

/-- VALID of a Gazetteer entry. -/
def GazE.valid (g : GazE) : Bool := g.w0.getLsbD 0
/-- RX of a Gazetteer entry. -/
def GazE.rx (g : GazE) : Bool := g.w0.getLsbD 1
/-- TX of a Gazetteer entry. -/
def GazE.tx (g : GazE) : Bool := g.w0.getLsbD 2
/-- SAFE of a Gazetteer entry. -/
def GazE.safe (g : GazE) : Bool := g.w0.getLsbD 3
/-- CHA or CHB of a Gazetteer entry. -/
def GazE.chan (g : GazE) (chB : Bool) : Bool := if chB then g.w0.getLsbD 5 else g.w0.getLsbD 4
/-- EVTEN of a Gazetteer entry. -/
def GazE.evten (g : GazE) : Bool := g.w0.getLsbD 6
/-- PRODUCER of a Gazetteer entry. -/
def GazE.producer (g : GazE) : Nat := fld g.w0.toNat 8 8
/-- EVT of a Gazetteer entry. -/
def GazE.evt (g : GazE) : Nat := fld g.w0.toNat 16 9
/-- WORDS of a Gazetteer entry. -/
def GazE.words (g : GazE) : Nat := fld g.w1.toNat 0 9
/-- POSW of a Gazetteer entry. -/
def GazE.posw (g : GazE) : Nat := fld g.w1.toNat 9 3
/-- Address of the flow buffer in hub SRAM. -/
def GazE.buf (g : GazE) : Nat := fld g.w1.toNat 12 20 * 32

/-- The newest received copy of a flow. -/
def State.flow (s : State) (f : Nat) : Flow := Table.get (fun _ => {}) s.bus.flows f

/-- AGE of a flow in cycle `k` (R273). -/
def State.flowAge (s : State) (k f : Nat) : Nat :=
  let x := s.flow f
  if x.got then min 255 (x.rage + wrapN 32 ((k : Int) - x.kfresh)) else 255

/-- A data word of a flow; a word at or beyond WORDS reads 0 (R163). -/
def State.flowWord (s : State) (f i : Nat) : Nat :=
  if i < (s.gaz f).words then ((s.flow f).data.getD i 0).toNat else 0

/-- A fresh copy of the flow has arrived in the present cycle. -/
def State.arrived (s : State) (f : Nat) : Bool := (s.flow f).got && (s.flow f).kfresh == s.mer.cycle % 2 ^ 32

/-- Put 32-bit words into an area of `n` words; words at or beyond `n` are not written (R163). -/
def patchWords (n : Nat) (l : List Byte) : List (Nat × Nat) → List Byte
  | [] => l
  | (i, v) :: t => patchWords n (if i < n then l.take (4 * i) ++ toBytes 4 v ++ l.drop (4 * i + 4) else l) t

/-- An SLE commit to a transmit flow (R274): copy the area in force, write the outputs, then both status words; nothing is
selected when an ECC error is met. -/
def State.commitFlow (s : State) (f : Nat) (outs : List (Nat × Nat)) : State :=
  let g := s.gaz f
  let n := g.words
  let ws := outs.filter fun o => decide (o.1 < n)
  if !g.valid || !g.tx || ws.isEmpty || !hubRange g.buf (32 + 8 * n) then s
  else
    match s.readMem g.buf 8 1 with
    | (t, none) => t
    | (t, some st) =>
      let sel := fld (leAt st 4 4) 0 1
      match t.readMem (g.buf + 32 + 4 * n * sel) (4 * n) 1 with
      | (u, none) => u
      | (u, some l) =>
        match u.writeMem (g.buf + 32 + 4 * n * (1 - sel)) (patchWords n l ws) with
        | (v, false) => v
        | (v, true) => (v.writeMem g.buf (toBytes 4 (s.mer.cycle % 2 ^ 32) ++ toBytes 4 (1 - sel))).1

end Sys2Proof.Machine
end

