-- ==== Sys2Proof/Machine/Eng.lean ====
section
/-! DEFINITION. What ENGW and ENGR share over the engines: the selector, the refusal values and the events that an engine
holds (R62, R69–R72, R94). -/

namespace Sys2Proof.Machine

/-- The selector of ENGW and ENGR in the order of R69: die code and axis or channel, or the exception. `units` is the
number of axes or channels of engine `eng`. -/
def State.selector (s : State) (eng sel : Nat) : Exc ⊕ (Nat × Nat) :=
  let d := sel % 256
  let u := fld sel 8 5
  let units := match eng with | 0 | 2 => 24 | 1 | 4 => 16 | _ => 1
  if 2 ^ 13 ≤ sel then .inl (excEng 4 sel)
  else if !(d == 0x0C || s.dieFitted d) then .inl (excBus sel)
  else if d = 0x0C ∨ (eng = 1 ∧ d ≠ 0) ∨ (eng ≠ 1 ∧ eng ≠ 4 ∧ d = 0) then .inl (excEng 1 sel)
  else if units ≤ u then .inl (excEng 2 sel)
  else .inr (d, u)

/-- ENGW: the selector, then the command `f die unit value` and its status in rd (R62, R69, R70). -/
def State.engw (s : State) (c : CoreId) (eng : Nat) (rd ra rb : Reg) (f : Nat → Nat → W64 → State → State × Nat) : CRes :=
  match s.selector eng (s.reg c rb).toNat with
  | .inl e => .exc s e
  | .inr (d, u) =>
    let (t, st) := f d u (s.reg c ra) s
    .ok (t.put c rd (if st = 0 then 0 else refusal st))

/-- ENGR: the selector, then the value that `f die unit` names; none raises ENGADDR sub-code 3 (R69, R72). -/
def State.engr (s : State) (c : CoreId) (eng : Nat) (rd rb : Reg) (f : Nat → Nat → State → Option W64) : CRes :=
  match s.selector eng (s.reg c rb).toNat with
  | .inl e => .exc s e
  | .inr (d, u) =>
    match f d u s with
    | none => .exc s (excEng 3 (s.reg c rb).toNat)
    | some v => .ok (s.put c rd v)

/-- An engine fires event code `c` of an event register with ENTRY and MASK; a full list holds it (R94, R96). -/
def State.fireEng (s : State) (src : EvSrc) (r c word : Nat) : State :=
  if s.rb r (15 + c) then s.fireHeld src (s.rf r 0 9) word else s

/-- Whether the registers of a die's blocks take accesses now: not held in reset, and the die answers (R326, R372). -/
def State.blockLive (s : State) (d : Nat) : Bool := !s.sys.porst && !s.sys.internal && !s.sys.wrst && s.answers d

end Sys2Proof.Machine
end

