-- ==== Sys2Proof/Machine/Rdn.lean ====
section
/-! DEFINITION. The redundancy interlock: health, isolation, the hold time, conflicts, heartbeats and the shadow comparison
(R339, R345–R355). -/

namespace Sys2Proof.Machine

/-- An RDN register. -/
def rdnReg (off : Nat) : Nat := rg 0 0x0C off

/-- The unit's node ID (VBA_CTL.NODE). -/
def State.nodeId (s : State) : Nat := s.rf (rg 0 3 0x100) 8 8

/-- Cold-start rank of a node in CSNODES, none for a node that is not named (R264). -/
def State.rankOf (s : State) (node : Nat) : Option Nat :=
  if node = 0 then none else (List.range 4).find? fun k => fld s.bus.store.csnodes (8 * k) 8 == node

/-- Partner node ID. -/
def State.partner (s : State) : Nat := fld s.rdn.cfg.toNat 8 8

/-- Fire an RDN event: the code, the partner and the state (RDN_EVT). -/
def State.rdnEvent (s : State) (c : Nat) : State :=
  s.fireMasked (rdnReg 0x30) c (c * 65536 + s.partner * 256 + s.rdn.st.code)

/-- Whether the unit counts as the one with PRI_SEL high (R348). -/
def State.priHigh (s : State) : Bool :=
  if s.rdn.priConf then
    decide ((s.rankOf s.nodeId).getD 4 < (s.rankOf s.partner).getD 4)
  else s.sys.priSel

/-- Enter a redundancy state: ACT_OUT, the bus role, the log and event STATE (R339, R340, R346). -/
def State.rdnEnter (s : State) (x : RdnSt) : State :=
  if s.rdn.st = x then s
  else
    let act := x = .takeover ∨ x = .active
    let mute := x = .standby ∨ x = .isolated
    let latTx := if s.rdn.st = .active then s.mer.sec % 2 ^ 32 else s.rdn.latTx
    let r : Rdn := { s.rdn with st := x, actOut := decide act && s.rdn.paired, holdDone := false, latTx := latTx, digestOk := s.rdn.digestOk && decide (x ≠ .isolated) }
    let b : Bus := { s.bus with leader := s.bus.leader && !decide mute, st := if mute ∧ s.bus.st = .coldstart then .listen else s.bus.st, listenAt := if mute ∧ s.bus.st = .coldstart then s.mer.clocks else s.bus.listenAt }
    ({ s with rdn := r, bus := b }.log 0x0702 1 0 0x0C x.code r.lastCause 0).rdnEvent 1

/-- Enter ISOLATED with a cause (R339, R354). -/
def State.isolate (s : State) (cause : Nat) : State := { s with rdn := { s.rdn with lastCause := cause } }.rdnEnter .isolated

/-! ### Health (R353) -/

/-- Whether the Graticule mode in force has entries on a channel. -/
def State.chUsed (s : State) (chB : Bool) : Bool :=
  s.bus.store.entries.any fun e => bitN e.mask s.bus.gmode && (if chB then e.chB else e.chA)

/-- RXA_OK or RXB_OK. -/
def State.rxOk (s : State) (chB : Bool) : Bool :=
  let l := (if chB then s.rdn.rxB else s.rdn.rxA).drop 1
  !s.chUsed chB || (decide (4 ≤ l.length) && (l.take 4).all fun n => decide (0 < n))

/-- IMGCRC: the CRC field of the cell image in force. -/
def State.imgCrc (s : State) : Nat := (s.ctm.cell.map (·.crc)).getD 0

/-- MCRC of the Graticule mode in force. -/
def State.mcrcOf (s : State) (m : Nat) : Nat :=
  if bitN s.bus.store.modes m then (Table.get (fun _ => ({} : GMode)) s.bus.store.hdr m).mcrc else 0

/-- FEEDA_OK or FEEDB_OK. -/
def State.feedOk (s : State) (b : Bool) : Bool :=
  (if b then s.feedB else s.feedA).cls == 0 && !s.rb (rg 0 0x0B 0) (if b then 9 else 8)

/-- The monitored class, bits 7–0 of RDN_HEALTH. -/
def State.healthBits (s : State) : Nat :=
  let r := s.rdn
  b01 (s.feedOk false) + b01 (s.feedOk true) * 2 + b01 (s.rxOk false) * 4 + b01 (s.rxOk true) * 8 +
    b01 (decide (r.mismatch < fld r.cfg.toNat 24 8)) * 16 + b01 (!r.safetyBad) * 32 +
    b01 (r.plost || !r.everKept || (r.pImg == s.imgCrc && r.pMcrc == s.mcrcOf s.bus.gmode)) * 64 + b01 (!r.plost) * 128

/-- A unit whose bits 2–6 are all 1 is clean. -/
def healthClean (h : Nat) : Bool := fld h 2 5 == 31

/-- The cause of isolation when bits that were 1 have fallen, 0 if none. -/
def fallCause (old new : Nat) : Nat :=
  let f (i : Nat) : Bool := bitN old i && !bitN new i
  if f 2 || f 3 then 1 else if f 4 then 2 else if f 5 then 3 else if f 6 then 4 else 0

/-- Form the monitored class anew; a standby in which an item falls is isolated (R354). -/
def State.rdnRefresh (s : State) : State :=
  let h := s.healthBits
  let c := fallCause s.rdn.health h
  let s : State := { s with rdn := { s.rdn with health := h } }
  if s.rdn.paired && s.rdn.st == .standby && c != 0 then s.isolate c else s

/-- Whether the partner's last heartbeat shows STANDBY and clean (R354). -/
def Rdn.partnerReady (r : Rdn) : Bool := r.everKept && !r.plost && r.pstate == 1 && healthClean r.phealth

/-- A safety-channel diagnostic: 5 CH_DISC, 6 PROC_LOST, 7 CLK_FAIL, 14 IMG_CRC, 15 LOCKSTEP (R353, R354). -/
def State.rdnSafety (s : State) (code : Nat) : State :=
  if code = 5 ∨ code = 6 ∨ code = 7 ∨ code = 14 ∨ code = 15 then
    let s := { s with rdn := { s.rdn with safetyBad := true } }.rdnRefresh
    if (code = 7 ∨ code = 15) ∧ s.rdn.paired ∧ s.rdn.st = .active ∧ s.rdn.cfg.getLsbD 2 ∧ s.rdn.partnerReady then s.isolate 6 else s
  else s

/-! ### The interlock -/

/-- The hold time in ns (R339, R348). -/
def State.holdNs (s : State) : Nat := if s.priHigh then 2000000 else 6000000

/-- The hold time has run with ACT_IN low. -/
def State.holdOver (s : State) : Bool :=
  !s.sys.wrst && s.rdn.paired && s.rdn.st == .standby && !s.rdn.actIn && decide (s.rdn.lowSince + s.holdNs ≤ s.upNs)

/-- A conflict stands: ACT_IN high while ACT_OUT is high (R348). -/
def State.inConflict (s : State) : Bool := s.rdn.paired && s.rdn.actIn && s.rdn.actOut

/-- Whether the unit acts: it sends SYNC frames with LEADER set, data entries and safe PDUs (R346). -/
def State.mayAct (s : State) : Bool := !s.rdn.paired || s.rdn.actOut && !s.rdn.actIn

/-- The unit that does not count as the one with PRI_SEL high gives way in a conflict (R348). -/
def State.rdnYield (s : State) : State := if s.inConflict && !s.priHigh then s.rdnEnter .standby else s

/-- A conflict begins: it is counted and fires event CONFLICT once (R348). -/
def State.rdnConflict (s : State) : State :=
  if s.inConflict then ((s.count (rdnReg 0x2C) 0 16).rdnYield).rdnEvent 4 else s

/-- ACT_IN_CHANGE: a new filtered level (R347, R348). -/
def execActInChange (level : Bool) (s : State) : Out :=
  .next (if s.sys.porst || s.sys.internal || s.rdn.actIn == level then s
    else
      let r : Rdn := { s.rdn with actIn := level, lowSince := if level then s.rdn.lowSince else s.upNs, holdDone := false }
      { s with rdn := r }.rdnConflict)

/-- TAKEOVER: the hold time has expired; the change applies at the next datum (R339, R347). -/
def execTakeover (s : State) : Out := .next (if s.holdOver then { s with rdn := { s.rdn with holdDone := true } } else s)

/-- PLOST sets (R350). -/
def State.setPlost (s : State) : State :=
  if s.rdn.plost then s else ({ s with rdn := { s.rdn with plost := true } }.rdnEvent 2).rdnRefresh

/-- PLOST: HBMISS consecutive cycles without a kept heartbeat, the present one included from 50 µs after its datum on, when its heartbeat is
due (R349, R350). -/
def execPlost (s : State) : Out :=
  .next (if decide (50000 * unitNs ≤ s.mer.phase) && s.rdn.paired && !s.rdn.kept && decide (fld s.rdn.cfg.toNat 16 8 ≤ s.rdn.miss + 1) then s.setPlost else s)

/-- The end of a cycle for the heartbeat count (R350). -/
def State.rdnCycleEnd (s : State) : State :=
  if !s.rdn.paired then s
  else if s.rdn.kept then { s with rdn := { s.rdn with kept := false, miss := 0 } }
  else
    let s := s.count (rdnReg 0x14) 0 16
    let s : State := { s with rdn := { s.rdn with miss := min (s.rdn.miss + 1) 255 } }
    if fld s.rdn.cfg.toNat 16 8 ≤ s.rdn.miss then s.setPlost else s

/-! ### Heartbeats -/

/-- The payload of a heartbeat but for TSTAMP and CRC, which go in at its departure (R349, R303). -/
def State.beatPayload (s : State) : List Byte :=
  let r := s.rdn
  [0x11#8, BitVec.ofNat 8 (r.st.code + b01 s.sys.priSel * 4 + b01 r.actOut * 8 + b01 r.actIn * 16), BitVec.ofNat 8 s.nodeId,
    BitVec.ofNat 8 ((s.rankOf s.nodeId).getD 0)] ++ toBytes 2 r.hbseq ++ toBytes 2 0 ++ toBytes 6 s.mer.cycle ++ toBytes 2 0 ++
    toBytes 12 0 ++ toBytes 4 (r.health + b01 r.latOrF * 2 ^ 16 + b01 r.latTxF * 2 ^ 17) ++ toBytes 4 r.planCyc ++
    toBytes 4 r.digest ++ toBytes 4 s.imgCrc ++ toBytes 4 (s.mcrcOf s.bus.gmode) ++ toBytes 12 0 ++ toBytes 4 0

/-- The Ethernet frame of a heartbeat (R349). -/
def State.beatFrame (s : State) : List Byte :=
  [0x03#8, 0x56#8, 0x42#8, 0x00#8, 0x00#8, 0x0C#8, 0x02#8, 0x56#8, 0x42#8, 0x00#8, 0x0D#8, BitVec.ofNat 8 s.nodeId, 0x88#8, 0xB6#8] ++
    s.beatPayload

/-- HEARTBEAT_SEND: at 50 µs after the datum one heartbeat of the cycle goes to the partner link (R349). -/
def execHeartbeatSend (s : State) : Out :=
  .next (if !s.rdn.paired || s.sys.porst || s.sys.internal || s.rdn.beatCyc == some s.mer.cycle then s
    else
      let s := s.runTo 50000
      let f := s.beatFrame
      let s : State := { s with rdn := { s.rdn with hbseq := (s.rdn.hbseq + 1) % 65536, beatCyc := some s.mer.cycle } }
      if s.rdn.portB then { s with hostB := { s.hostB with beat := if s.hostB.on then some f else none } }
      else { s with hostA := { s.hostA with beat := if s.hostA.on then some f else none } })

/-- Compare shadow digests (R352). -/
def State.shadowCompare (s : State) (planCyc digest : Nat) : State :=
  if !s.rdn.digestOk || s.rdn.st == .isolated || planCyc != s.rdn.planCyc % 2 ^ 32 then s
  else if digest = s.rdn.digest then { s with rdn := { s.rdn with compared := true, mismatch := 0 } }
  else
    let s := s.count (rdnReg 0x24) 0 16
    ({ s with rdn := { s.rdn with compared := true, mismatch := min (s.rdn.mismatch + 1) 255 } }).rdnEvent 3

/-- A heartbeat arrives on the partner link (R350–R354). -/
def State.beatIn (s : State) (l : List Byte) : State :=
  if !s.rdn.paired then s
  else
    let cyc := leAt l 8 6
    if l.length < 64 ∨ crcOf (l.take 60) ≠ leAt l 60 4 ∨ leAt l 0 1 % 16 ≠ 1 ∨ leAt l 2 1 ≠ s.partner ∨
        ¬ (cyc = s.mer.cycle ∨ (cyc + 1) % 2 ^ 48 = s.mer.cycle) then s.count (rdnReg 0x14) 16 16
    else
      let b1 := leAt l 1 1
      let r : Rdn := { s.rdn with kept := true, everKept := true, miss := 0, plost := false, pstate := b1 % 4, phealth := leAt l 28 4, pImg := leAt l 40 4, pMcrc := leAt l 44 4 }
      let conf := bitN b1 2 == s.sys.priSel && !s.rdn.priConf
      let s : State := { s with rdn := { r with priConf := r.priConf || conf } }
      let s := if conf then s.log 0x0701 3 0 0x0C s.partner 0 0 else s
      ((s.shadowCompare (leAt l 32 4) (leAt l 36 4)).rdnYield).rdnRefresh

/-- HEARTBEAT_RECEIVE (R350). -/
def execHeartbeatReceive (payload : List Byte) (s : State) : Out :=
  .next (if s.sys.porst || s.sys.internal then s else s.beatIn payload)

/-! ### The shadow digest -/

/-- Form the digest of the plan datum (R351): the region is read through port 1. -/
def State.formDigest (s : State) : State :=
  let len := s.rf (rdnReg 0x1C) 0 17
  let a := (s.rd (rdnReg 0x18)).toNat * 256
  if len = 0 ∨ s.rdn.st = .isolated ∨ !hubRange a len then s
  else
    match s.readMem a len 1 with
    | (t, none) => t
    | (t, some l) => { t with rdn := { t.rdn with digest := crcOf l, planCyc := t.mer.cycle, digestOk := true, compared := false } }

/-- The shadow work of a plan datum: the period that ends counts in SKIP if it was not compared, and no digest is in hand
until SHADOW_DIGEST forms it (R351, R352). -/
def State.shadowPlan (s : State) : State :=
  if !s.rdn.paired then s
  else
    let s := if s.rdn.compared then s else s.count (rdnReg 0x24) 16 16
    { s with rdn := { s.rdn with compared := false, digestOk := false } }

/-- SHADOW_DIGEST: RDN reads the region at a plan datum (R351). -/
def execShadowDigest (s : State) : Out :=
  .next (if s.rdn.paired && s.mer.cycle % s.mer.planN == 0 && !s.rdn.digestOk then s.formDigest else s)

/-! ### Commands -/

/-- ISOLATE: RDN_CMD code 1, which applies at the next datum (R354, RDN_CMD). -/
def execIsolate (s : State) : Out := .next (if s.sys.porst || s.sys.internal then s else { s with rdn := { s.rdn with cmdPend := 1 } })

/-- REJOIN: RDN_CMD code 2, which applies at the next datum (R354, RDN_CMD). -/
def execRejoin (s : State) : Out := .next (if s.sys.porst || s.sys.internal then s else { s with rdn := { s.rdn with cmdPend := 2 } })

/-- The pending RDN command applies (R354). -/
def State.rdnCommand (s : State) : State :=
  let done (t : State) (r : Nat) : State := { t with rdn := { t.rdn with cmdPend := 0, result := r } }
  match s.rdn.cmdPend with
  | 1 => done (s.isolate 5) 1
  | 2 =>
    if s.rdn.st ≠ .isolated then done s 2
    else if !healthClean s.healthBits then done s 3
    else done ({ s with rdn := { s.rdn with safetyBad := false, mismatch := 0 } }.rdnEnter .standby) 1
  | _ => s

/-- The redundancy step of a datum (R335, R339): configuration, counts, command, hold time, take-over. -/
def State.rdnDatum (s : State) (plan : Bool) : State :=
  let cfg := s.rd (rdnReg 0)
  let s : State := { s with rdn := { s.rdn with cfg := cfg } }
  let s := s.rdnCycleEnd
  let s : State := if plan then
      let t := s.shadowPlan
      { t with rdn := { t.rdn with rxA := (0 :: t.rdn.rxA).take 5, rxB := (0 :: t.rdn.rxB).take 5 } }
    else s
  let s := s.rdnRefresh.rdnCommand
  let s := if !s.sys.wrst && s.rdn.st == .standby && (s.rdn.holdDone || s.holdOver) && !s.rdn.actIn then s.rdnEnter .takeover
    else if s.rdn.st == .takeover && !s.rdn.actIn && s.bus.leader then s.rdnEnter .active else s
  { s with rdn := { s.rdn with holdDone := false } }

end Sys2Proof.Machine
end

