-- ==== Sys2Proof/Machine/Sle.lean ====
section
/-! DEFINITION. Brorok-L: the checks of a loop program at load and one run of it (R77–R86). -/

namespace Sys2Proof.Machine

/-! ### The checks of R78 -/

/-- Whether a word is a Brorok-L instruction whose unused fields are 0 (R77, R61). -/
def loopWordOk (w : Nat) : Bool :=
  let rd := fld w 21 5
  let ra := fld w 16 5
  let rb := fld w 11 5
  let sh := fld w 5 6
  let fn := fld w 0 5
  let k := fld w 6 5
  let sub := fld w 3 3
  match fld w 26 6 with
  | 0x01 => decide (fn ≤ 0x15) && ((0x0B ≤ fn && fn ≤ 0x0D) || sh == 0) && (!(0x0B ≤ fn && fn ≤ 0x0D || fn == 0x14 || fn == 0x15) || rb == 0)
  | 0x02 => decide (fn ≤ 3) && sh == 0
  | 0x0A => ra == 0
  | 0x04 | 0x05 | 0x06 | 0x07 | 0x08 | 0x09 | 0x0B | 0x0C => true
  | 0x20 | 0x21 | 0x22 | 0x23 | 0x24 | 0x25 => true
  | 0x32 => fld w 0 26 == 0
  | 0x37 | 0x38 => fld w 0 4 == 0 && (!bitN w 4 || k == 0)
  | 0x3A =>
    match fld w 0 3 with
    | 0 => ra == 0 && rb == 0
    | 1 => rd == 0 && rb == 0 && k == 0
    | 2 => rb == 0 && k == 0
    | 3 => rb == 0
    | 4 => rb == 0 && sub == 0
    | 5 => sub == 0
    | _ => false
  | _ => false

/-- Whether a word is a branch of Brorok-L. -/
def isBranch (w : Nat) : Bool := decide (0x20 ≤ fld w 26 6) && decide (fld w 26 6 ≤ 0x25)

/-- Whether the branch at index `i` of `n` words goes forward inside the program (R78). -/
def loopBranchOk (n i w : Nat) : Bool :=
  !isBranch w || (decide (1 ≤ sxt 16 w) && decide ((i : Int) + sxt 16 w < n))

/-- Whether the indices of a loop-group word lie in their ranges (R80). -/
def loopIndexOk (w : Nat) : Bool :=
  let k := fld w 6 5
  let sub := fld w 3 3
  if fld w 26 6 = 0x3A then
    match fld w 0 3 with
    | 0 => decide (k ≤ 1)
    | 1 | 2 | 3 => decide (sub ≤ 3)
    | 5 => decide (k ≤ 29)
    | _ => true
  else true

/-- The index of the first word that fails a check. -/
def firstBad (ok : Nat → Nat → Bool) : Nat → List W32 → Option Nat
  | _, [] => none
  | i, w :: t => if ok i w.toNat then firstBad ok (i + 1) t else some i

/-- The result of R78 for SLE_LOADST and the failing index: 0 when the program passes. -/
def loopCheck (ws : List W32) : Nat × Nat :=
  if ws.length < 1 ∨ 256 < ws.length then (2, 0)
  else
    match firstBad (fun _ w => loopWordOk w) 0 ws with
    | some i => (3, i)
    | none =>
      match firstBad (loopBranchOk ws.length) 0 ws with
      | some i => (4, i)
      | none =>
        if (ws.getLast?.map fun w => fld w.toNat 26 6) ≠ some 0x32 then (5, ws.length - 1)
        else
          match firstBad (fun _ w => loopIndexOk w) 0 ws with
          | some i => (6, i)
          | none => (0, 0)

/-- The mask of the integrators that a program names (R153). -/
def integMask : List W32 → Nat
  | [] => 0
  | w :: t => integMask t ||| (if fld w.toNat 26 6 = 0x3A ∧ fld w.toNat 0 3 = 3 then 2 ^ fld w.toNat 3 2 else 0)

/-! ### A run -/

/-- What a run reads. -/
structure LoopEnv where
  /-- coefficient slot of the active bank: value [31:0], shift [36:32] -/
  coef : Nat → Nat
  inp : Nat → W64
  age : Nat → Nat
  tab : Nat → GainTab
  /-- the outgoing run of a blend (R159): RAMPS and PLAUS leave their state, STOUT to outputs 1–3 is discarded -/
  outgoing : Bool := false

/-- Value of a coefficient slot (R14). -/
def LoopEnv.value (e : LoopEnv) (k : Nat) : Int := sxt 32 (e.coef k)
/-- Shift of a coefficient slot (R14). -/
def LoopEnv.shift (e : LoopEnv) (k : Nat) : Nat := fld (e.coef k) 32 5

/-- A run at work: the program state, the outputs written, the instructions executed. -/
structure LoopRun where
  s : LoopSt
  out : Table W64 := []
  n : Nat := 0
  deriving DecidableEq, Repr

/-- A register of the axis; g0 reads 0 (R79). -/
def LoopSt.reg (s : LoopSt) (r : Nat) : W64 := if r = 0 then 0 else Table.get (fun _ => 0#64) s.g r
/-- Write a register; a write to g0 is discarded. -/
def LoopSt.setReg (s : LoopSt) (r : Nat) (v : W64) : LoopSt := if r = 0 then s else { s with g := Table.set (fun _ => 0#64) s.g r v }
/-- An integrator term. -/
def LoopSt.integ (s : LoopSt) (i : Nat) : Int := Table.get (fun _ => 0) s.i i
/-- Set an integrator term. -/
def LoopSt.setInteg (s : LoopSt) (i : Nat) (v : Int) : LoopSt := { s with i := Table.set (fun _ => 0) s.i i v }

/-- The clamp of integrator `i` with its slots 24 + 2i and 25 + 2i: the lower bound wins (R82). -/
def LoopEnv.clamp (e : LoopEnv) (i : Nat) (x : Int) : Int := clampI (e.value (25 + 2 * i)) (e.value (24 + 2 * i)) x

/-- Write rd and note a saturation (R85). -/
def LoopSt.putSat (s : LoopSt) (rd : Nat) (r : W64 × Bool) : LoopSt := { s.setReg rd r.1 with sat := s.sat || r.2 }

/-- LUTG (R81): no x sets a flag, below the first point neither (assumption log 129). -/
def GainTab.read (t : GainTab) (v : W64) : W64 :=
  let x : Int := min ((lowS v).natAbs : Int) (2 ^ 31 - 1)
  w64 (interp t.x0 t.e 64 (fun i => Table.get (fun _ => 0) t.ys i) x).1

/-- INTEG (R82). -/
def LoopSt.integStep (s : LoopSt) (e : LoopEnv) (rd ra k i : Nat) : LoopSt :=
  let d := roundShift (lowS (s.reg ra) * e.value k) (e.shift k)
  let x := s.integ i + d
  let y := e.clamp i x
  let c := if y = x then s.iclamp &&& (15 - 2 ^ i) else s.iclamp ||| 2 ^ i
  { (s.setInteg i y).setReg rd (w64 y) with iclamp := c }

/-- RAMPS (R83): with `keep`, RMP stays (R159). -/
def LoopSt.ramps (s : LoopSt) (e : LoopEnv) (rd ra k : Nat) (keep : Bool) : LoopSt :=
  let c := (s.reg ra).toInt
  let m : Int := (e.value k).natAbs
  let r := if m = 0 then c else satI 64 (s.rmp + clampI (-m) m (c - s.rmp))
  let t := s.setReg rd (w64 r)
  if keep then t else { t with rmp := r }

/-- PLAUS (R84): with `keep`, PRED, PVALID and PCOUNT stay (R159). -/
def LoopSt.plaus (s : LoopSt) (e : LoopEnv) (rd ra rb k : Nat) (keep : Bool) : LoopSt :=
  let y := (s.reg ra).toInt
  let d : Nat := if s.pvalid then (y - s.pred).natAbs else 0
  let cnt := if s.pvalid then (if (e.value (k + 2)).natAbs < d then min (s.pcount + 1) 255 else 0) else s.pcount
  let m : Int := (e.value (k + 1)).natAbs
  let f : Int := if 0 < y then m else if y < 0 then -m else 0
  let t := satI 32 (lowS (s.reg rb) - f)
  let pred := satI 64 (y + roundShift (t * e.value k) (e.shift k))
  let u := s.setReg rd (BitVec.ofNat 64 d)
  if keep then u else { u with pred := pred, pvalid := true, pcount := cnt }

/-- The loop group (R80). -/
def LoopRun.group (r : LoopRun) (e : LoopEnv) (w : Nat) : LoopRun :=
  let rd := fld w 21 5
  let ra := fld w 16 5
  let rb := fld w 11 5
  let k := fld w 6 5
  let sub := fld w 3 3
  match fld w 0 3 with
  | 0 => { r with s := r.s.setReg rd (if k = 0 then e.inp sub else BitVec.ofNat 64 (e.age sub)) }
  | 1 => if e.outgoing && sub != 0 then r else { r with out := r.out.put sub (r.s.reg ra) }
  | 2 => { r with s := r.s.setReg rd ((e.tab sub).read (r.s.reg ra)) }
  | 3 => { r with s := r.s.integStep e rd ra k sub }
  | 4 => { r with s := r.s.ramps e rd ra k e.outgoing }
  | _ => { r with s := r.s.plaus e rd ra rb k e.outgoing }

/-- One instruction that is no branch and not DONE (R77). -/
def LoopRun.step (r : LoopRun) (e : LoopEnv) (w : Nat) : LoopRun :=
  let rd := fld w 21 5
  let ra := fld w 16 5
  let rb := fld w 11 5
  let a := r.s.reg ra
  let b := r.s.reg rb
  match fld w 26 6 with
  | 0x01 =>
    match aluInt (fld w 0 5) a b (fld w 5 6) with
    | some v => { r with s := r.s.putSat rd v }
    | none => r
  | 0x02 =>
    match aluMul (fld w 0 5) a b with
    | some v => { r with s := r.s.putSat rd v }
    | none => r
  | 0x37 => { r with s := r.s.putSat rd (if bitN w 4 then aluQ 0 a (e.value rb) (e.shift rb) (bitN w 5)
      else aluQ 0 a (lowS b) (fld w 6 5) (bitN w 5)) }
  | 0x38 => { r with s := r.s.putSat rd (if bitN w 4 then aluQ (r.s.reg rd).toInt a (e.value rb) (e.shift rb) (bitN w 5)
      else aluQ (r.s.reg rd).toInt a (lowS b) (fld w 6 5) (bitN w 5)) }
  | 0x3A => r.group e w
  | op => { r with s := r.s.setReg rd (aluImm op a (BitVec.ofNat 16 w)) }

/-- Run the instructions that are left (R78: branches go forward only, so the program's length bounds the run). -/
def loopGo (e : LoopEnv) : Nat → List W32 → LoopRun → LoopRun
  | 0, _, r => r
  | _ + 1, [], r => r
  | fuel + 1, v :: t, r =>
    let w := v.toNat
    let r := { r with n := r.n + 1 }
    if fld w 26 6 = 0x32 then r
    else if isBranch w then
      if branchTaken (fld w 26 6) (r.s.reg (fld w 21 5)) (r.s.reg (fld w 16 5)) then loopGo e fuel (t.drop (fld w 0 16 - 1)) r
      else loopGo e fuel t r
    else loopGo e fuel t (r.step e w)

/-- One run of a program: g1–g15 start at 0 (R79), also in the second run of a hand-over or blend sample (assumption log
128). -/
def runLoop (e : LoopEnv) (p : SleProg) (s : LoopSt) : LoopRun :=
  loopGo e 256 p.words { s := { s with g := s.g.wipe fun k => decide (k < 16) } }

end Sys2Proof.Machine
end

