-- ==== Sys2Proof/Machine/Trv.lean ====
section
/-! DEFINITION. One Traverse axis at a datum (chapter 05): inputs, commands, faults, the profile generator, path, gear,
homing, stall and step emission, as functions of the axis and of what it sees. -/

namespace Sys2Proof.Machine

/-- What an axis sees at a datum. -/
structure TrvEnv where
  /-- length of the cycle that begins, and of the one that ended, ns -/
  T : Nat
  told : Nat
  /-- the datum is a plan datum, and the plan period in force -/
  plan : Bool
  planN : Nat
  hub : Bool
  die : Nat
  axis : Nat
  /-- compat mode (R6) -/
  compat : Bool
  /-- the arm is not in RUN (R334) -/
  locked : Bool
  /-- the sheet is DRAINING (R335) -/
  draining : Bool
  /-- the cell mode allows ENABLE, and the motion commands (R337) -/
  enOk : Bool
  moveOk : Bool
  gpio : W32
  enc : Nat → Enc
  /-- word of a received flow, and its AGE -/
  flowW : Nat → Nat → Nat
  /-- low word of a flow's position field (R129, R271) -/
  posW : Nat → Nat
  flowAge : Nat → Nat
  /-- input 3–7 of the axis in the SLE -/
  sleIn : Nat → Int
  /-- the SLE reports the axis disabled (R148) -/
  sleOff : Bool
  /-- the SLE faulted the axis (R160, R161) -/
  sleFault : Bool
  /-- bytes of SRAM for a plan record, none when unreadable -/
  read : Nat → Nat → Option (List Byte)
  /-- set-points of the other axes of the engine at this datum -/
  axisP : Nat → Int
  /-- a virtual master would be, or would have, a follower in GEAR with TYPE 2 that is itself followed (R129) -/
  chained : Nat → Bool
  /-- an event of the axis is held (R143) -/
  held : Bool

/-- An axis at work in a datum: flags to set, events to fire, fault causes met, lost steps. -/
structure TrvW where
  ax : TrvAx
  flags : Nat := 0
  evs : List Nat := []
  causes : List Nat := []
  lost : Nat := 0
  /-- the axis entered FAULT at this datum -/
  entered : Bool := false

/-- Set a flag bit. -/
def TrvW.flag (w : TrvW) (b : Nat) : TrvW := { w with flags := w.flags ||| 2 ^ b }
/-- Fire an event. -/
def TrvW.ev (w : TrvW) (e : Nat) : TrvW := { w with evs := w.evs ++ [e] }
/-- Note a fault cause. -/
def TrvW.cause (w : TrvW) (c : Nat) : TrvW := { w with causes := w.causes ++ [c] }
/-- Change the axis. -/
def TrvW.upd (w : TrvW) (f : TrvAx → TrvAx) : TrvW := { w with ax := f w.ax }

/-- Reset values of the stored commands (R399). -/
def trvDefault (c : Nat) : W64 :=
  match c with
  | 0x12 | 0x14 | 0x15 | 0x16 | 0x17 | 0x41 | 0x42 => 1
  | 0x19 => 0xFFFFFFFF
  | 0x23 => 50
  | 0x27 => 65536
  | 0x31 | 0x33 => 0x100000000
  | _ => 0

/-- A stored value. -/
def TrvAx.val (a : TrvAx) (c : Nat) : W64 := Table.get trvDefault a.stored c
/-- A stored value as a number. -/
def TrvAx.num' (a : TrvAx) (c : Nat) : Nat := (a.val c).toNat
/-- A stored signed position. -/
def TrvAx.posv (a : TrvAx) (c : Nat) : Int := (a.val c).toInt
/-- A stored speed in pu/s. -/
def TrvAx.spd (a : TrvAx) (c : Nat) : Nat := a.num' c * 65536
/-- Store a value. -/
def TrvAx.store (a : TrvAx) (c : Nat) (v : W64) : TrvAx := { a with stored := Table.set trvDefault a.stored c v }
/-- AXIS_CFG.MODULAR. -/
def TrvAx.modular (a : TrvAx) : Bool := (a.val 0x20).getLsbD 0
/-- VJOG in pu/s. -/
def TrvAx.vjog (a : TrvAx) : Int := a.posv 0x1A * 65536

/-- A speed or an acceleration in its 32-bit signed field (R14, R119); beyond it the value is free (assumption log 126). -/
def narrow32 (x : Int) : Int := if -(2 ^ 31) ≤ x ∧ x < 2 ^ 31 then x else (Config.wide32 x).toInt
/-- The set-point speed as it is presented (R119). -/
def TrvAx.vel32 (a : TrvAx) : Int := narrow32 (Int.tdiv a.v 65536)
/-- The set-point acceleration as it is presented (R119). -/
def TrvAx.acc32 (a : TrvAx) : Int := narrow32 a.acc

/-- Sign of an integer. -/
def sgn (x : Int) : Int := if 0 < x then 1 else if x < 0 then -1 else 0

/-! ### The profile generator (R113–R118) -/

/-- dv(a) (R113). -/
def dvOf (a T : Nat) : Nat := a * 65536 * T / 1000000000

/-- The travel of a datum and the new remainder (R113). -/
def travel (s0 s1 T rp : Nat) : Nat × Nat :=
  let d := (s0 + s1) * T + rp
  (d / 2000000000, d % 2000000000)

/-- The final deceleration DF (R114). -/
def TrvAx.df (a : TrvAx) : Nat := if a.num' 0x18 < a.num' 0x13 then a.num' 0x17 else a.num' 0x16
/-- The floor speed VF (R114). -/
def TrvAx.vf (a : TrvAx) (T : Nat) : Nat := min (a.spd 0x15) (max (a.spd 0x18) (dvOf a.df T))
/-- dv_down (R114). -/
def TrvAx.down (a : TrvAx) (T s : Nat) : Nat := if a.spd 0x13 < s then dvOf (a.num' 0x16) T else dvOf (a.num' 0x17) T
/-- dv_up (R114). -/
def TrvAx.up (a : TrvAx) (T s : Nat) : Nat := if s < a.spd 0x13 then dvOf (a.num' 0x12) T else dvOf (a.num' 0x14) T
/-- The braking distance (R114). -/
def TrvAx.brake (a : TrvAx) (T s : Nat) : Nat :=
  let vf := a.vf T
  let v1 := a.spd 0x13
  if s ≤ vf then 0
  else if vf < v1 ∧ v1 < s then
    ceilDiv (s ^ 2 - v1 ^ 2) (2 * a.num' 0x16 * 65536) + ceilDiv (v1 ^ 2 - vf ^ 2) (2 * a.num' 0x17 * 65536)
  else ceilDiv (s ^ 2 - vf ^ 2) (2 * a.df * 65536)

/-- SEG of a deceleration from `s` to `n` by dv_down: 7 where the new speed is VF and the full step would have passed it
(R397; assumption log 122). -/
def TrvAx.segDown (a : TrvAx) (T s n : Nat) : Nat :=
  if n = 0 then 0
  else if n = a.vf T ∧ s < n + a.down T s then 7
  else if s = n then 4
  else if a.spd 0x13 < s then 5 else 6

/-- SEG of an acceleration (R397). -/
def TrvAx.segUp (a : TrvAx) (T s n : Nat) : Nat :=
  if n = 0 then 0 else if s = n then (if n = a.vf T then 7 else 4) else if s < a.spd 0x13 then 2 else 3

/-- A step beyond the range stops at the limit, at rest and with OVERRANGE (R120); SEG is that of rest but for a start step
(R397). -/
def TrvW.overrange (w : TrvW) (limit : Int) : TrvW :=
  (w.upd fun a => { a with p := limit, v := 0, seg := if a.seg = 1 then 1 else 0 }).cause 6

/-- Move the set-point: wrap on a modular axis, else stop at the range with OVERRANGE (R120). -/
def TrvW.move (w : TrvW) (d : Int) : TrvW :=
  let p := w.ax.p + d
  if w.ax.modular then w.upd fun a => { a with p := sxt 64 (wrapN 64 p) }
  else if p < -(2 ^ 63) then w.overrange (-(2 ^ 63))
  else if 2 ^ 63 - 1 < p then w.overrange (2 ^ 63 - 1)
  else w.upd fun a => { a with p := p }

/-- Travel from speed `s` to `n` in a direction and set the speed. -/
def TrvW.run (w : TrvW) (T : Nat) (dir : Int) (s n seg : Nat) : TrvW :=
  let (k, r) := travel s n T w.ax.rp
  (w.upd fun a => { a with rp := r, v := dir * n, seg := seg }).move (dir * k)

/-- The reversal branch of R115. -/
def TrvW.slow (w : TrvW) (T : Nat) : TrvW :=
  let a := w.ax
  let s := a.v.natAbs
  let n := if s ≤ a.vf T then 0 else max (s - a.down T s) (a.vf T)
  w.run T (sgn a.v) s n (a.segDown T s n)

/-- A ramp with QDEC (R118). -/
def TrvW.qramp (w : TrvW) (T : Nat) : TrvW :=
  let s := w.ax.v.natAbs
  let n := s - dvOf (w.ax.num' 0x19) T
  w.run T (sgn w.ax.v) s n (if n = 0 then 0 else if n = s then 4 else 5)

/-- The difference to a target, modulo 2^64 as signed on modular axes (R115, R120). -/
def TrvAx.diff (a : TrvAx) (x : Int) : Int := if a.modular then sxt 64 (wrapN 64 (x - a.p)) else x - a.p

/-- Set the target's outcome of R115: landing, or going on with OVERSHOOT when the target is passed. -/
def TrvW.reach (w : TrvW) (T : Nat) (x dir : Int) (e s n seg : Nat) (landed : TrvW → TrvW) : TrvW :=
  let (k, r) := travel s n T w.ax.rp
  if e ≤ k ∧ n ≤ w.ax.vf T then landed (w.upd fun a => { a with p := x, v := 0, rp := 0 })
  else
    let w := if e ≤ k then w.flag 0 else w
    (w.upd fun a => { a with rp := r, v := dir * n, seg := seg }).move (dir * k)

/-- The step of R115 in POSITION. -/
def TrvW.position (w : TrvW) (T : Nat) : TrvW :=
  let a := w.ax
  let x := a.posv 0x10
  let e := a.diff x
  let w := if e ≠ 0 then w.upd fun a => { a with atTarget := false } else w
  if a.v = 0 ∧ e = 0 then w.upd fun a => { a with seg := 0, reversing := false }
  else
    let dir := sgn e
    if a.v ≠ 0 ∧ sgn a.v ≠ dir then (w.upd fun a => { a with reversing := true }).slow T
    else
      let start := a.v = 0
      let s := if start then min (a.spd 0x11) (a.spd 0x15) else a.v.natAbs
      let vm := a.spd 0x15
      let (n, seg) :=
        if e.natAbs ≤ a.brake T s + s * T / 1000000000 then
          let n := max (s - a.down T s) (a.vf T)
          (n, a.segDown T s n)
        else if vm < s then
          let n := max (s - a.down T s) vm
          (n, a.segDown T s n)
        else
          let n := min (s + a.up T s) vm
          (n, a.segUp T s n)
      let seg := if start then 1 else seg
      let w := w.upd fun a => { a with reversing := false }
      w.reach T x dir e.natAbs s n seg fun w => (w.upd fun a => { a with atTarget := true, seg := if start then 1 else 0 }).ev 1

/-- The new speed of R117 toward |w| from `s`, and its SEG. -/
def TrvAx.toward (a : TrvAx) (T s tw : Nat) : Nat × Nat :=
  if s < tw then
    let n := min (s + a.up T s) tw
    (n, a.segUp T s n)
  else
    let n := max (s - a.down T s) tw
    (n, a.segDown T s n)

/-- The step of VELOCITY, JOG and homing toward a signed speed, with the limit ahead if there is one (R117, R122). -/
def TrvW.velocity (w : TrvW) (T : Nat) (target : Int) (lim : Option Int) : TrvW :=
  let a := w.ax
  let t := clampI (-(a.spd 0x15 : Int)) (a.spd 0x15) target
  if a.v ≠ 0 ∧ (t = 0 ∨ sgn a.v ≠ sgn t) then w.slow T
  else if t = 0 then w.upd fun a => { a with seg := 0 }
  else
    let dir := sgn t
    let start := a.v = 0
    let s := if start then min (min (a.spd 0x11) (a.spd 0x15)) t.natAbs else a.v.natAbs
    let (n, seg) := a.toward T s t.natAbs
    let seg := if start then 1 else seg
    match lim with
    | none => w.run T dir s n seg
    | some x =>
      let e := dir * a.diff x
      if e ≤ 0 then
        let w := w.flag 3
        if a.v = 0 then w.upd fun a => { a with seg := 0 } else w.slow T
      else
        let brakeNow := e.natAbs ≤ a.brake T s + s * T / 1000000000
        let n2 := max (s - a.down T s) (a.vf T)
        let (n, seg) := if brakeNow then (n2, if start then 1 else a.segDown T s n2) else (n, seg)
        w.reach T x dir e.natAbs s n seg fun w => (w.upd fun a => { a with seg := if start then 1 else 0 }).flag 3

/-- The limit ahead in VELOCITY and JOG (R122). -/
def TrvAx.limAhead (a : TrvAx) (t : Int) : Option Int :=
  if a.posv 0x1C < a.posv 0x1D then (if 0 < t then some (a.posv 0x1D) else if t < 0 then some (a.posv 0x1C) else none) else none

/-- Whether a set-point lies beyond the soft limits (R122). -/
def TrvAx.beyond (a : TrvAx) (p : Int) : Bool :=
  decide (a.posv 0x1C < a.posv 0x1D) && (decide (p < a.posv 0x1C) || decide (a.posv 0x1D < p))

/-! ### Inputs (R133–R135) -/

/-- The sampled level of an input field of LIM_CFG: none without a source. A flow's AGE here is that of the cycle which
starts with the datum (R273), one more than the AGE at the end of the cycle before. -/
def limSample (e : TrvEnv) (f : Nat) : Option Bool :=
  match fld f 18 2 with
  | 1 => some (e.gpio.getLsbD (fld f 5 5) != bitN f 17)
  | 2 => some (if 4 ≤ e.flowAge (fld f 5 12) + 1 then true else bitN (e.flowW (fld f 5 12) 0) (fld f 0 5) != bitN f 17)
  | _ => none

/-- Take a sample into a debounced input (R134, R135). -/
def Debounce.take (d : Debounce) (x : Option Bool) (need win tick : Nat) : Debounce :=
  match x with
  | none => {}
  | some b =>
    if !d.seen then { level := b, last := b, seen := true }
    else
      let chg := (if b != d.last then tick :: d.chg else d.chg).filter fun t => decide (tick < t + win)
      let n := if b != d.level then d.diff + 1 else 0
      if b != d.level && decide (need ≤ n) then { d with level := b, last := b, diff := 0, chg := chg }
      else { d with last := b, diff := n, chg := chg }

/-- The first sample of a source that a LIM_CFG write names: taken at once, with no changes counted (R134). -/
def Debounce.first (x : Option Bool) : Debounce :=
  match x with
  | none => {}
  | some b => { level := b, last := b, seen := true }

/-- Sample the three inputs of an axis. -/
def TrvAx.sample (a : TrvAx) (e : TrvEnv) : TrvAx :=
  let c := a.num' 0x21
  let need := ceilDiv (a.num' 0x22 * 1000) e.T
  let win := ceilDiv (a.num' 0x23 * 1000000) e.T
  let t := a.tick + 1
  { a with
    tick := t
    limp := a.limp.take (limSample e (fld c 0 20)) need win t
    limn := a.limn.take (limSample e (fld c 20 20)) need win t
    ref := a.ref.take (limSample e (fld c 40 20)) need win t }

/-- Whether an input chatters: more than 4 changes in the window (R135). -/
def Debounce.chatters (d : Debounce) : Bool := decide (4 < d.chg.length)

/-! ### Commands at the datum (R106, R107) -/

/-- The moving states (R106). -/
def TrvSt.moving : TrvSt → Bool
  | .position | .velocity | .jog | .path | .gear => true
  | _ => false

/-- Refuse a command at the datum (R107): hub commands are dropped in silence. -/
def TrvW.refuse (w : TrvW) (c : TrvCmd) (reason : Nat) : TrvW :=
  if c.hub then w
  else
    let w := w.upd fun a => { a with lastRef := c.code + reason * 256 }
    if reason = 2 then w.flag 1 else if reason = 4 then w else (w.flag 2).ev 8

/-- Enter HOLD (R106, R113). -/
def TrvAx.enterHold (a : TrvAx) : TrvAx := { a with st := .hold, v := 0, rp := 0, seg := 0, home := none, quick := false }

/-- Enter HOLD from OFF (R106, R398). -/
def TrvAx.enable (a : TrvAx) : TrvAx := { a.enterHold with ena := true, fcause := 0, pendEn := false }

/-- Whether a motion in the given direction is toward an active limit met by CLEAR_FAULT (R136). -/
def TrvAx.toLimit (a : TrvAx) (dir : Int) : Bool :=
  (decide (0 < dir) && a.clrP && a.limp.level) || (decide (dir < 0) && a.clrN && a.limn.level)

/-- The homing direction as a sign: DIR of HOME_CFG. -/
def TrvAx.homeDir (a : TrvAx) : Int := if bitN (a.num' 0x40) 3 then -1 else 1

/-- The reference input of a homing method is active (R137). -/
def TrvAx.refActive (a : TrvAx) : Bool :=
  match fld (a.num' 0x40) 0 3 with
  | 0 => if bitN (a.num' 0x40) 3 then a.limn.level else a.limp.level
  | 1 | 2 => a.ref.level
  | _ => false

/-- The position that an index latched (R121, R137): on TRV the bound input, on TRH the captured count scaled as in R121. -/
def TrvAx.idxPos (a : TrvAx) (e : TrvEnv) : Int :=
  if e.hub then
    let x := e.enc e.axis
    a.p + (sxt 32 (wrapN 32 ((x.idx.toNat : Int) - x.latched.toNat)) * 2 ^ 32) / (a.num' 0x27 : Int)
  else e.sleIn (fld (a.num' 0x40) 4 3)

/-- HOME_START (R136, R137). -/
def TrvW.homeStart (w : TrvW) (e : TrvEnv) (c : TrvCmd) : TrvW :=
  let a := w.ax
  let m := fld (a.num' 0x40) 0 3
  let bound := if m = 2 ∨ m = 3 then e.hub || fld (a.num' 0x40) 4 3 != 0
    else if m = 4 then bitN (a.num' 0x26) 12 && fld (a.num' 0x24) 24 2 != 0 else true
  let dir := if m = 5 then 0 else if m ≤ 2 ∧ a.refActive then -a.homeDir else a.homeDir
  if !bound then w.refuse c 5
  else if a.toLimit dir then w.refuse c 3
  else
    let ph := if m = 3 then HomePh.latch else if m = 5 then HomePh.set else HomePh.search
    let h : Home :=
      { ph := ph, neg := decide (a.homeDir < 0), startP := a.p, idxLast := a.idxPos e, pl := a.p, limpWas := a.limp.level, limnWas := a.limn.level }
    w.upd fun a => { a with st := .homing, homed := false, home := some h }

/-- In GEAR the axis would have a virtual master that is itself in GEAR with TYPE 2, or be such a master (R129). -/
def TrvAx.chains (a : TrvAx) (e : TrvEnv) : Bool := fld (a.num' 0x30) 0 2 == 2 && e.chained (fld (a.num' 0x30) 4 12)

/-- MODE 2–6 applies (R106, R129, R136). -/
def TrvW.mode (w : TrvW) (e : TrvEnv) (c : TrvCmd) (m : Nat) : TrvW :=
  let a := w.ax
  let dir := if m = 2 then a.diff (a.posv 0x10) else if m = 3 ∨ m = 4 then a.vjog else 0
  if a.toLimit dir then w.refuse c 3
  else
    match m with
    | 2 => w.upd fun a => { a with st := .position }
    | 3 => w.upd fun a => { a with st := .velocity }
    | 4 => w.upd fun a => { a with st := .jog }
    | 5 => if a.st = .path then w else w.upd fun a => { a with st := .path, herm := none }
    | _ =>
      if a.chains e then w.refuse c 1
      else w.upd fun a => { a with st := .gear, mPrev := 2 ^ 32, grem := 0, lastDm := 0, num := sxt 32 (a.num' 0x31) }

/-- A parameter write applies (R107, R116, R123, R136). -/
def TrvW.param (w : TrvW) (e : TrvEnv) (c : TrvCmd) : TrvW :=
  let a := w.ax
  match c.code with
  | 0x10 =>
    w.upd fun a => a.store 0x10 c.val
  | 0x1A => w.upd fun a => { a.store 0x1A c.val with jogAge := 0, jogOut := false }
  | 0x21 =>
    let f (i : Nat) : Debounce := Debounce.first (limSample e (fld c.val.toNat i 20))
    w.upd fun a => { a.store 0x21 c.val with limp := f 0, limn := f 20, ref := f 40 }
  | 0x31 => w.upd fun a => { a.store 0x31 c.val with num := sxt 32 c.val.toNat, ramp := none }
  | 0x33 => w.upd fun a => { a.store 0x33 c.val with arm := some { num := sxt 32 c.val.toNat, den := c.val.toNat / 2 ^ 32, pos := a.posv 0x32 } }
  | 0x30 => if a.st = .gear ∧ (a.store 0x30 c.val).chains e then w.refuse c 1 else w.upd fun _ => a.store 0x30 c.val
  | 0x35 => w.upd fun a => { a with arm := none }
  | _ => w.upd fun _ => a.store c.code c.val

/-- One command applies at the datum (R106–R108, R334, R335). -/
def TrvW.cmd (w : TrvW) (e : TrvEnv) (c : TrvCmd) : TrvW :=
  let a := w.ax
  let m := fld c.val.toNat 0 4
  let stopping := c.code = 2 ∨ c.code = 3 ∨ c.code = 4
  let motion := (c.code = 6 ∧ m ≠ 1) ∨ c.code = 0x46 ∨ c.code = 0x28
  if e.draining ∧ !stopping then w.refuse c 1
  else if (c.code = 1 ∨ motion) ∧ (e.locked ∨ (if c.code = 1 then !e.enOk else !e.moveOk)) then w.refuse c 1
  else
    match c.code with
    | 1 =>
      match a.st with
      | .off => w.upd TrvAx.enable
      | .disabling => w.upd fun a => { a with pendEn := true }
      | .fault => w.refuse c 1
      | _ => w
    | 2 =>
      match a.st with
      | .off => w
      | .disabling => w.upd fun a => { a with pendEn := false }
      | _ => w.upd fun a => { a with st := .disabling, pendEn := false, home := none }
    | 3 | 4 | 6 =>
      if c.code = 6 ∧ m ≠ 1 then
        if a.st = .hold ∨ a.st.moving then w.mode e c m else w.refuse c 1
      else
        match a.st with
        | .off => w.refuse c 1
        | .stopping => if c.code = 4 then w.upd fun a => { a with quick := true } else w
        | .hold | .disabling | .fault => w
        | _ => w.upd fun a => { a with st := .stopping, quick := c.code = 4, home := none }
    | 5 =>
      if a.st = .fault then
        if a.v = 0 then w.upd fun a => { a.enterHold with fcause := 0, clrP := a.limp.level, clrN := a.limn.level } else w.refuse c 1
      else w
    | 0x46 => if a.st = .hold then w.homeStart e c else w.refuse c 1
    | 0x1B =>
      if a.st = .off ∨ a.st = .hold then
        w.upd fun a => { a.store 0x1B c.val with p := c.val.toInt, rp := 0 }
      else w.refuse c 1
    | 0x28 =>
      if a.st = .hold ∨ a.st.moving then w.upd fun a => { a.store 0x28 c.val with commit := some c.val.toNat } else w.refuse c 1
    | 0x20 => if a.st = .off then w.upd fun a => a.store 0x20 c.val else w.refuse c 1
    | 0x10 =>
      if e.compat ∧ a.st = .position ∧ a.v ≠ 0 then w.refuse c 2
      else if a.st = .position ∧ a.toLimit (a.diff c.val.toInt) then w.refuse c 3
      else w.param e c
    | 0x1A => if (a.st = .velocity ∨ a.st = .jog) ∧ a.toLimit c.val.toInt then w.refuse c 3 else w.param e c
    | _ => w.param e c

/-- Whether a command applies while an event of the axis is held (R143). -/
def TrvCmd.free (c : TrvCmd) : Bool := c.code == 2 || c.code == 3 || c.code == 4 || (c.code == 6 && fld c.val.toNat 0 4 == 1)

/-! ### Stall (R138, R139) -/

/-- Threshold met often enough: set STALL, or clear it (R138). -/
def TrvAx.judgeStall (a : TrvAx) : TrvAx :=
  let th := sxt 16 (fld (a.num' 0x24) 0 16)
  if a.load < th then { a with stall := false, stallN := 0 }
  else
    let n := a.stallN + 1
    { a with stallN := min n 255, stall := a.stall || decide (fld (a.num' 0x24) 16 8 ≤ n) }

/-- Binary angle (2^16 to the turn) of the vector (x, y) (R138): the nearest one within one unit, whose rounding is a free
value, as is the angle of the vector 0 (assumption log 41). -/
def binAngle (x y : Int) : Int :=
  if x = 0 ∧ y = 0 then Config.angle x y
  else ((angleBits 17 x y + 1) / 2 : Nat) + ((Config.angle x y % 3 : Nat) : Int) - 1

/-- Stall detection at a datum (R138). -/
def TrvAx.stallStep (a : TrvAx) (e : TrvEnv) : TrvAx :=
  let f := fld (a.num' 0x26) 0 12
  let act := fld (a.num' 0x24) 24 2
  let w (i : Nat) : Int := sxt 16 (fld (e.flowW f (i / 2)) (16 * (i % 2)) 16)
  let ia := w 2
  let ib := w 3
  if act = 0 ∨ !bitN (a.num' 0x26) 12 ∨ e.flowAge f ≠ 0 then a
  else if a.v.natAbs < a.num' 0x24 / 2 ^ 32 * 65536 then { a with iaPrev := ia, ibPrev := ib }
  else
    let r : Int := (fld (a.num' 0x25) 0 32 : Nat)
    let l : Int := (fld (a.num' 0x25) 32 32 : Nat)
    let em (u i ip : Int) : Int := u * 1000 * (e.T : Int) - r * i * (e.T : Int) - l * (i - ip) * 1000000
    let d := sxt 16 (wrapN 16 (binAngle (em (w 0) ia a.iaPrev) (em (w 1) ib a.ibPrev) - binAngle ia ib))
    { a with load := sxt 16 (wrapN 16 (0x4000 - (d.natAbs : Int))), iaPrev := ia, ibPrev := ib }.judgeStall

/-! ### Path (R124–R128) -/

/-- The knots of a record. -/
def knotsOf : Nat → List Byte → Option (List (Int × Int))
  | 0, _ => some []
  | n + 1, l =>
    if leAt l 12 4 = 0 then (knotsOf n (l.drop 16)).map fun r => (sxt 64 (leAt l 0 8), sxt 32 (leAt l 8 4)) :: r else none

/-- The number of knots that the head of a plan record announces: none if it breaks R124 or names another axis. -/
def planKnots (die axis : Nat) (h : List Byte) : Option Nat :=
  let k := fld (leAt h 0 4) 16 8
  if fld (leAt h 0 4) 24 8 = 0 ∧ 1 ≤ k ∧ k ≤ 16 ∧ fld (leAt h 4 4) 0 8 = die ∧ fld (leAt h 4 4) 8 24 = axis ∧ leAt h 8 8 = 0 then some k
  else none

/-- Read a plan record (R124): none if it breaks a rule or names another axis. -/
def readPlan (e : TrvEnv) (a : Nat) : Option Plan := do
  let h ← e.read a 16
  let k ← planKnots e.die e.axis h
  let b ← e.read (a + 16) (16 * k)
  (knotsOf k b).map fun ks => { seq := leAt h 0 2, knots := ks }

/-- The set-point of the cubic at its j-th datum (R126). -/
def Hermite.at (h : Hermite) (T : Nat) : Int :=
  let j : Int := h.j
  let m : Int := h.m
  let a := 3 * j ^ 2 * m - 2 * j ^ 3
  let b := j ^ 3 - 2 * j ^ 2 * m + j * m ^ 2
  let c := j ^ 3 - j ^ 2 * m
  h.p0 + roundHalfAway (a * (h.p1 - h.p0) * 1000000000 + (b * h.w0 + c * h.w1) * 65536 * m * T) (h.m ^ 3 * 1000000000)

/-- Set P in PATH or GEAR and derive V (R119, R120). -/
def TrvW.follow (w : TrvW) (T : Nat) (p : Int) : TrvW :=
  let d := p - w.ax.p
  let q := (w.upd fun b => { b with seg := 0 }).move d
  if q.causes.contains 6 then q else q.upd fun b => { b with v := Int.tdiv (d * 1000000000) T }

/-- A set-point of PATH or GEAR beyond a soft limit faults the axis, which ramps down from it (R122; assumption log 84). -/
def TrvW.inRange (w : TrvW) : TrvW := if w.ax.beyond w.ax.p then w.cause 11 else w

/-- Take the committed record, if there is one: true when a new plan was taken (R125). -/
def TrvW.takePlan (w : TrvW) (e : TrvEnv) : TrvW × Bool :=
  match w.ax.commit with
  | none => (w, false)
  | some r =>
    match readPlan e r with
    | none => ((w.upd fun a => { a with commit := none }).refuse ⟨0x28, 0, 0, false⟩ 4, false)
    | some p => (w.upd fun a => { a with commit := none, plan := some p, planSeq := p.seq, page := 0, aged := false }, true)

/-- Another plan period since the plan in force was taken (R127). -/
def TrvAx.pageUp (a : TrvAx) : TrvAx := if a.plan.isSome then { a with page := min (a.page + 1) 255 } else a

/-- The number of the knot that an axis in PATH takes at a plan datum: knot 0 where it entered PATH since the last one, else
the next of the plan in force (R126). -/
def TrvAx.knotNo (a : TrvAx) (p : Plan) : Nat := if a.herm.isNone then 0 else p.next

/-- The plan datum of an axis, after its advance: in any state a committed record is taken; in PATH the axis takes a knot from
the present set-point, or starves (R125–R127; assumption log 85). `path` says that the datum found it in PATH. -/
def TrvW.planDatum (w : TrvW) (e : TrvEnv) (path : Bool) : TrvW :=
  let (w, fresh) := w.takePlan e
  let w := if fresh then w else w.upd TrvAx.pageUp
  if !path then w
  else
  match w.ax.plan with
  | none => w.cause 7
  | some p =>
    let i := w.ax.knotNo p
    match p.knots[i]? with
    | none => w.cause 7
    | some k =>
      if w.ax.st ≠ .path then w
      else
        let h : Hermite := { p0 := w.ax.p, w0 := Int.tdiv w.ax.v 65536, p1 := k.1, w1 := k.2, j := 0, m := e.planN }
        let w := w.upd fun a => { a with plan := some { p with next := i + 1 }, herm := some h }
        if fresh ∨ w.ax.aged then w else ((w.upd fun a => { a with aged := true }).flag 5).ev 5

/-- The set-point of an axis in PATH: constant speed before its first plan datum, then along the cubic (R126). -/
def TrvW.pathMove (w : TrvW) (e : TrvEnv) : TrvW :=
  match w.ax.herm with
  | none => w.run e.T (sgn w.ax.v) w.ax.v.natAbs w.ax.v.natAbs 0
  | some h =>
    let h := { h with j := min (h.j + 1) h.m }
    (w.upd fun a => { a with herm := some h }).follow e.T (h.at e.T)

/-- The advance of an axis in PATH, with the flag of a speed above VMAX (R119, R122, R128). -/
def TrvW.pathStep (w : TrvW) (e : TrvEnv) : TrvW :=
  let w := (w.pathMove e).inRange
  if w.ax.num' 0x15 < (Int.tdiv w.ax.v 65536).natAbs then w.flag 4 else w

/-! ### Gear (R129–R132) -/

/-- The master value of an axis and its AGE. -/
def TrvAx.master (a : TrvAx) (e : TrvEnv) : Nat × Nat :=
  let c := a.num' 0x30
  let src := fld c 4 12
  match fld c 0 2 with
  | 0 => ((e.enc src).latched.toNat, 0)
  | 1 => (e.posW src, e.flowAge src)
  | _ => (wrapN 32 (e.axisP src), 0)

/-- NUM_eff at step `j` of a ramp (R132). -/
def GearRamp.eff (r : GearRamp) : Int := if r.n = 0 then r.new else r.old + Int.tdiv ((r.new - r.old) * r.j) r.n

/-- Advance a running ratio ramp by one datum (R132). -/
def TrvAx.rampStep (a : TrvAx) : TrvAx :=
  match a.ramp with
  | none => a
  | some r =>
    let r := { r with j := r.j + 1 }
    { a with num := r.eff, ramp := if r.n ≤ r.j then none else some r }

/-- Whether the master's step crosses the armed position in a permitted direction (R131). -/
def TrvAx.crosses (a : TrvAx) (m' : Int) : Bool :=
  match a.arm with
  | none => false
  | some g =>
    let d := fld (a.num' 0x34) 16 2
    (decide (a.m < g.pos) && decide (g.pos ≤ m') && d != 2) || (decide (g.pos < a.m) && decide (m' ≤ g.pos) && d != 1)

/-- The follow step (R130, R131); the entry datum only takes the master's position. -/
def TrvW.gearStep (w : TrvW) (e : TrvEnv) : TrvW :=
  let a := w.ax
  let (mv, age) := a.master e
  let typ := fld (a.num' 0x30) 0 2
  if a.mPrev = 2 ^ 32 then
    w.upd fun a => { a with m := sxt 32 mv, mPrev := mv, v := 0, seg := 0 }
  else
    let raw := sxt 32 (wrapN 32 ((mv : Int) - a.mPrev))
    let aged := typ = 1 ∧ 1 ≤ age
    let dm := if aged then (if bitN (a.num' 0x30) 16 then a.lastDm else 0) else raw
    let m' := a.m + dm
    let den : Int := ((a.num' 0x31 / 2 ^ 32 : Nat) : Int)
    let a1 := { a with mPrev := if aged then a.mPrev else mv, lastDm := if aged then a.lastDm else raw }
    match a.arm, a.crosses m' with
    | some g, true =>
      let x1 := (g.pos - a.m) * a.num + a.grem
      let dp1 : Int := x1 / den
      let g1 : Int := (x1 % den) * (g.den : Int) / den
      let n := fld (a.num' 0x34) 0 16
      let r : GearRamp := { old := a.num, new := g.num, j := 1, n := n }
      let x2 := (m' - g.pos) * r.eff + g1
      let dp2 := x2 / (g.den : Int)
      let a2 := { a1.store 0x31 (BitVec.ofNat 64 (wrapN 32 g.num + g.den * 2 ^ 32)) with m := m', grem := (x2 % (g.den : Int)).toNat, num := r.eff, arm := none }
      let a2 := { a2 with ramp := if n ≤ 1 then none else some r }
      ({ w with ax := a2 }.follow e.T (a.p + dp1 + dp2)).ev 4
    | _, _ =>
      let a1 := a1.rampStep
      let x := dm * a1.num + a.grem
      let dp := x / den
      { w with ax := { a1 with m := m', grem := (x % den).toNat } }.follow e.T (a.p + dp)

/-! ### Homing (R137) -/

/-- The end of SET: the position is redefined, modulo 2^64 (assumption log 123), and HOMED set. -/
def TrvW.homed (w : TrvW) (h : Home) : TrvW :=
  (w.upd fun a => { a.enterHold with p := sxt 64 (wrapN 64 (a.p - h.pl + a.posv 0x43)), latched := h.pl, homed := true }).ev 3

/-- Phase changes of homing at a datum, before the motion. -/
def TrvAx.homePhase (a : TrvAx) (e : TrvEnv) (h : Home) : TrvAx × Home :=
  let m := fld (a.num' 0x40) 0 3
  let idx := if e.hub then (e.enc e.axis).idxNew else decide (a.idxPos e ≠ h.idxLast)
  let h1 := { h with idxLast := a.idxPos e }
  match h.ph with
  | .search =>
    if m = 4 then
      if a.stall then ({ a with v := 0, rp := 0 }, { h1 with ph := .set, pl := a.p }) else (a, h1)
    else if a.refActive then (a, { h1 with ph := .backoff, flip := false, freeAt := none }) else (a, h1)
  | .backoff =>
    if a.refActive then (a, { h1 with freeAt := none })
    else
      match h.freeAt with
      | none => (a, { h1 with freeAt := some a.p, ph := if a.num' 0x44 = 0 then .latch else .backoff })
      | some p => (a, { h1 with ph := if a.num' 0x44 ≤ (a.diff p).natAbs then .latch else .backoff })
  | .latch =>
    if m = 3 then if idx then (a, { h1 with ph := .set, pl := a.idxPos e }) else (a, h1)
    else if m = 2 then
      let seen := h.refSeen || a.refActive
      if seen && idx then (a, { h1 with ph := .set, pl := a.idxPos e }) else (a, { h1 with refSeen := seen })
    else if a.refActive then (a, { h1 with ph := .set, pl := a.p }) else (a, h1)
  | .set => (a, h1)

/-- How many limits that are not the reference input became active since the last datum (R137; assumption log 124). -/
def TrvAx.newLimits (a : TrvAx) (h : Home) : Nat :=
  let ref (neg : Bool) : Bool := fld (a.num' 0x40) 0 3 == 0 && bitN (a.num' 0x40) 3 == neg
  b01 (a.limp.level && !h.limpWas && !ref false) + b01 (a.limn.level && !h.limnWas && !ref true)

/-- One datum of HOMING: the phase in force, then its motion. SET ends with the datum at rest (TrvW.close). -/
def TrvW.homing (w : TrvW) (e : TrvEnv) : TrvW :=
  match w.ax.home with
  | none => w.upd TrvAx.enterHold
  | some h0 =>
    let (a, h) := w.ax.homePhase e h0
    let m := fld (a.num' 0x40) 0 3
    let dir : Int := if h.neg then -1 else 1
    let watch := h.ph = .search ∨ (m = 3 ∧ h.ph = .latch)
    let met := if watch then a.newLimits h else 0
    let far := watch ∧ a.num' 0x45 ≠ 0 ∧ a.num' 0x45 < (a.diff h.startP).natAbs
    let h := { h with hits := h.hits + met, flip := h.flip || met != 0, limpWas := a.limp.level, limnWas := a.limn.level }
    let w := { w with ax := { a with home := some h } }
    if far ∨ (met ≠ 0 ∧ 2 ≤ h.hits) then (w.cause 5).qramp e.T
    else
      match h.ph with
      | .set => w.qramp e.T
      | .backoff => w.velocity e.T (-a.homeDir * a.spd 0x42) none
      | ph =>
        let spd : Int := if ph = .search then a.spd 0x41 else a.spd 0x42
        let dir := if ph = .latch ∧ m ≠ 3 then a.homeDir else dir
        if h.flip then
          if a.v = 0 then
            (w.upd fun a => { a with home := some { h with flip := false, neg := !h.neg } }).velocity e.T (-dir * spd) none
          else w.qramp e.T
        else w.velocity e.T (dir * spd) none

/-! ### Faults and the datum -/

/-- The place of a cause in the order of R398. -/
def causeRank (c : Nat) : Nat :=
  match c with
  | 6 => 1 | 8 => 2 | 3 => 3 | 1 => 4 | 2 => 5 | 11 => 6 | 10 => 7 | 7 => 8 | 4 => 9 | 5 => 10 | _ => 11

/-- The first cause in the order of R398. -/
def firstCause : List Nat → Option Nat
  | [] => none
  | c :: t =>
    match firstCause t with
    | none => some c
    | some d => if causeRank d < causeRank c then some d else some c

/-- Act on the causes met so far at the datum (R106, R398): FAULT with the first of all of them in the order of R398, or in
DISABLING a record of those that did not stand before (assumption log 125). -/
def TrvW.judge (w : TrvW) : TrvW :=
  match w.ax.st, firstCause w.causes with
  | _, none => w
  | .off, some _ => w
  | .fault, some c => if w.entered then w.upd fun a => { a with fcause := c } else w
  | .disabling, some _ =>
    match firstCause (w.causes.filter fun c => !w.ax.stood.contains c) with
    | none => w
    | some c => (w.upd fun a => { a with fcause := if a.fcause = 0 then c else a.fcause }).ev 6
  | _, some c => { (w.upd fun a => { a with st := .fault, fcause := c, home := none }).ev 6 with entered := true }

/-- The OFF state follows its feedback (R105, R121). A step of the encoder beyond the range ends at the limit (R120; assumption
log 123). -/
def TrvW.followOff (w : TrvW) (e : TrvEnv) : TrvW :=
  let a := w.ax
  let fb := fld (a.num' 0x20) 4 3
  let count := (e.enc e.axis).latched
  let w := w.upd fun a => { a with v := 0, seg := 0 }
  if e.hub then
    let w := w.upd fun a => { a with encPrev := count }
    if fb = 1 then
      let cpr : Int := a.num' 0x27
      let x := sxt 32 (wrapN 32 ((count.toNat : Int) - a.encPrev.toNat)) * 2 ^ 32 + a.er
      (w.upd fun a => { a with er := (x % cpr).toNat }).move (x / cpr)
    else w
  else if fb = 0 then w else w.upd fun a => { a with p := e.sleIn fb }

/-- The shut-down is complete (R106, R108). -/
def TrvW.disabled (w : TrvW) (e : TrvEnv) : TrvW :=
  if w.ax.v = 0 ∧ (e.hub ∨ e.sleOff) then
    let w := (w.upd fun a => { a with st := .off, ena := false, seg := 0, er := 0, encPrev := (e.enc e.axis).latched }).ev 7
    if w.ax.pendEn then w.upd TrvAx.enable else w
  else w

/-- The causes that stand before the advance (R122, R130, R135, R136, R138). -/
def TrvW.causesNow (w : TrvW) (e : TrvEnv) : TrvW :=
  let a := w.ax
  let act := fld (a.num' 0x24) 24 2
  let hm4 := a.st = .homing ∧ fld (a.num' 0x40) 0 3 = 4
  let w := if e.sleFault then w.cause 8 else w
  let w := if a.limp.chatters || a.limn.chatters || a.ref.chatters then w.cause 3 else w
  let w := if a.st ≠ .homing ∧ a.limp.level ∧ 0 < a.v then w.cause 1 else w
  let w := if a.st ≠ .homing ∧ a.limn.level ∧ a.v < 0 then w.cause 2 else w
  let w := if a.st = .gear ∧ fld (a.num' 0x30) 0 2 = 1 ∧ 16 ≤ e.flowAge (fld (a.num' 0x30) 4 12) then w.cause 10 else w
  if a.stall ∧ act = 2 ∧ !decide hm4 then w.cause 4 else w

/-- The advance of the datum by state (R105, R115–R118). -/
def TrvW.advance (w : TrvW) (e : TrvEnv) : TrvW :=
  match w.ax.st with
  | .off => w.followOff e
  | .hold => w.upd fun a => { a with seg := 0 }
  | .position => w.position e.T
  | .velocity => w.velocity e.T w.ax.vjog (w.ax.limAhead w.ax.vjog)
  | .jog =>
    let t := if w.ax.jogOut then 0 else w.ax.vjog
    w.velocity e.T t (w.ax.limAhead t)
  | .path => w.pathStep e
  | .gear => (w.gearStep e).inRange
  | .homing => w.homing e
  | .stopping => if w.ax.quick then w.qramp e.T else w.slow e.T
  | .disabling | .fault => w.qramp e.T

/-- What the datum at rest completes, once no fault has come first: STOPPING ends in HOLD, a shut-down in OFF, SET of homing in
HOLD (R106, R137). -/
def TrvW.close (w : TrvW) (e : TrvEnv) : TrvW :=
  match w.ax.st, w.ax.home with
  | .stopping, _ => if w.ax.v = 0 then (w.upd TrvAx.enterHold).ev 2 else w
  | .disabling, _ => w.disabled e
  | .homing, some h => if h.ph = .set ∧ w.ax.v = 0 then w.homed h else w
  | _, _ => w

/-- The jog timeout in datums (R117). -/
def jogLimit (T : Nat) : Nat := ceilDiv 100000000 T

/-- Lost-step estimate of a datum's travel (R139). -/
def TrvW.lostSteps (w : TrvW) (dp : Int) : TrvW :=
  if !w.ax.stall then w
  else
    let x := w.ax.lostAcc + dp.natAbs * fld (w.ax.num' 0x20) 16 16
    { w with ax := { w.ax with lostAcc := x % 2 ^ 32 }, lost := w.lost + x / 2 ^ 32 }

/-- A command that sets how the inputs are sampled: LIM_CFG, DEBOUNCE, CHATTER_WIN. -/
def TrvCmd.input (c : TrvCmd) : Bool := c.code == 0x21 || c.code == 0x22 || c.code == 0x23

/-- The samples of a datum: the inputs, the phase flow and the age of VJOG (R117, R133–R138). -/
def TrvAx.samples (a : TrvAx) (e : TrvEnv) : TrvAx :=
  let a := (a.sample e).stallStep e
  let a := { a with clrP := a.clrP && a.limp.level, clrN := a.clrN && a.limn.level, jogAge := a.jogAge + 1 }
  { a with jogOut := a.jogOut || decide (jogLimit e.T ≤ a.jogAge) }

/-- Inputs and commands of the datum: the commands that are due set the sampling, the inputs are sampled, then the other
commands that are due apply (R32, R134, R143; assumption log 31). -/
def TrvW.begin (w : TrvW) (e : TrvEnv) (lim : Nat) : TrvW :=
  let was := w.ax.stall
  let due (c : TrvCmd) : Bool := decide (c.phase ≤ lim) && (!e.held || c.free)
  let now := w.ax.cmds.filter due
  let w := w.upd fun a => { a with cmds := (a.cmds.filter fun c => !due c).map fun c => { c with phase := 0 } }
  let w := (now.filter TrvCmd.input).foldl (fun w c => w.cmd e c) w
  let w := w.upd fun a => a.samples e
  let a := w.ax
  let w := (now.filter fun c => !c.input).foldl (fun w c => w.cmd e c) w
  if a.stall && !was && fld (a.num' 0x24) 24 2 == 1 then w.flag 6 else w

/-! ### Step outputs (R141, R142) -/

/-- Place the steps of a cycle, in order; `i` numbers the boundary, `last` is the previous leading edge, `lo` the earliest
edge. A step at the end of the cycle is still placed (assumption log 38). Answers the edges, the last edge and the count of
dropped steps. -/
def placeSteps (at_ : Nat → Int) (lo spacing : Int) (T : Nat) : Nat → Nat → Int → List Nat × Int × Nat
  | 0, _, last => ([], last, 0)
  | n + 1, i, last =>
    let t := max (max (at_ i) lo) (last + spacing)
    if (T : Int) < t then ([], last, n + 1)
    else
      let (l, z, d) := placeSteps at_ lo spacing T n (i + 1) t
      (t.toNat :: l, z, d)

/-- Emit the steps of the set-point change `dp` that leads to the present P, in the cycle of length `T` that follows one of
length `told`; DIR is set to the direction of the change (R141, R142; assumption log 38). -/
def TrvW.emit (w : TrvW) (T told : Nat) (dp : Int) : TrvW :=
  let a := w.ax
  let spr : Int := (a.num' 0x20 / 2 ^ 32 : Nat)
  let last := a.stepLast - told
  if dp = 0 then w.upd fun a => { a with steps := [], stepLast := last }
  else
    let p0 := a.p - dp
    let b0 := p0 * spr / 2 ^ 32
    let b1 := a.p * spr / 2 ^ 32
    let n := (b1 - b0).natAbs
    let pos := decide (0 < dp)
    let pin := pos != bitN a.stpCfg.toNat 1
    let turn := pin != a.dirPin
    let pw := fld a.stpCfg.toNat 4 8 * 10
    let su := fld a.stpCfg.toNat 12 8 * 10
    let spacing : Int := max (2 * pw) 250
    let b (i : Nat) : Int := if pos then b0 + 1 + i else b0 - i
    let span := dp.natAbs * spr
    let at_ (i : Nat) : Int := 2 * (((b i * 2 ^ 32 - p0 * spr).natAbs * T + span) / (2 * span))
    let held := decide (at_ 0 < last + spacing)
    let most := if turn then (((T - su : Nat) : Int) / spacing).toNat else if held then n else ((T : Int) / spacing).toNat
    let (l, z, d) := placeSteps at_ (if turn then su else 0) spacing T (min n most) 0 last
    let d := d + (n - min n most)
    let w := { w with ax := { a with steps := l, stepLast := z, dirPin := pin }, lost := w.lost + d }
    if d = 0 then w else w.cause 9

/-- The advance of the datum: the causes that stand, the step, the plan datum and the emitted steps, then the judgement of all
causes of the datum together and what it completes (R106, R119, R398; assumption log 125). -/
def TrvW.finish (w : TrvW) (e : TrvEnv) : TrvW :=
  let a0 := w.ax
  let w := w.causesNow e
  let w := if w.ax.st = .disabling then w else w.judge
  let w := w.advance e
  let w := if e.plan then w.planDatum e (a0.st == .path) else w
  let dp := -(w.ax.diff a0.p)
  let w := (if e.hub then w.emit e.T e.told dp else w).lostSteps dp
  let w := w.judge.close e
  w.upd fun a =>
    { a with
      stood := w.causes, reversing := a.reversing && a.st == .position
      acc := Int.tdiv ((Int.tdiv a.v 65536 - Int.tdiv a0.v 65536) * 1000000000) e.T }

end Sys2Proof.Machine
end

