-- ==== Sys2Proof/Machine/SleDie.lean ====
section
/-! DEFINITION. The Servo Loop Engine at work: acceptance of commands, the datum, loads and the sample (chapter 06). -/

namespace Sys2Proof.Machine

/-! ### Access -/

/-- The SLE of a die. -/
def State.sleOf (s : State) (d : Nat) : Sle := Table.get (fun _ => {}) s.sle d
/-- Replace the SLE of a die. -/
def State.setSle (s : State) (d : Nat) (x : Sle) : State := { s with sle := Table.set (fun _ => {}) s.sle d x }
/-- Change the SLE of a die. -/
def State.updSle (s : State) (d : Nat) (f : Sle → Sle) : State := s.setSle d (f (s.sleOf d))
/-- An axis of an SLE. -/
def Sle.axis (x : Sle) (n : Nat) : SleAx := Table.get (fun _ => {}) x.ax n
/-- An axis of the SLE of a die. -/
def State.sleAx (s : State) (d n : Nat) : SleAx := (s.sleOf d).axis n
/-- Replace an SLE axis. -/
def State.setSleAx (s : State) (d n : Nat) (a : SleAx) : State :=
  s.updSle d fun x => { x with ax := Table.set (fun _ => {}) x.ax n a }
/-- Change an SLE axis. -/
def State.updSleAx (s : State) (d n : Nat) (f : SleAx → SleAx) : State := s.setSleAx d n (f (s.sleAx d n))
/-- A Traverse axis. -/
def State.trvAx (s : State) (d n : Nat) : TrvAx := Table.get (fun _ => {}) s.trv (32 * d + n)
/-- Replace a Traverse axis. -/
def State.setTrvAx (s : State) (d n : Nat) (a : TrvAx) : State := { s with trv := Table.set (fun _ => {}) s.trv (32 * d + n) a }
/-- Change a Traverse axis. -/
def State.updTrvAx (s : State) (d n : Nat) (f : TrvAx → TrvAx) : State := s.setTrvAx d n (f (s.trvAx d n))

/-- A register of an SLE axis (R167). -/
def sleReg (d n off : Nat) : Nat := rg d 1 (0x1000 + 0x80 * n + off)

/-- A loaded program. -/
def Sle.prog' (x : Sle) (p : Nat) : Option SleProg := Table.get (fun _ => none) x.progs p
/-- A loop-mode entry, in the LMCFG format. -/
def SleAx.entryOf (a : SleAx) (bank : Bool) (m : Nat) : Nat := Table.get (fun _ => 0) a.lm (4 * b01 bank + m)
/-- The program of a loop-mode entry, none if the entry is not valid or its program is not loaded. -/
def Sle.entryProg (x : Sle) (a : SleAx) (bank : Bool) (m : Nat) : Option SleProg :=
  let e := a.entryOf bank m
  if bitN e 3 then x.prog' (fld e 4 6) else none

/-- AXCFG fields (R163). -/
def SleAx.cfg (a : SleAx) (lo w : Nat) : Nat := fld a.axcfg.toNat lo w
/-- HO_SAMPLES. -/
def SleAx.hoSamples (a : SleAx) : Nat := fld a.hocfg.toNat 0 7
/-- HO_LIMIT. -/
def SleAx.hoLimit (a : SleAx) : Nat := fld a.hocfg.toNat 32 31
/-- The stored binding of an input. -/
def SleAx.inBind (a : SleAx) (i : Nat) : Nat := (Table.get (fun _ => 0#64) a.inb i).toNat
/-- The stored binding of an output. -/
def SleAx.outBind (a : SleAx) (o : Nat) : Nat := (Table.get (fun _ => 0#64) a.outb o).toNat
/-- An input at the most recent sample. -/
def SleAx.input (a : SleAx) (i : Nat) : W64 := Table.get (fun _ => 0#64) a.inp i
/-- AGE of an input at the most recent sample. -/
def SleAx.inputAge (a : SleAx) (i : Nat) : Nat := Table.get (fun _ => 0) a.inAge i
/-- The last value sent on an output. -/
def SleAx.lastOut (a : SleAx) (o : Nat) : W64 := Table.get (fun _ => 0#64) a.out o
/-- A coefficient slot of a bank. -/
def SleAx.slot (a : SleAx) (bank : Bool) (k : Nat) : Nat := Table.get (fun _ => 0) a.coef (32 * b01 bank + k)

/-- Fire an event of an SLE axis (R166). -/
def State.sleEvent (s : State) (d n code : Nat) : State :=
  s.fireEng (.sle d n) (sleReg d n 0x1C) code (code * 65536 + d * 256 + n)

/-- Set a sticky flag of SLE_AXn_FLAG. -/
def State.sleFlag (s : State) (d n bit : Nat) : State := s.setRf (sleReg d n 0x14) bit 1 1

/-- A refusal at the datum: CMDREF, LASTREF and event CMDREF (R163). -/
def State.sleRefuse (s : State) (d n code reason : Nat) : State :=
  ((s.updSleAx d n fun a => { a with lastRef := code + reason * 256 }).sleFlag d n 3).sleEvent d n 7

/-! ### Acceptance (R163) -/

/-- Whether the value of a command lies in its range. -/
def sleRange (code v : Nat) : Bool :=
  match code with
  | 0x01 | 0x03 => true
  | 0x02 => decide (v < 64)
  | 0x04 => decide (v < 2 ^ 43)
  | 0x05 => decide (v < 2)
  | 0x06 => decide (v < 4)
  | 0x07 => decide (v < 2 ^ 14) && (decide (fld v 10 3 ≤ 3) || fld v 10 3 == 7)
  | 0x08 => decide (v < 2 ^ 22) && decide (3 ≤ fld v 0 3)
  | 0x09 => fld v 19 13 == 0
  | 0x0A => (fld v 0 3 == 0 || decide (3 ≤ fld v 0 3)) && fld v 17 7 == 0 && fld v 32 32 == 0
  | 0x0B => decide (fld v 0 7 ≤ 64) && fld v 7 25 == 0 && fld v 63 1 == 0
  | _ => false

/-- Issue a command to the SLE: the state and the status (R70, R163). -/
def State.sleCommand (s : State) (d n code : Nat) (v : W64) : State × Nat :=
  if !(1 ≤ code && code ≤ 0x0B) then (s, 5)
  else if !sleRange code v.toNat then (s, 6)
  else if !s.inService d then (s, 8)
  else (s.updSle d fun x => { x with cmds := x.cmds ++ [⟨n, code, v, s.mer.phase⟩] }, 0)

/-! ### Swaps, hand-over requests and the other commands at the datum -/

/-- Clamp the integrators of a mask with the slots of a bank (R151): the terms and the mask of those that changed. -/
def clampAll (e : LoopEnv) (mask : Nat) : List Nat → LoopSt → Nat → LoopSt × Nat
  | [], l, ch => (l, ch)
  | i :: t, l, ch =>
    if bitN mask i then
      let y := e.clamp i (l.integ i)
      clampAll e mask t (l.setInteg i y) (if y = l.integ i then ch else ch ||| 2 ^ i)
    else clampAll e mask t l ch

/-- A run's view of the coefficients of a bank. -/
def SleAx.bankEnv (a : SleAx) (bank : Bool) : LoopEnv :=
  { coef := a.slot bank, inp := a.input, age := a.inputAge, tab := fun t => Table.get (fun _ => {}) a.tabs t }

/-- A pending swap takes effect, is refused, or waits for the end of a hand-over (R150, R151). -/
def State.sleSwap (s : State) (d n : Nat) : State :=
  let a := s.sleAx d n
  match a.swap with
  | none => s
  | some b =>
    if a.st = .handover then s
    else
      match (s.sleOf d).entryProg a b a.lmode with
      | none => (s.setSleAx d n { a with swap := none }).sleRefuse d n 5 5
      | some p =>
        if a.st = .off then (s.setSleAx d n { a with swap := none, bank := b }).sleEvent d n 2
        else
          let (l, ch) := clampAll (a.bankEnv b) p.integ [0, 1, 2, 3] a.loop 0
          if ch = 0 then (s.setSleAx d n { a with swap := none, bank := b }).sleEvent d n 2
          else ((s.setSleAx d n { a with swap := none, bank := b, loop := l, swcli := ch }).sleFlag d n 1).sleEvent d n 3

/-- LMODE applies (R158): in OFF it sets the loop mode, in RUN it starts a hand-over; both ask for a loaded program (assumption log
43). -/
def State.sleLmode (s : State) (d n m : Nat) : State :=
  let a := s.sleAx d n
  let x := s.sleOf d
  match a.st with
  | .off => if (x.entryProg a a.bank m).isSome then s.setSleAx d n { a with lmode := m } else s.sleRefuse d n 6 5
  | .run =>
    if m = a.lmode then s.sleRefuse d n 6 1
    else
      match x.entryProg a a.bank m with
      | none => s.sleRefuse d n 6 5
      | some p =>
        let cur := ((x.entryProg a a.bank a.lmode).map fun q => q.words.length).getD 0
        if 256 < cur + p.words.length then s.sleRefuse d n 6 6
        else s.setSleAx d n { a with st := .handover, outgoing := a.lmode, hoReq := some m, hoj := 0 }
  | _ => s.sleRefuse d n 6 1

/-- Read a gain-table record (R156): none if it breaks its layout. -/
def State.readGtab (s : State) (a : Nat) : State × Option (Nat × GainTab) :=
  if a % 8 ≠ 0 ∨ !s.sramRange a 264 ∨ !s.rangeAnswers a 264 then (s, none)
  else
    match s.readMem a 264 1 with
    | (t, none) => (t, none)
    | (t, some l) =>
      let h := leAt l 4 4
      if 2 ^ 31 ≤ leAt l 0 4 ∨ fld h 5 3 ≠ 0 ∨ fld h 10 22 ≠ 0 ∨ 25 < fld h 0 5 then (t, none)
      else
        let ys := (List.range 64).foldl (fun y i => Table.set (fun _ => 0) y i (sxt 32 (leAt l (8 + 4 * i) 4))) []
        (t, some (fld h 8 2, { x0 := leAt l 0 4, e := fld h 0 5, ys := ys }))

/-- A program number is named by a valid entry of an axis: in any bank, or (`act`) in the active bank of an axis that is not
OFF (R153, R155). -/
def Sle.names (x : Sle) (p : Nat) (act : Bool) : Bool :=
  (List.range 24).any fun n =>
    let a := x.axis n
    [false, true].any fun b => (!act || (b == a.bank && a.st != .off)) &&
      (List.range 4).any fun m => bitN (a.entryOf b m) 3 && fld (a.entryOf b m) 4 6 == p

/-- One command applies at the datum (R152, R155, R156, R163). -/
def State.sleApply (s : State) (d : Nat) (c : SleCmd) (lastBank : Bool) : State :=
  let n := c.unit
  let v := c.val.toNat
  let a := s.sleAx d n
  match c.code with
  | 0x01 => s.updSle d fun x => { x with loads := x.loads ++ [v] }
  | 0x02 =>
    if (s.sleOf d).names v false then s.sleRefuse d n 2 1
    else s.updSle d fun x => { x with progs := Table.set (fun _ => none) x.progs v none }
  | 0x03 =>
    match s.readGtab v with
    | (t, none) => t.sleRefuse d n 3 4
    | (t, some (k, g)) => t.updSleAx d n fun a => { a with tabs := Table.set (fun _ => {}) a.tabs k g }
  | 0x04 => s.setSleAx d n { a with coef := Table.set (fun _ => 0) a.coef (32 * fld v 42 1 + fld v 37 5) (fld v 0 37) }
  | 0x05 =>
    let b := v == 1
    let t := s.setSleAx d n { a with swap := if b = a.bank then none else some b }
    if lastBank then t.sleSwap d n else t
  | 0x06 => s.sleLmode d n v
  | 0x07 =>
    if bitN v 2 = a.bank ∧ fld v 0 2 = a.lmode ∧ a.st ≠ .off then s.sleRefuse d n 7 1
    else s.setSleAx d n { a with lm := Table.set (fun _ => 0) a.lm (4 * fld v 2 1 + fld v 0 2) v }
  | 0x08 => if a.st ≠ .off then s.sleRefuse d n 8 1 else s.setSleAx d n { a with inb := Table.set (fun _ => 0#64) a.inb (fld v 0 3) c.val }
  | 0x09 => if a.st ≠ .off then s.sleRefuse d n 9 1 else s.setSleAx d n { a with outb := Table.set (fun _ => 0#64) a.outb (fld v 0 2) c.val }
  | 0x0A => s.setSleAx d n { a with axcfg := c.val }
  | _ => s.setSleAx d n { a with hocfg := c.val }

/-- Apply commands in their order of acceptance; on a sheet that is DRAINING the axis commands are refused (R71, R335). -/
def sleApplyAll (d : Nat) : List SleCmd → State → State
  | [], s => s
  | c :: t, s =>
    let last := !t.any fun x => x.unit == c.unit && x.code == 5
    sleApplyAll d t (if !s.inService d && decide (3 ≤ c.code) then s.sleRefuse d c.unit c.code 1 else s.sleApply d c last)

/-! ### State changes at the datum (R148) -/

/-- Enter RUN from OFF or FAULT, or FAULT with cause NOPROG. -/
def State.sleEnterRun (s : State) (d n : Nat) : State :=
  let a := s.sleAx d n
  match (s.sleOf d).entryProg a a.bank a.lmode with
  | some _ => s.setSleAx d n { a with st := .run, entry := true, hoj := 0, fcause := 0, fromFault := false }
  | none => (s.setSleAx d n { a with st := .fault, fcause := 3, declared := true, hoj := 0, fromFault := false }).sleEvent d n 1

/-- DISABLING completes: the axis is reported disabled (R148). -/
def State.sleOffDone (s : State) (d n : Nat) : State :=
  if (s.sleAx d n).st = .disabling ∧ (s.sleAx d n).offcnt = 0 ∧ (s.sleOf d).sampled then
    (s.updSleAx d n fun a => { a with st := .off, shown := { st := .off } }).sleEvent d n 8
  else s

/-- The state change that Traverse brings: its states before and after this datum's advance. -/
def State.sleFollow (s : State) (d n : Nat) (before : TrvSt) : State :=
  let t := s.trvAx d n
  let a := s.sleAx d n
  if t.st = .off then s.setSleAx d n { a with st := .off, entry := false, hoReq := none, hoj := 0, outgoing := 0 }
  else if a.st = .off then (if t.st = .disabling ∧ before ≠ .off then s else s.sleEnterRun d n)
  else if a.st = .fault ∧ before = .fault ∧ t.st ≠ .fault ∧ t.st ≠ .disabling then s.sleEnterRun d n
  else if t.st = .disabling ∧ t.v = 0 ∧ a.st ≠ .disabling then
    s.setSleAx d n { a with st := .disabling, fromFault := decide (a.st = .fault), offcnt := a.cfg 24 8, hoReq := none, hoj := 0, outgoing := 0 }
  else s

/-- The SLE's share of a datum, after the Traverse advance (R30 step 5, R148, R154). `before` gives the Traverse states
before the advance, `lim` the latest phase of a command that applies. -/
def State.sleDatum (s : State) (lim d : Nat) (before : Nat → TrvSt) : State :=
  if !s.answers d then s
  else
    let x := s.sleOf d
    let due (c : SleCmd) : Bool := decide (c.phase ≤ lim) && (decide (c.code ≤ 2) || !s.holds (.sle d c.unit))
    let now := x.cmds.filter due
    let rest := (x.cmds.filter fun c => !due c).map fun c => { c with phase := 0 }
    let s := s.setSle d { x with cmds := rest, lso := fld (s.par (rg d 1 0x04)).toNat 0 16, sampled := false }
    let s := (List.range 24).foldl (fun s n =>
      if now.any (fun c => c.unit == n && c.code == 5) then s else s.sleSwap d n) s
    let s := sleApplyAll d now s
    let s := (List.range 24).foldl (fun s n => s.sleFollow d n (before n)) s
    if s.holds (.sleLoad d) then s
    else
      match (s.sleOf d).loads with
      | [] => s
      | v :: t => s.updSle d fun x => { x with loads := t, loading := some v }

/-! ### Loads (R153, R154) -/

/-- The words of a byte string. -/
def wordsOfBytes : Nat → List Byte → List W32
  | 0, _ => []
  | n + 1, l => BitVec.ofNat 32 (leAt l 0 4) :: wordsOfBytes n (l.drop 4)

/-- Whether a new program at `base` with `len` words meets another loaded program. -/
def Sle.overlap (x : Sle) (p base len : Nat) : Bool :=
  x.progs.any fun kv => kv.1 != p && kv.2.any fun q => decide (q.base < base + len) && decide (base < q.base + q.words.length)

/-- Check a load record: its result, index, program number, and the program if it passes (R153). -/
def State.checkLoad (s : State) (d a : Nat) : State × Nat × Nat × Nat × Option SleProg :=
  if a % 32 ≠ 0 ∨ !s.sramRange a 16 ∨ !s.rangeAnswers a 16 then (s, 9, 0, 0, none)
  else
    match s.readMem a 16 1 with
    | (t, none) => (t, 9, 0, 0, none)
    | (t, some h) =>
      let p := fld (leAt h 0 4) 0 6
      let base := fld (leAt h 4 4) 0 14
      let len := fld (leAt h 8 4) 0 9
      if leAt h 0 4 / 64 ≠ 0 ∨ leAt h 4 4 / 2 ^ 14 ≠ 0 ∨ leAt h 8 4 / 512 ≠ 0 ∨ leAt h 12 4 ≠ 0 then (t, 9, 0, p, none)
      else if len = 0 ∨ 256 < len ∨ 16384 < base + len then (t, 2, 0, p, none)
      else if !t.sramRange a (16 + 4 * len) then (t, 9, 0, p, none)
      else
        match t.readMem (a + 16) (4 * len) 1 with
        | (u, none) => (u, 9, 0, p, none)
        | (u, some b) =>
          let ws := wordsOfBytes len b
          match loopCheck ws with
          | (0, _) =>
            if (u.sleOf d).overlap p base len then (u, 7, 0, p, none)
            else if (u.sleOf d).names p true then (u, 8, 0, p, none)
            else (u, 1, 0, p, some { base := base, words := ws, integ := integMask ws })
          | (r, i) => (u, r, i, p, none)

/-- The load of this cycle is performed (R154). -/
def State.sleLoad (s : State) (d : Nat) : State :=
  match (s.sleOf d).loading with
  | none => s
  | some a =>
    let (t, r, i, p, prog) := s.checkLoad d a
    let t := t.updSle d fun x => { x with loading := none, result := r, index := i, prog := p, progs := if prog.isSome then Table.set (fun _ => none) x.progs p prog else x.progs }
    let ok := r = 1
    if t.rb (rg d 1 0x1C) (if ok then 16 else 17) then
      t.fireHeld (.sleLoad d) (t.rf (rg d 1 0x1C) 0 9) ((if ok then 9 else 10) * 65536 + d * 256 + p)
    else t

/-! ### The sample (R145) -/

/-- Input `i` of an axis: value and AGE (R80, R163, R273). -/
def State.sleInput (s : State) (d n i : Nat) : W64 × Nat :=
  let t := s.trvAx d n
  match i with
  | 0 => (w64 t.p, 0)
  | 1 => (w64 t.vel32, 0)
  | 2 => (w64 t.acc32, 0)
  | _ =>
    let b := (s.sleAx d n).inBind i
    let f := fld b 3 12
    let w := fld b 15 3
    if !bitN b 21 then (0, 0)
    else
      let v : Int := if bitN b 18 then ((s.flowWord f w + s.flowWord f (w + 1) * 2 ^ 32 : Nat) : Int)
        else if bitN b 19 then sxt 32 (s.flowWord f w) else ((s.flowWord f w : Nat) : Int)
      (w64 v, s.flowAge s.mer.cycle f)

/-- Step 1: form the inputs, and the largest AGE of the critical ones. -/
def State.sleInputs (s : State) (d n : Nat) : State :=
  let l := (List.range 8).map fun i => s.sleInput d n i
  let crit := (List.range 8).filter fun i => decide (3 ≤ i) && bitN ((s.sleAx d n).inBind i) 21 && bitN ((s.sleAx d n).inBind i) 20
  let age := crit.foldl (fun m i => max m (l.getD i (0, 0)).2) 0
  s.updSleAx d n fun a => { a with
    inp := (List.range 8).foldl (fun t i => Table.set (fun _ => 0#64) t i (l.getD i (0, 0)).1) []
    inAge := (List.range 8).foldl (fun t i => Table.set (fun _ => 0) t i (l.getD i (0, 0)).2) []
    age := age, instr := 0 }

/-- The measured value of R157. -/
def SleAx.measured (a : SleAx) : Int := (a.input (if a.cfg 0 3 < 3 then 0 else a.cfg 0 3)).toInt

/-- The OFFVAL outputs (R145, R163). -/
def SleAx.offvals (a : SleAx) : Table W64 := (List.range 4).map fun o => (o, w64 (sxt 32 (fld (a.outBind o) 32 32)))

/-- The previous outputs (R148 STALE). -/
def SleAx.prevOuts (a : SleAx) : Table W64 := (List.range 4).map fun o => (o, a.lastOut o)

/-- What a run leaves: the axis with its program state and instruction count. -/
def SleAx.after (a : SleAx) (r : LoopRun) : SleAx := { a with loop := r.s, instr := a.instr + r.n }

/-- Output 0 of a run. -/
def LoopRun.out0 (r : LoopRun) (dflt : W64) : Int := (Table.get (fun _ => dflt) r.out 0).toInt

/-- A run of a program that may be missing. -/
def runOpt (e : LoopEnv) (p : Option SleProg) (l : LoopSt) : LoopRun :=
  match p with
  | some q => runLoop e q l
  | none => { s := l }

/-- What the hand-over sample and the blend samples do: the axis, the outputs sent and the event, if any (R158, R159). -/
def SleAx.handover (x : Sle) (a : SleAx) : SleAx × Table W64 × Option Nat :=
  let e := a.bankEnv a.bank
  match a.hoReq with
  | some m =>
    let ent := a.entryOf a.bank m
    let ro := runOpt e (x.entryProg a a.bank a.outgoing) a.loop
    let l := if bitN ent 13 then { ro.s with rmp := a.measured } else ro.s
    let ri := runOpt e (x.entryProg a a.bank m) l
    let b : SleAx := { a with loop := l, instr := a.instr + ro.n + ri.n, hoReq := none }
    let delta := ro.out0 (a.lastOut 0) - ri.out0 0
    if (a.hoLimit : Int) < delta.natAbs then ({ b with st := .run, outgoing := 0 }, ro.out, some 5)
    else
      let h := fld ent 10 3
      let b := if h = 7 then b else { b with loop := b.loop.setInteg h (e.clamp h (b.loop.integ h + delta)) }
      let b := { b with lmode := m, hoj := 0 }
      if a.hoSamples = 0 then ({ b with st := .run, outgoing := 0 }, ro.out, some 4) else (b, ro.out, none)
  | none =>
    let j := a.hoj + 1
    let ro := runOpt { e with outgoing := true } (x.entryProg a a.bank a.outgoing) a.loop
    let ri := runOpt e (x.entryProg a a.bank a.lmode) ro.s
    let yo := ro.out0 (a.lastOut 0)
    let yi := ri.out0 (a.lastOut 0)
    let y := if a.hoSamples ≤ j then yi else yo + Int.tdiv ((yi - yo) * j) a.hoSamples
    let y := satI (if bitN (a.outBind 0) 17 then 64 else 32) y
    let b : SleAx := { a with loop := ri.s, instr := a.instr + ro.n + ri.n, hoj := j }
    let out := ri.out.put 0 (w64 y)
    if a.hoSamples ≤ j then ({ b with st := .run, outgoing := 0, hoj := 0 }, out, some 4) else (b, out, none)

/-- Step 2: the checks for stale feedback (R161): the axis and whether STALE_HOLD fires. A running hand-over ends with the
incoming loop mode in force. -/
def SleAx.staleCheck (a : SleAx) : SleAx × Bool :=
  if a.age = 0 then (if a.st = .stale then { a with st := .run } else a, false)
  else if a.cfg 3 1 = 0 ∧ (a.st = .run ∨ a.st = .handover) then
    ({ a with st := .stale, lmode := if a.st = .handover then a.hoReq.getD a.lmode else a.lmode, hoReq := none, hoj := 0, outgoing := 0 }, true)
  else (a, false)

/-- Step 4: run the program or programs by state: the axis, the outputs to send and the event. -/
def SleAx.runState (x : Sle) (a : SleAx) : SleAx × Table W64 × Option Nat :=
  let noRun := a.cfg 16 1 = 1 ∧ (a.st = .fault ∨ (a.st = .disabling ∧ a.fromFault))
  if a.st = .off ∨ noRun then (a, a.offvals, none)
  else if a.st = .stale then (a, a.prevOuts, none)
  else if a.st = .handover then a.handover x
  else
    match x.entryProg a a.bank a.lmode with
    | none => (a, a.offvals, none)
    | some p =>
      let r := runLoop (a.bankEnv a.bank) p a.loop
      (a.after r, r.out, none)

/-- The fault that the sample brings: STALE when AGE exceeds AGE_MAX, PLAUS when PCOUNT reaches PLAUS_N; 0 none (R160,
R161). -/
def SleAx.sampleFault (a : SleAx) : Nat :=
  if !(a.st = .run ∨ a.st = .handover ∨ a.st = .stale) then 0
  else if a.cfg 4 4 < a.age then 1
  else if a.cfg 8 8 ≠ 0 ∧ a.cfg 8 8 ≤ a.loop.pcount then 2
  else 0

/-- Distinct numbers of a list, in order of first occurrence. -/
def distinct : List Nat → List Nat
  | [] => []
  | x :: t => x :: (distinct t).filter fun y => y != x

/-- Whether a value on an output goes out: bound, to a word below WORDS of a flow that the Gazetteer assigns to the node for
transmission; else it is discarded (R163). -/
def State.sleBound (s : State) (a : SleAx) (o : Nat) : Bool :=
  let b := a.outBind o
  let g := s.gaz (fld b 2 12)
  bitN b 18 && g.valid && g.tx && decide (fld b 14 3 < g.words)

/-- Step 5: the outputs go to their bound flows, one commit for each flow (R146, R274). -/
def State.sleSend (s : State) (d n : Nat) (out : Table W64) : State :=
  let a := s.sleAx d n
  let bound := out.filter fun kv => s.sleBound a kv.1
  let s := s.updSleAx d n fun a => { a with out := bound.foldl (fun t kv => Table.set (fun _ => 0#64) t kv.1 kv.2) a.out }
  let words (kv : Nat × W64) : List (Nat × Nat) :=
    let w := fld (a.outBind kv.1) 14 3
    if bitN (a.outBind kv.1) 17 then [(w, kv.2.toNat % 2 ^ 32), (w + 1, kv.2.toNat / 2 ^ 32)] else [(w, kv.2.toNat % 2 ^ 32)]
  (distinct (bound.map fun kv => fld (a.outBind kv.1) 2 12)).foldl (fun s f =>
    s.commitFlow f ((bound.filter fun kv => fld (a.outBind kv.1) 2 12 == f).flatMap words)) s

/-- The sample of one axis (R145, R148, R160–R162). -/
def State.sleAxis (s : State) (d n : Nat) : State :=
  let s := s.sleInputs d n
  let x := s.sleOf d
  let (a, hold) := (s.sleAx d n).staleCheck
  let a := if a.entry ∧ a.st ≠ .off then { a with entry := false, loop := { rmp := a.measured, pred := a.loop.pred } } else a
  let (b, out, ev) := a.runState x
  let f := b.sampleFault
  let out := if f ≠ 0 ∧ b.cfg 16 1 = 1 then b.offvals else out
  let c := if f ≠ 0 then { b with st := .fault, fcause := f, declared := true, hoj := 0, hoReq := none, outgoing := 0 } else b
  let c := if c.st = .disabling then { c with offcnt := c.offcnt - 1 } else c
  let s := s.setSleAx d n { c with shown := { st := c.st, outgoing := c.outgoing, hoj := c.hoj } }
  let s := if a.st = .stale then (s.count (sleReg d n 0x28) 0 16).sleFlag d n 4 else s
  let s := s.setRf (sleReg d n 0x24) 8 8 (max (s.rf (sleReg d n 0x24) 8 8) c.loop.pcount)
  let s := if hold then s.sleEvent d n 6 else s
  let s := if ev = some 5 then s.sleFlag d n 2 else s
  let s := match ev with
    | some e => s.sleEvent d n e
    | none => s
  let s := if f ≠ 0 then s.sleEvent d n 1 else s
  s.sleSend d n out

/-- The feedback flows of the sheet's enabled axes (R33). -/
def State.sleFeedback (s : State) (d : Nat) : List Nat :=
  (List.range 24).flatMap fun n =>
    let a := s.sleAx d n
    if a.st = .off then [] else ((List.range' 3 5).filter fun i => bitN (a.inBind i) 21).map fun i => fld (a.inBind i) 3 12

/-- Whether every feedback flow of the sheet's enabled axes has arrived in this cycle (R33). -/
def State.sleReady (s : State) (d : Nat) : Bool := (s.sleFeedback d).all s.arrived

/-- The latest start offset in ns (R145). -/
def State.sleLso (s : State) (d : Nat) : Nat := min ((s.sleOf d).lso * 100) (s.mer.cycleLen - 26000)

/-- The axes in the given order, each once, those left out following in rising order. -/
def axisOrder (order : List Nat) : List Nat := distinct ((order.filter fun n => decide (n < 24)) ++ List.range 24)

/-- The instant at which R33 starts the sample: the arrival of the last feedback flow, or the latest start offset. -/
def State.sleStart (s : State) (d : Nat) : Nat :=
  let lso := s.sleLso d
  if s.sleReady d then min lso ((s.sleFeedback d).foldl (fun m f => max m (s.flow f).arrNs) 0) else lso

/-- The pass over the axes of a sheet and its report, for a sample that starts `start` ns after the datum (R145, R147). -/
def State.slePass (s : State) (d start : Nat) (order : List Nat) : State :=
  let late := decide (s.sleLso d ≤ start)
  let t := (axisOrder order).foldl (fun s n => s.sleAxis d n) s
  let cnt := (List.range 24).foldl (fun k n => k + (t.sleAx d n).instr) 0
  let dur := Config.sleDur t.freeCtr % ((1000 + 4 * cnt) / 10 + 1)
  let t := { t with freeCtr := t.freeCtr + 1 }
  let t := t.updSle d fun x => { x with sampled := true, tlast := start, late := late, instr := cnt, dur := dur }
  if late then t.count (rg d 1 0x18) 0 16 else t

/-- The sample of a sheet, with Meridian run to `at_` ns after the datum where that lies ahead: it takes place once its start
instant is reached (R33; assumption log 46). -/
def State.sleSample (s : State) (d at_ : Nat) (order : List Nat) : State :=
  if !s.blockLive d ∨ d = 0 ∨ (s.sleOf d).sampled then s
  else
    let t := s.runTo at_
    if t.sleStart d ≤ t.phaseNs then t.slePass d (t.sleStart d) order else s

end Sys2Proof.Machine
end

