-- ==== Sys2Proof/Machine/Ctm.lean ====
section
/-! DEFINITION. The Contour safety system at work: connections, safe inputs, the evaluation pass at a datum and the decision
(R197–R226). -/

namespace Sys2Proof.Machine

/-! ### Access -/

/-- Change the Contour state. -/
def State.updCtm (s : State) (f : Ctm → Ctm) : State := { s with ctm := f s.ctm }
/-- An arm's safety state, `n` being the cell arm less 1. -/
def Ctm.arm (c : Ctm) (n : Nat) : CtmArm := Table.get (fun _ => {}) c.arms n
/-- Replace an arm's safety state. -/
def Ctm.setArm (c : Ctm) (n : Nat) (a : CtmArm) : Ctm := { c with arms := Table.set (fun _ => {}) c.arms n a }
/-- A safe connection. -/
def Ctm.connOf (c : Ctm) (i : Nat) : SafeConn := Table.get (fun _ => {}) c.conns i
/-- Replace a safe connection. -/
def Ctm.setConn (c : Ctm) (i : Nat) (x : SafeConn) : Ctm := { c with conns := Table.set (fun _ => {}) c.conns i x }
/-- A safe input pair. -/
def Ctm.pair (c : Ctm) (i : Nat) : SinPair := Table.get (fun _ => {}) c.pairs i
/-- Replace a safe input pair. -/
def Ctm.setPair (c : Ctm) (i : Nat) (x : SinPair) : Ctm := { c with pairs := Table.set (fun _ => {}) c.pairs i x }
/-- A safe output. -/
def Ctm.out (c : Ctm) (i : Nat) : SafeOut := Table.get (fun _ => {}) c.outs i
/-- Replace a safe output. -/
def Ctm.setOut (c : Ctm) (i : Nat) (x : SafeOut) : Ctm := { c with outs := Table.set (fun _ => {}) c.outs i x }
/-- The SINPAIR record of a pair. -/
def Ctm.sinRec (c : Ctm) (i : Nat) : SinRec := (c.cell.map fun x => x.sins.getD i {}).getD {}
/-- The SOUTPAIR record of a pair. -/
def Ctm.soutRec (c : Ctm) (i : Nat) : SoutRec := (c.cell.map fun x => x.souts.getD i {}).getD {}
/-- The arms of the fitted sheets, each less 1 (R17). -/
def State.armList (s : State) : List Nat := List.range (3 * sheetCount s.sys.member)
/-- A CTM register. -/
def ctmReg (off : Nat) : Nat := rg 0 0x0F off
/-- The demand level of a REACT field (R217, R228). -/
def reactLvl (r : Nat) : Nat := 3 - r
/-- The level that a state stands for (R198, R206): SOS is the end of SS2. -/
def sstLvl (sst : Nat) : Nat := match sst with | 0 => 0 | 1 => 2 | 2 => 1 | 3 => 1 | _ => 3
/-- The state that a demand level first brings. -/
def lvlSst (l : Nat) : Nat := match l with | 0 => 0 | 1 => 2 | 2 => 1 | _ => 4

/-- The higher demand; of equal levels the lower cause. -/
def Demand.join (a b : Demand) : Demand :=
  if a.lvl < b.lvl then b else if b.lvl < a.lvl then a else if b.cause < a.cause then b else a
/-- The worst of a list of demands. -/
def worst (l : List Demand) : Demand := (l.filter fun d => d.lvl != 0).foldl (fun a d => if a.lvl = 0 then d else a.join d) {}

/-- Fire a CTM event (CTM_EVT). -/
def State.ctmEvent (s : State) (code arm low : Nat) : State := s.fireEng .ctm (ctmReg 0x10) code (code * 65536 + arm * 256 + low)

/-- Report a diagnostic (R226): flag, counters, Field Book and event, and the health of the safety channels (R353). -/
def State.ctmDiag (s : State) (code arm obj : Nat) : State :=
  let s := s.updCtm fun c => { c with lastDiag := code, diagCnt := min (c.diagCnt + 1) 65535, hwDiag := if code = 15 then c.hwDiag else code }
  let s := (s.setRf (ctmReg 0x14) (code - 1) 1 1).log (0x0300 + code) 3 0x0C 0 obj code 0
  (s.ctmEvent 2 arm code).rdnSafety code

/-! ### Safe PDUs (R213–R217) -/

/-- Check a received copy of a safe PDU against the connection `x` of one channel (R216): `ok4` says that it reached the Contour
die in time. The CRC starts from the expected connection (R214). -/
def State.pduCheck (s : State) (r : ConnRec) (x : SafeConn) (l : List Byte) (ok4 : Bool) : Option PduCopy × Bool :=
  let key := (s.ctm.cell.map (·.key)).getD 0
  let seq := leAt l 2 2
  let d := (seq + 65536 - x.seqLast) % 65536
  let crc := (crc32c (crcSafeInit key r.conn) (l.take 48)).toNat == leAt l 48 4
  let t : Int := ((leAt l 8 4 + leAt l 12 2 * 2 ^ 32 : Nat) : Int) * 1000000000 + leAt l 4 4
  if !crc then (none, false)
  else if x.seen && decide (r.seqwin < d) then (none, true)
  else if leAt l 0 1 = r.conn ∧ leAt l 1 1 = r.len ∧ (t - s.ctm.openNs).natAbs ≤ 1000 ∧ ok4 ∧ (!x.seen ∨ d ≠ 0) then
    (some ⟨seq, (l.drop 16).take 32⟩, false)
  else (none, false)

/-- A connection of one channel with a copy that arrived on a bus channel (R216). -/
def State.pduTake (s : State) (chB : Bool) (r : ConnRec) (x : SafeConn) (l : List Byte) (ok4 : Bool) : SafeConn :=
  let (cp, err) := s.pduCheck r x l ok4
  let x := if chB then { x with cpB := cp.orElse fun _ => x.cpB } else { x with cpA := cp.orElse fun _ => x.cpA }
  { x with seqErr := x.seqErr || err }

/-- A copy of a safe PDU reaches the Contour die and the safety core pair on a channel; each checks it on its own (R216). -/
def State.pduIn (s : State) (chB : Bool) (r : ConnRec) (l : List Byte) : State :=
  let ok4 := decide (s.mer.phase + 4000 * unitNs ≤ s.mer.target)
  let x := s.ctm.connOf r.conn
  let y := s.pduTake chB r x l ok4
  let z := s.pduTake chB r (Table.get (fun _ => {}) s.ctm.pConns r.conn) l ok4
  let s' := s.updCtm fun c => { c.setConn r.conn y with pConns := Table.set (fun _ => {}) c.pConns r.conn z }
  if y.seqErr && !x.seqErr then s'.ctmDiag 4 0 r.conn else s'

/-- The outcome of an inbound connection at a datum (R217): the connection, whether its reaction is demanded, and its
diagnostics by code. -/
def SafeConn.outcome (x : SafeConn) (r : ConnRec) (cycle : Nat) : SafeConn × Bool × List Nat :=
  let take (p : PduCopy) (run : Nat) : SafeConn :=
    { x with age := 0, missrun := run, seqLast := p.seq, seen := true, data := p.data, freshAt := cycle, fresh := true }
  let (y, dis) : SafeConn × Bool :=
    match x.seqErr, x.cpA, x.cpB with
    | true, _, _ => ({ x with age := min 255 (x.age + 1), fresh := false }, false)
    | _, some a, some b => if a = b then (take a 0, false) else ({ x with age := min 255 (x.age + 1), fresh := false }, true)
    | _, some a, none => (take a (min 31 (x.missrun + 1)), false)
    | _, none, some b => (take b (min 31 (x.missrun + 1)), false)
    | _, none, none => ({ x with age := min 255 (x.age + 1), fresh := false }, false)
  let miss := decide (r.missMax < y.missrun)
  let aged := decide (r.ageMax < y.age)
  ({ y with cpA := none, cpB := none, seqErr := false }, x.seqErr || dis || miss || aged,
    (if dis then [1] else []) ++ (if miss then [2] else []) ++ if aged then [3] else [])

/-- Decide every inbound connection: the Contour state, the records whose reaction is demanded, and the diagnostics found. -/
def Ctm.connsPass (c : Ctm) (cycle : Nat) : List ConnRec → Ctm × List ConnRec × List (Nat × Nat × Nat)
  | [] => (c, [], [])
  | r :: t =>
    if r.out then c.connsPass cycle t
    else
      let (x, re, ds) := (c.connOf r.conn).outcome r cycle
      let (c', rs, es) := (c.setConn r.conn x).connsPass cycle t
      (c', if re then r :: rs else rs, ds.map (fun d => (d, 0, r.conn)) ++ es)

/-! ### Safe inputs and outputs between datums (R221–R224): one 10 µs sample at a time, on the Contour die's own clock -/

/-- The mask of a safe input. -/
def Ctm.mask (c : Ctm) (i : Nat) : Option TpMask := Table.get (fun _ => none) c.masks i
/-- Replace the mask of a safe input. -/
def Ctm.setMask (c : Ctm) (i : Nat) (m : Option TpMask) : Ctm := { c with masks := Table.set (fun _ => none) c.masks i m }
/-- Note a diagnostic that is reported at once. -/
def Ctm.note (c : Ctm) (code obj : Nat) : Ctm := { c with found := c.found ++ [(code, 0, obj)] }

/-- The level of an input that a snapshot takes: high while it is masked, else its filtered level (R222). -/
def Ctm.sinLevel (c : Ctm) (i : Nat) : Bool := (c.mask i).isSome || c.sin.getLsbD i

/-- Whether an input of a pair shows demand: `second` for SIN2i+1 (R221). -/
def Ctm.shows (c : Ctm) (i : Nat) (second : Bool) : Bool :=
  let l := c.sinLevel (2 * i + b01 second)
  if (c.sinRec i).mode = 2 ∧ second then l else !l

/-- A sample of the safe inputs: an input takes a new level after two consecutive equal samples (R221). -/
def Ctm.sample (c : Ctm) : Ctm := { c with sin := (c.pins &&& c.sampV) ||| (c.sin &&& (c.pins ^^^ c.sampV)), sampV := c.pins }

/-- The inputs that a test-pulse source feeds through a pair (R222). -/
def tpInputs (r : SinRec) (i : Nat) (tps1 : Bool) : List Nat :=
  match r.tp, tps1 with
  | 1, false => [2 * i]
  | 2, true => [2 * i]
  | 3, false => [2 * i]
  | 3, true => [2 * i + 1]
  | _, _ => []

/-- The source whose pulse starts at sample `k`: each every 20 ms, TPS1 10 ms after TPS0 (R222). -/
def tpsAt (k : Nat) : Option Bool := if k % 2000 = 0 then some false else if k % 2000 = 1000 then some true else none

/-- A source drives its pulse of 500 µs at sample `k`, so that its level is low (R222). -/
def tpsLow (k : Nat) (tps1 : Bool) : Bool := decide ((k + 1000 * b01 tps1) % 2000 < 50)

/-- A pulse starts: a mask for each assigned input whose filtered level is high (R222). -/
def Ctm.pulse (c : Ctm) (k : Nat) (src : Bool) : Ctm :=
  ((List.range 8).flatMap fun i => if (c.sinRec i).mode = 0 then [] else tpInputs (c.sinRec i) i src).foldl (fun c i =>
    if c.sin.getLsbD i && (c.mask i).isNone then c.setMask i (some { at_ := k }) else c) c

/-- A sample at a masked input: the pulse must be seen within 100 µs, and the input must be high again in the last 50 µs (R222). -/
def TpMask.see (m : TpMask) (k : Nat) (level : Bool) : TpMask :=
  { m with low := m.low || (!level && decide (k ≤ m.at_ + 10)), back := m.back && (level || decide (k < m.at_ + 55)) }

/-- A sample in the mask of an input; its end, 600 µs after the pulse start, raises IN_TEST where the pulse was not seen or the
input has not returned (R222). -/
def Ctm.maskTick (c : Ctm) (k i : Nat) : Ctm :=
  match c.mask i with
  | none => c
  | some m =>
    let m := m.see k (c.pins.getLsbD i)
    if k < m.at_ + 60 then c.setMask i (some m)
    else
      let c := c.setMask i none
      let p := c.pair (i / 2)
      if m.low && m.back then c
      else
        let c := c.setPair (i / 2) { p with test := true, both := false }
        if p.test then c else c.note 9 (i / 2)

/-- A sample of a pair: the start of a disagreement, and IN_DISC when it has lasted longer than DISC (R221). -/
def Ctm.pairTick (c : Ctm) (k i : Nat) : Ctm :=
  let p := c.pair i
  let r := c.sinRec i
  if r.mode != 0 && c.shows i false != c.shows i true then
    let t := p.since.getD k
    if !p.disc && decide (t + 100 * r.disc < k) then (c.setPair i { p with since := some t, disc := true, both := false }).note 8 i
    else c.setPair i { p with since := some t }
  else c.setPair i { p with since := none }

/-- The commanded level of a safe output, low in its dark test pulse (CSM_SOUT.CMD). -/
def SafeOut.level (o : SafeOut) : Bool := o.cmd && o.dark.isNone
/-- Its readback: the commanded level, but for a mismatch that a command showed and a test pulse that it does not follow (R223,
R224). -/
def SafeOut.srb (o : SafeOut) : Bool :=
  match o.stuck, o.dark with
  | some b, _ => b
  | none, some (_, follows) => o.cmd && !follows
  | none, none => o.cmd

/-- A test of an output is skipped: after more than 8 in a row TEST_SKIP is raised (R224). -/
def Ctm.skipTest (c : Ctm) (k : Nat) : Ctm :=
  let o := c.out k
  let c' := c.setOut k { o with skips := o.skips + 1, warn := o.warn || decide (8 < o.skips + 1), dark := none }
  if decide (8 < o.skips + 1) && !o.warn then c'.note 11 k else c'

/-- Command both outputs of a pair at `now` ns; an output switched off in its pulse skips that test (R223, R224). -/
def Ctm.drive (c : Ctm) (now i : Nat) (on : Bool) : Ctm :=
  [2 * i, 2 * i + 1].foldl (fun c k =>
    let o := c.out k
    if o.cmd = on then c
    else
      let c := if o.dark.isSome then c.skipTest k else c
      c.setOut k { c.out k with cmd := on, since := now, stuck := none }) c

/-- OUT_FAIL: both outputs of a pair are switched off and STO of its arms is demanded with the next decision (R223). -/
def Ctm.failPair (c : Ctm) (arms : List Nat) (now i : Nat) : Ctm :=
  let c := ({ c with outFail := setFld c.outFail i 1 1 } : Ctm).drive now i false
  let c := (arms.filter fun n => bitN (c.soutRec i).arms n).foldl (fun c n => c.setArm n { c.arm n with raised := ⟨3, 16⟩ }) c
  c.note 10 i

/-- Whether a test of output `j` is scheduled at sample `k`: once per TPER, output B half a period after output A (R224). -/
def SoutRec.due (r : SoutRec) (j k : Nat) : Bool := r.src != 0 && r.tper != 0 && k % (10000 * r.tper) == 5000 * r.tper * (j % 2)

/-- A sample of a safe output: a dark test runs, ends or starts. `dev` names an output whose readback does not follow a test that
starts now (R223, R224). -/
def Ctm.outTick (c : Ctm) (arms : List Nat) (dev : Option Nat) (k now j : Nat) : Ctm :=
  let o := c.out j
  let r := c.soutRec (j / 2)
  match o.dark with
  | some (t, follows) =>
    if !follows && decide (t + 15 < k) then c.failPair arms now (j / 2)
    else if t * 10 + r.twid ≤ k * 10 then c.setOut j { o with dark := none, skips := 0, warn := false }
    else c
  | none =>
    if !(r.due j k && o.cmd) then c
    else if now < o.since + 1000000 then c.skipTest j
    else c.setOut j { o with dark := some (k, dev != some j), stuck := none }

/-- Sample `k` of the Contour die's own clock (R221–R224). -/
def Ctm.tick (c : Ctm) (arms : List Nat) (dev : Option Nat) (k : Nat) : Ctm :=
  let c := { c with samp := k }.sample
  if c.cell.isNone then c
  else
    let c := match tpsAt k with
      | some src => c.pulse k src
      | none => c
    let c := (List.range 16).foldl (fun c i => c.maskTick k i) c
    let c := (List.range 8).foldl (fun c i => c.pairTick k i) c
    (List.range 16).foldl (fun c j => c.outTick arms dev k (k * 10000 - c.off) j) c

/-- The next `n` samples; `dev` concerns the last of them. -/
def Ctm.ticks (arms : List Nat) (dev : Option Nat) : Nat → Ctm → Ctm
  | 0, c => c
  | 1, c => c.tick arms dev (c.samp + 1)
  | n + 1, c => Ctm.ticks arms dev n (c.tick arms none (c.samp + 1))

/-- Report what was found between datums (R226). -/
def reportFound : List (Nat × Nat × Nat) → State → State
  | [], s => s
  | (k, arm, obj) :: t, s => reportFound t (s.ctmDiag k arm obj)

/-- Report and forget the diagnostics found since. -/
def State.ctmReport (s : State) : State :=
  let l := s.ctm.found
  reportFound l (s.updCtm fun c => { c with found := [] })

/-- The sample that the present time has reached. -/
def State.sampNow (s : State) : Nat := (s.upNs + s.ctm.off) / 10000

/-- Bring the Contour die's samples up to the present time. -/
def State.ctmSettle (s : State) (dev : Option Nat := none) : State :=
  (s.updCtm fun c => Ctm.ticks s.armList dev (s.sampNow - c.samp) c).ctmReport

/-- Let Meridian run to sample `k`, if that lies ahead and before the next datum, and bring the samples up to it. -/
def State.runSample (s : State) (k : Nat) (dev : Option Nat := none) : State :=
  let n := ceilDiv (k * 10000 - s.ctm.off - s.upNs) 4
  if s.sampNow < k ∧ s.mer.phase + n * s.mer.inc < s.mer.target then ((s.ctmSettle).advance n).ctmSettle dev else s.ctmSettle

/-- The datum snapshot of a pair (R221). -/
def Ctm.snapPair (c : Ctm) (i : Nat) : Ctm :=
  let p := c.pair i
  if c.cell.isNone then c
  else if (c.sinRec i).mode = 0 then c.setPair i { p with demand := false, was := false, snapped := true }
  else
    let a := c.shows i false
    let b := c.shows i true
    let both := p.both || (a && b)
    let clr := both && !a && !b
    let disc := p.disc && !clr
    let test := p.test && !clr
    let demand := a || b || disc || test
    c.setPair i { p with was := if p.snapped then p.demand else demand, demand := demand, disc := disc, test := test, both := both && !clr, snapped := true }

/-! ### The pass of a channel (R197, R198, R203–R212); `hw` is true for the hard-wired channel -/

/-- A tracked person: position, cylinder, error allowance and AGE of its scanner data. -/
structure Person where
  x : Int
  y : Int
  rp : Nat
  zd : Nat
  age : Nat

/-- The objects of a connection (R211). -/
def Ctm.objects (c : Ctm) (i rp zd : Nat) : List Person :=
  let x := c.connOf i
  let n := (c.cell.bind fun g => (g.conns.find? fun r => r.conn == i).map (·.len)).getD 0
  let one (k : Nat) : Option Person :=
    if 8 * k + 8 ≤ n ∧ 8 * k + 8 ≤ x.data.length ∧ leAt x.data (8 * k) 4 ≠ 0x80000000 then
      some { x := sxt 32 (leAt x.data (8 * k) 4), y := sxt 32 (leAt x.data (8 * k + 4) 4), rp := rp, zd := zd, age := x.age }
    else none
  (List.range 4).filterMap one

/-- Every valid object, numbered in scanner, connection and entry order (R211). -/
def Ctm.persons (c : Ctm) : List Person :=
  match c.cell with
  | none => []
  | some g => g.scans.flatMap fun sc => sc.conns.flatMap fun i => c.objects i sc.rp sc.zd

/-- The joint positions of an arm (R207). -/
def Ctm.joints (c : Ctm) (i : ArmImg) : List Int :=
  i.joints.map fun j => sxt 64 (leAt (c.connOf j.conn).data (8 * j.pos) 8)

/-- Speeds and points of an arm that follow from fresh data (R207, R210). -/
def Ctm.kinematics (hw : Bool) (c : Ctm) (a : CtmArm) (i : ArmImg) (cycle T : Nat) (fs : List Frame) (ps : List Int) : CtmArm :=
  let fresh (j : JointRec) : Bool := (c.connOf j.conn).fresh
  let old (k : Nat) : Option (Int × Nat) := (a.last.getD k none)
  let vel := (List.zip i.joints ps).mapIdx fun k (j, p) =>
    match fresh j, old k with
    | true, some (q, m) => if m < cycle then chDiv hw ((p - q) * 1000000000) ((cycle - m) * T * 65536) else a.vel.getD k 0
    | _, _ => a.vel.getD k 0
  let last := (List.zip i.joints ps).mapIdx fun k (j, p) => if fresh j then some (p, cycle) else old k
  let frame (k : Nat) : Frame := fs.getD k Frame.cell
  if i.joints.any fresh then
    let t := (frame i.tcpLink).point hw i.tcp
    let ends := i.caps.flatMap fun q => [(frame q.link).point hw q.p0, (frame q.link).point hw q.p1]
    let (tv, vr) := match a.tcpAt with
      | some (o, m) =>
        if m < cycle then
          (speedOf hw (dist hw o t) (cycle - m) T, (List.zipWith (fun x y => speedOf hw (dist hw x y) (cycle - m) T) a.ends ends).foldl max 0)
        else (a.tcpV, a.vr)
      | none => (a.tcpV, a.vr)
    { a with pos := ps, vel := vel, last := last, tcpAt := some (t, cycle), tcpV := tv, ends := ends, vr := vr }
  else { a with pos := ps, vel := vel, last := last }

/-- The arm mode of a datum and the demand it brings (R203). -/
def Ctm.modePass (c : Ctm) (a : CtmArm) (i : ArmImg) : CtmArm × Demand :=
  let x := c.connOf i.modeConn
  let max' := (c.cell.bind fun g => (g.conns.find? fun r => r.conn == i.modeConn).map (·.ageMax)).getD 0
  let moving := a.vel.any fun v => decide (i.vzero < v.natAbs)
  let v := leAt x.data i.modeByte 1
  if !x.seen || decide (max' < x.age) then (a, if a.amode = 4 then ⟨3, 9⟩ else {})
  else if v < 1 ∨ 4 < v then (a, if a.amode = 4 then ⟨3, 9⟩ else ⟨1, 9⟩)
  else
    let d : Demand := if v = 4 then ⟨3, 9⟩ else if v ≠ a.amode ∧ moving then ⟨1, 9⟩ else {}
    ({ a with amode := v }, d)

/-- The SDI references of a datum (R205). -/
def sdiRefs (js : List JointRec) (ps : List Int) (old : List (Option Int)) (on : Bool) : List (Option Int) :=
  (List.zip js ps).mapIdx fun k (j, p) =>
    if !on || j.sdi = 0 then none
    else
      match old.getD k none with
      | none => some p
      | some r => some (if j.sdi = 1 then max r p else min r p)

/-- A zone test of an arm fails (R205). -/
def zoneFails (z : ZoneRec) (boxes : List (List Int × List Int)) : Bool :=
  boxes.any fun b => if z.keepIn then !boxInside b (z.lo, z.hi) else boxMeets b (z.lo, z.hi)

/-- Whether a record's arm mask names an arm. -/
def namesArm (mask : Nat) (all : Bool) (n : Nat) : Bool := all || bitN mask n

/-- The monitoring of SS1, SS2 and SOS (R206), at the datum `now`. -/
def CtmArm.monitor (a : CtmArm) (i : ArmImg) (now : Nat) : Demand :=
  let still := a.vel.all fun v => decide (v.natAbs ≤ i.vzero)
  match a.sst with
  | 1 | 2 =>
    let tau := (now - a.k0) - i.tresp * 1000
    let ovr := (List.zip i.joints (List.zip a.vel a.v0)).any fun (j, v, v0) =>
      decide ((v0.natAbs * 1000000000 - j.adec * tau) + i.vzero * 1000000000 < v.natAbs * 1000000000)
    if ovr || (!still && decide (a.k0 + i.tss1 * 1000000 ≤ now)) then ⟨3, 17⟩ else {}
  | 3 =>
    let out := (List.zip i.joints (List.zip a.pos a.pc)).any fun (j, p, q) => decide (j.sosWin < (p - q).natAbs)
    if out || !still then ⟨3, 18⟩ else {}
  | _ => {}

/-- The view of SSM for one arm (R210–R212): for each person the distance and whether S < Sp, S < Sp + SWARN,
S < Sp + HYST, and the margin. The hard-wired channel subtracts 100 µm from every S. -/
def Ctm.ssmOf (hw : Bool) (c : Ctm) (a : CtmArm) (i : ArmImg) (g : CellImg) (T : Nat) (p : Person) : Int × Bool × Bool × Bool × Int :=
  let ar := (i.joints.map fun j => (c.connOf j.conn).age).foldl max 0
  let caps := List.zip i.caps (List.range i.caps.length)
  let ds : List Int := caps.map fun (q, k) => ((axisDist hw (a.ends.getD (2 * k) []) (a.ends.getD (2 * k + 1) []) p.x p.y g.hperson : Nat) : Int) - q.rc - p.rp - (if hw then 100 else 0)
  let d := ds.foldl min (ds.headD 0)
  let e : SepEnv := { T := T, tresp := i.tresp, adec := i.adec, vr := a.vr, vh := g.vh, ah := p.age, ar := ar, c := i.c, zd := p.zd, zr := i.zr }
  (d, e.below d 0, e.below d i.swarn, e.below d i.hyst, e.margin hw d)

/-- The nearest person of a list of distances, with its number. -/
def nearest : Nat → List Int → Option (Nat × Int)
  | _, [] => none
  | k, d :: t =>
    match nearest (k + 1) t with
    | none => some (k, d)
    | some (j, e) => if e < d then some (j, e) else some (k, d)

/-- Evaluate every function for an arm (R203–R212): the arm with its view, and the diagnostics found. -/
def Ctm.armPass (hw : Bool) (c : Ctm) (n cycle T now : Nat) (people : List Person) (ovf : Bool) (reacts : List ConnRec) : CtmArm × List (Nat × Nat × Nat) :=
  let a := c.arm n
  match a.img, c.cell with
  | some i, some g =>
    let ps := c.joints i
    let fs := frames hw Frame.cell i.joints ps
    let a := c.kinematics hw a i cycle T fs ps
    let range := (List.zip i.joints ps).any (fun (j, p) => !j.fits p) || a.ends.any overflow || a.tcpAt.any fun t => overflow t.1
    let (a, dMode) := c.modePass a i
    let on := 1 ≤ a.amode ∧ a.amode ≤ 3
    let refs := sdiRefs i.joints ps a.sdiRef (decide on)
    let boxes := (List.zip i.caps (List.range i.caps.length)).map fun (q, k) => capBox (a.ends.getD (2 * k) []) (a.ends.getD (2 * k + 1) []) q.rc
    let slsJ := on && (List.zip i.joints a.vel).any fun (j, v) => decide (j.sls < v.natAbs)
    let lim := i.slsTcp.getD (a.amode - 1) 0
    let slsT := on && (if a.amode = 1 then decide (min lim 250 < a.tcpV) else lim != 0 && decide (lim < a.tcpV))
    let slpJ := on && (List.zip i.joints ps).any fun (j, p) => decide (p < j.slpLo) || decide (j.slpHi < p)
    let zs := if on then g.zones.filter fun z => namesArm z.arms z.cellWide n && zoneFails z boxes else []
    let sdi := on && (List.zip i.joints (List.zip ps refs)).any fun (j, p, r) => r.any fun q => decide (j.sdiTol < (p - q).natAbs)
    let ssmOn := a.amode = 2 ∨ a.amode = 3
    let ss := if ssmOn then people.map (c.ssmOf hw a i g T) else []
    let ssm := ss.any fun x => x.2.1
    let pairs := (List.range 8).filter fun k => (c.sinRec k).mode != 0 && (c.pair k).demand && namesArm (c.sinRec k).arms (c.sinRec k).cell n
    let en := a.amode = 1 ∧ (pairs.any fun k => (c.sinRec k).func == 2)
    let stops := pairs.filter fun k => (c.sinRec k).func == 1 || (c.sinRec k).func == 4
    let conns := reacts.filter fun r => namesArm r.arms r.cellWide n
    let mon := a.monitor i now
    let two (b : Bool) (cause : Nat) : List Demand := if b then [⟨2, cause⟩] else []
    let ds : List Demand := two slsJ 2 ++ two slsT 3 ++ two slpJ 4 ++ zs.map (fun z => ⟨reactLvl z.react, 5⟩) ++ two sdi 6 ++
      (if ssm then [⟨if a.amode = 3 ∧ i.react = 2 then 1 else 2, 7⟩] else []) ++ two (decide en) 8 ++
      stops.map (fun k => ⟨reactLvl (c.sinRec k).react, 1⟩) ++ conns.map (fun r => ⟨reactLvl r.react, 10⟩) ++ [dMode, mon] ++
      (if range then [⟨3, 14⟩] else []) ++ two (ovf && decide ssmOn) 15
    let d := worst ds
    let near := nearest 0 (ss.map fun x => x.1)
    let view : ArmView := { lvl := d.lvl, cause := d.cause, margin := (ss.map fun x => x.2.2.2.2).min?, person := (near.map fun x => x.1).getD 255, tcp := a.tcpV, pos := ps, viol := [slsJ, slsT, slpJ, !zs.isEmpty, sdi, ssm, decide en, !stops.isEmpty], warn := ss.any (fun x => x.2.2.1), clear := !ss.any (fun x => x.2.2.2.1), tcpLim := if !on then none else if a.amode = 1 then some (min lim 250) else if lim = 0 then none else some lim, others := ds.any fun d => d.lvl != 0 && d.cause != 7 }
    ({ a with sdiRef := refs, view := view },
      (if range then [(12, n + 1, n + 1)] else []) ++ if mon.lvl ≠ 0 then [(16, n + 1, n + 1)] else [])
  | _, _ => (a, [])

/-- Evaluate a list of arms. -/
def Ctm.armsPass (hw : Bool) (cycle T now : Nat) (people : List Person) (ovf : Bool) (reacts : List ConnRec) : List Nat → Ctm → Ctm × List (Nat × Nat × Nat)
  | [], c => (c, [])
  | n :: t, c =>
    let (a, ds) := c.armPass hw n cycle T now people ovf reacts
    let (c', es) := Ctm.armsPass hw cycle T now people ovf reacts t (c.setArm n a)
    (c', ds ++ es)

/-- The clock check of R28 on a count of 10 ns clocks. -/
def Ctm.clkCheck (c : Ctm) (count cycleLen : Nat) : Ctm :=
  let dev := decide (cycleLen < (((count * 10 : Nat) : Int) - cycleLen).natAbs * 1000)
  let k := if dev then min 2 (c.clkDev + 1) else 0
  { c with clkCount := count % 2 ^ 20, clkDev := k, clkFail := decide (2 ≤ k) }

/-- The connections and arms as one channel evaluates them at a datum: the Contour state after it, and the diagnostics found. -/
def Ctm.channelPass (hw : Bool) (c : Ctm) (cycle T : Nat) (arms : List Nat) : Ctm × List (Nat × Nat × Nat) :=
  let (c, reacts, ds) := c.connsPass cycle ((c.cell.map (·.conns)).getD [])
  let people := c.persons
  let ovf := decide (64 < people.length)
  let (c, es) := Ctm.armsPass hw cycle T c.openUp (people.take 64) ovf reacts arms c
  (c, ds ++ es ++ if ovf then [(13, 0, 0)] else [])

/-- An arm as the processor channel holds it: its own positions and speeds, under the image, the state and the ramp that both
channels share (R197, R206). -/
def Ctm.procArm (c : Ctm) (n : Nat) : CtmArm :=
  let a := c.arm n
  { Table.get (fun _ => ({} : CtmArm)) c.pArms n with img := a.img, sst := a.sst, k0 := a.k0, v0 := a.v0, pc := a.pc }

/-- The processor channel's evaluation of a datum, on its own copies (R197). -/
def Ctm.procPass (c : Ctm) (cycle T : Nat) (arms : List Nat) : Ctm :=
  let own := arms.foldl (fun x n => x.setArm n (c.procArm n)) { c with conns := c.pConns }
  let p := (own.channelPass false cycle T arms).1
  { c with pConns := p.conns, pArms := p.arms }

/-- The processor channel's result vector (R199). -/
def Ctm.procVector (c : Ctm) (arms : List Nat) : List ProcArm :=
  (arms.filter fun n => (c.arm n).img.isSome).map fun n =>
    let v := (Table.get (fun _ => ({} : CtmArm)) c.pArms n).view
    { arm := n + 1, demand := v.lvl, cause := v.cause, margin := v.margin.getD 0, tcpSpeed := v.tcp, joints := v.pos, viol := v.viol }

/-- The pass at a datum (R30 step 2, R198): clock check, safe inputs, connections and arms, in each channel. Its diagnostics are
reported with the decision. -/
def State.ctmPass (s : State) (count : Nat) : State :=
  let s := s.ctmSettle
  let c := s.ctm.clkCheck count s.mer.cycleLen
  let c := (List.range 8).foldl Ctm.snapPair c
  let c : Ctm := { c with openNs := s.nowNs - s.phaseNs, openUp := s.upNs - s.phaseNs, lostHalt := c.halted }
  let p := c.procPass s.mer.cycle s.mer.cycleLen s.armList
  let (c, ds) := c.channelPass true s.mer.cycle s.mer.cycleLen s.armList
  let fs := if c.clkFail then [(7, 0, 0)] else []
  { s with ctm := { c with pConns := p.pConns, pArms := p.pArms, diags := ds ++ fs, decided := false, proc := none, procUsed := false } }

/-! ### The decision (R198–R212) -/

/-- Issue a hub command to the axes of an arm, which applies at the next datum (R209). -/
def State.armCommand (s : State) (n code : Nat) : State :=
  match (s.ctm.arm n).img with
  | none => s
  | some i =>
    let d := n / 3 + 1
    if !s.answers d then s
    else i.joints.foldl (fun s j => s.updTrvAx d j.axis fun a => { a with cmds := a.cmds ++ [⟨code, 0, min s.mer.phase (40000 * unitNs), true⟩] }) s

/-- Enter a safety state: event ARMSTATE, and the stop command when a stop is first required (R209). -/
def State.armEnter (s : State) (n : Nat) (a : CtmArm) (sst : Nat) : State :=
  let old := (s.ctm.arm n).sst
  let s := s.updCtm fun c => c.setArm n { a with sst := sst }
  if old = sst then s
  else
    let s := s.ctmEvent 1 (n + 1) 0
    if sst = 4 then s.armCommand n 2 else if old = 0 then s.armCommand n 4 else s

/-- A demand on an arm is latched, released or carried on (R206, R208, R212). `others` says that a demand of another cause than SSM
is present in either channel: every demand is latched, and with it the release is that of R208. -/
def State.armDecide (s : State) (n : Nat) (d : Demand) (others pdem : Bool) : State :=
  let a := s.ctm.arm n
  match a.img with
  | none => s
  | some i =>
    let v := a.view
    let loading := s.ctm.load.any fun l => l.arm == n + 1
    let change := (List.range 8).any fun k =>
      let r := s.ctm.sinRec k
      let p := s.ctm.pair k
      r.mode != 0 && r.func == 3 && namesArm r.arms r.cell n && p.was && !p.demand
    let clear := if v.clear then min 255 (a.clear + 1) else 0
    let a : CtmArm := { a with ssmwarn := v.warn, person := v.person, clear := clear, raised := {}, rstSeen := if d.lvl ≠ 0 then false else a.rstSeen || (change && !loading) }
    let still := a.vel.all fun x => decide (x.natAbs ≤ i.vzero)
    let settle (a : CtmArm) (sst : Nat) : State :=
      if sst == 1 && still then s.armEnter n a 4
      else if sst == 2 && still then s.armEnter n { a with pc := a.pos } 3
      else s.armEnter n a sst
    if sstLvl a.sst < d.lvl then
      let only := d.cause = 7 ∧ !others ∧ a.amode = 3 ∧ i.auto ∧ (a.sst = 0 ∨ a.ssmOnly)
      settle { a with cause := d.cause, pdem := pdem, ssmOnly := decide only, latch := !decide only, k0 := s.ctm.openUp, v0 := a.vel.map fun x => (x.natAbs : Int) } (lvlSst d.lvl)
    else if a.sst = 0 then s.armEnter n a 0
    else
      let a : CtmArm := if others then { a with ssmOnly := false, latch := true } else a
      if d.lvl = 0 ∧ ((a.rstSeen ∧ !loading) ∨ (a.ssmOnly ∧ a.amode = 3 ∧ i.auto ∧ i.resumeCyc ≤ a.clear)) then
        s.armEnter n { a with cause := 0, pdem := false, latch := false, ssmOnly := false, rstSeen := false, pc := [] } 0
      else settle a a.sst

/-- Whether a quantity of the two channels' vectors disagrees for an arm (R199). The violation bits of SSM and of SLS at the TCP are
excepted while the margin or the speed, in either channel, lies within its tolerance of its limit (assumption log 130). -/
def disagree (g : CellImg) (v : ArmView) (hw : Demand) (p : ProcArm) : Bool :=
  let slow (x : Nat) : Bool := v.tcpLim.any fun l => decide (((x : Int) - l).natAbs ≤ g.vtolc)
  let near (k : Nat) : Bool :=
    (k == 1 && (slow v.tcp || slow p.tcpSpeed)) ||
      (k == 5 && (v.margin.any (fun m => decide (m.natAbs ≤ g.dtol)) || decide (p.margin.natAbs ≤ g.dtol)))
  let bit (k : Nat) : Bool := v.viol.getD k false != p.viol.getD k false && !near k
  hw.lvl != p.demand || hw.cause != p.cause || (v.margin.any fun m => decide (g.dtol < (m - p.margin).natAbs)) ||
    decide (g.vtolc < ((v.tcp : Int) - p.tcpSpeed).natAbs) || v.pos != p.joints || (List.range 8).any bit

/-- Demands that the Contour die raises itself for an arm: channel disagreement, lost processor, clock, images, outputs and
WRST_N. -/
def Ctm.ownDemands (c : Ctm) (a : CtmArm) (lost : Bool) : List Demand :=
  (if 3 ≤ a.disc then [⟨3, 11⟩] else []) ++ (if lost then [⟨2, 12⟩] else []) ++ (if c.clkFail then [⟨3, 13⟩] else []) ++
    (if a.imgBad || c.cellBad then [⟨3, 19⟩] else []) ++ (if c.wrst then [⟨3, 21⟩] else []) ++ [a.raised]

/-- The state to which the hard-wired channel's own demand leads (CSM_ARMn; assumption log 131): a higher demand takes over, and at
standstill SS1 passes to STO and SS2 to SOS, as for the arm (R206). -/
def CtmArm.hwDecide (a : CtmArm) (i : ArmImg) (hw : Demand) : CtmArm :=
  let a : CtmArm := if sstLvl a.hwSst < hw.lvl then { a with hwSst := lvlSst hw.lvl, hwCause := hw.cause } else a
  let still := a.vel.all fun x => decide (x.natAbs ≤ i.vzero)
  { a with hwSst := if !still then a.hwSst else if a.hwSst = 1 then 4 else if a.hwSst = 2 then 3 else a.hwSst, hwPerson := a.view.person }

/-- An arm back in RUN has no demand of the hard-wired channel left. -/
def State.hwRelease (s : State) (n : Nat) : State :=
  let a := s.ctm.arm n
  if a.sst = 0 then s.updCtm fun c => c.setArm n { a with hwSst := 0, hwCause := 0 } else s

/-- The decision for one arm: `proc` is its part of the processor channel's result when that entered. -/
def State.decideArm (s : State) (lost : Bool) (proc : Option (List ProcArm)) (n : Nat) : State :=
  let a := s.ctm.arm n
  match a.img, s.ctm.cell with
  | some i, some g =>
    let p := proc.bind fun l => l.find? fun x => x.arm == n + 1
    let v := a.view
    let disc := match p with
      | some x => if disagree g v ⟨v.lvl, v.cause⟩ x then min 3 (a.disc + 1) else 0
      | none => 0
    let a := { a with disc := disc }
    let own := s.ctm.ownDemands a lost
    let hw := worst (⟨v.lvl, v.cause⟩ :: own)
    let others := v.others || own.any (fun d => d.lvl != 0 && d.cause != 7) || p.any fun x => x.demand != 0 && x.cause != 7
    let a := a.hwDecide i hw
    let s := s.updCtm fun c => c.setArm n a
    let s := if disc = 3 then s.updCtm fun c => { c with diags := c.diags ++ [(5, n + 1, n + 1)] } else s
    let pl := (p.map (·.demand)).getD 0
    (if hw.lvl < pl then s.armDecide n ⟨min pl 3, 20⟩ others true else s.armDecide n hw others false).hwRelease n
  | _, _ => s

/-- Whether a safe output pair may be energised (R202, R223, R225). -/
def Ctm.outPermit (c : Ctm) (arms : List Nat) (i : Nat) : Bool :=
  let r := c.soutRec i
  let mine := arms.filter fun n => bitN r.arms n
  r.src != 0 && !bitN c.outFail i && !c.clkFail && !c.wrst &&
    match r.src with
    | 1 => mine.all fun n => (c.arm n).sst == 0
    | 2 => mine.all fun n => (c.arm n).sst != 4
    | _ => mine.all fun n => !(c.arm n).ssmwarn

/-- Switch every safe output by its source. -/
def State.driveOuts (s : State) : State :=
  let s := s.ctmSettle
  let arms := List.range 18
  (s.updCtm fun c =>
    let c := (List.range 8).foldl (fun c i =>
      if bitN c.outFail i && (arms.filter fun n => bitN (c.soutRec i).arms n).all (fun n => (c.arm n).sst == 0) then { c with outFail := setFld c.outFail i 1 0 } else c) c
    (List.range 8).foldl (fun c i => c.drive s.upNs i (c.outPermit arms i)) c).ctmReport

/-- Report the diagnostics of a datum that do not stand yet. -/
def reportDiags : List (Nat × Nat × Nat) → State → State
  | [], s => s
  | (k, arm, obj) :: t, s => reportDiags t (if s.ctm.standing.contains (k * 512 + obj) then s else s.ctmDiag k arm obj)

/-- Whether the processor channel counts as lost (R200): its halt stood at the datum, or PMISS results are missing. -/
def Ctm.procLost (c : Ctm) (missing : Nat) : Bool := c.lostHalt || decide ((c.cell.map (·.pmiss)).getD 4 ≤ missing)

/-- The decision of the present cycle (R198), formed once. -/
def State.ctmDecide (s : State) : State :=
  if s.ctm.decided then s
  else
    let c := s.ctm
    let proc := if c.procUsed then c.proc else none
    let missing := if proc.isSome then 0 else min 31 (c.missing + 1)
    let lost := c.procLost missing
    let s := s.updCtm fun c => { c with decided := true, procOk := proc.isSome, missing := missing, diags := c.diags ++ if lost then [(6, 0, 0)] else [] }
    let s := s.armList.foldl (fun s n => s.decideArm lost proc n) s
    let ds := s.ctm.diags
    let s := reportDiags ds s
    (s.updCtm fun c => { c with standing := ds.map fun d => d.1 * 512 + d.2.2, diags := [] }).driveOuts

/-! ### Outbound safe PDUs (R201, R213, R215) -/

/-- The PDU of an outbound connection for a state of its arm: level bits, state and mode. -/
def State.pduOut (s : State) (r : ConnRec) (sst mode : Nat) : List Byte :=
  let nb := ((List.range 8).filter fun k => bitN r.jmask k).length
  let bits := if sst = 4 then 2 ^ nb - 1 else 0
  let t0 := s.ctm.openNs
  let body := [BitVec.ofNat 8 r.conn, 4#8] ++ toBytes 2 s.mer.cycle ++ toBytes 4 (t0 % 1000000000) ++ toBytes 6 (t0 / 1000000000) ++
    toBytes 2 0 ++ [BitVec.ofNat 8 bits, BitVec.ofNat 8 bits, BitVec.ofNat 8 sst, BitVec.ofNat 8 mode] ++ List.replicate 28 0#8
  let key := (s.ctm.cell.map (·.key)).getD 0
  body ++ toBytes 4 (crc32c (crcSafeInit key r.conn) body).toNat

/-- The PDU that a channel carries (R201): on channel B the processor's own version when it demands more. -/
def State.pduFor (s : State) (r : ConnRec) (chB : Bool) : List Byte :=
  let n := ((List.range 18).find? fun k => bitN r.arms k).getD 0
  let a := s.ctm.arm n
  let pl := (s.ctm.proc.bind fun l => (l.find? fun x => x.arm == n + 1).map (·.demand)).getD 0
  if chB && decide (sstLvl a.sst < pl) then s.pduOut r (lvlSst pl) a.amode else s.pduOut r a.sst a.amode

end Sys2Proof.Machine
end

