-- ==== Sys2Proof/Machine/Crypto.lean ====
section
/-! DEFINITION. SHA-256 (FIPS 180) and ECDSA P-256 verification (FIPS 186) as R227, R366 and R369 name them. -/

namespace Sys2Proof.Machine

/-! ### SHA-256 -/

/-- The round constants, first half. -/
def shaKLo : List W32 :=
  [0x428A2F98#32, 0x71374491#32, 0xB5C0FBCF#32, 0xE9B5DBA5#32, 0x3956C25B#32, 0x59F111F1#32, 0x923F82A4#32, 0xAB1C5ED5#32,
   0xD807AA98#32, 0x12835B01#32, 0x243185BE#32, 0x550C7DC3#32, 0x72BE5D74#32, 0x80DEB1FE#32, 0x9BDC06A7#32, 0xC19BF174#32,
   0xE49B69C1#32, 0xEFBE4786#32, 0x0FC19DC6#32, 0x240CA1CC#32, 0x2DE92C6F#32, 0x4A7484AA#32, 0x5CB0A9DC#32, 0x76F988DA#32,
   0x983E5152#32, 0xA831C66D#32, 0xB00327C8#32, 0xBF597FC7#32, 0xC6E00BF3#32, 0xD5A79147#32, 0x06CA6351#32, 0x14292967#32]

/-- The round constants, second half. -/
def shaKHi : List W32 :=
  [0x27B70A85#32, 0x2E1B2138#32, 0x4D2C6DFC#32, 0x53380D13#32, 0x650A7354#32, 0x766A0ABB#32, 0x81C2C92E#32, 0x92722C85#32,
   0xA2BFE8A1#32, 0xA81A664B#32, 0xC24B8B70#32, 0xC76C51A3#32, 0xD192E819#32, 0xD6990624#32, 0xF40E3585#32, 0x106AA070#32,
   0x19A4C116#32, 0x1E376C08#32, 0x2748774C#32, 0x34B0BCB5#32, 0x391C0CB3#32, 0x4ED8AA4A#32, 0x5B9CCA4F#32, 0x682E6FF3#32,
   0x748F82EE#32, 0x78A5636F#32, 0x84C87814#32, 0x8CC70208#32, 0x90BEFFFA#32, 0xA4506CEB#32, 0xBEF9A3F7#32, 0xC67178F2#32]

/-- The initial hash. -/
def shaInit : List W32 :=
  [0x6A09E667#32, 0xBB67AE85#32, 0x3C6EF372#32, 0xA54FF53A#32, 0x510E527F#32, 0x9B05688C#32, 0x1F83D9AB#32, 0x5BE0CD19#32]

/-- Rotate right. -/
def rotr (x : W32) (n : Nat) : W32 := (x >>> n) ||| (x <<< (32 - n))

/-- The message schedule, newest word first: `n` more words. -/
def shaSched : Nat → List W32 → List W32
  | 0, l => l
  | n + 1, l =>
    let a := l.getD 1 0
    let b := l.getD 14 0
    let s1 := rotr a 17 ^^^ rotr a 19 ^^^ (a >>> 10)
    let s0 := rotr b 7 ^^^ rotr b 18 ^^^ (b >>> 3)
    shaSched n ((s1 + l.getD 6 0 + s0 + l.getD 15 0) :: l)

/-- One round on the eight working words. -/
def shaRound (h : List W32) (k w : W32) : List W32 :=
  match h with
  | [a, b, c, d, e, f, g, x] =>
    let t1 := x + (rotr e 6 ^^^ rotr e 11 ^^^ rotr e 25) + ((e &&& f) ^^^ (~~~e &&& g)) + k + w
    let t2 := (rotr a 2 ^^^ rotr a 13 ^^^ rotr a 22) + ((a &&& b) ^^^ (a &&& c) ^^^ (b &&& c))
    [t1 + t2, a, b, c, d + t1, e, f, g]
  | l => l

/-- The big-endian 32-bit words of a block. -/
def shaWords : Nat → List Byte → List W32
  | 0, _ => []
  | n + 1, l => BitVec.ofNat 32 (ofBytesBE (l.take 4)) :: shaWords n (l.drop 4)

/-- Compress one 64-byte block. -/
def shaBlock (h : List W32) (b : List Byte) : List W32 :=
  let ws := (shaSched 48 (shaWords 16 b).reverse).reverse
  let r := (List.zip (shaKLo ++ shaKHi) ws).foldl (fun x kw => shaRound x kw.1 kw.2) h
  List.zipWith (· + ·) h r

/-- Compress `n` blocks. -/
def shaBlocks : Nat → List Byte → List W32 → List W32
  | 0, _, h => h
  | n + 1, l, h => shaBlocks n (l.drop 64) (shaBlock h (l.take 64))

/-- The padding of a message of `n` bytes. -/
def shaPad (n : Nat) : List Byte :=
  0x80#8 :: (List.replicate ((119 - n % 64) % 64) 0#8 ++ (toBytes 8 (8 * n)).reverse)

/-- SHA-256 as a number. -/
def sha256 (l : List Byte) : Nat :=
  let m := l ++ shaPad l.length
  (shaBlocks (m.length / 64) m shaInit).foldl (fun a w => a * 2 ^ 32 + w.toNat) 0

/-! ### P-256 -/

/-- The field prime. -/
def ecP : Nat := 2 ^ 256 - 2 ^ 224 + 2 ^ 192 + 2 ^ 96 - 1
/-- The group order. -/
def ecN : Nat := 0xFFFFFFFF00000000FFFFFFFFFFFFFFFFBCE6FAADA7179E84F3B9CAC2FC632551
/-- The curve constant b. -/
def ecB : Nat := 0x5AC635D8AA3A93E7B3EBBD55769886BC651D06B0CC53B0F63BCE3C3E27D2604B
/-- The base point. -/
def ecG : Nat × Nat :=
  (0x6B17D1F2E12C4247F8BCE6E563A440F277037D812DEB33A0F4A13945D898C296,
   0x4FE342E2FE1A7F9B8EE7EB4A7C0F9E162BCE33576B315ECECBB6406837BF51F5)

/-- Power modulo `m`, over the low `n` bits of the exponent. -/
def modPow (m : Nat) : Nat → Nat → Nat → Nat
  | 0, _, _ => 1
  | n + 1, b, e =>
    let r := modPow m n (b * b % m) (e / 2)
    if e % 2 = 1 then r * b % m else r

/-- Inverse modulo a prime. -/
def modInv (m a : Nat) : Nat := modPow m 256 (a % m) (m - 2)

/-- A point, none at infinity. -/
abbrev EcPt := Option (Nat × Nat)

/-- Point addition, doubling included. -/
def ecAdd (a b : EcPt) : EcPt :=
  match a, b with
  | none, q => q
  | p, none => p
  | some (x1, y1), some (x2, y2) =>
    if x1 = x2 ∧ (y1 + y2) % ecP = 0 then none
    else
      let l := if x1 = x2 then (3 * x1 * x1 + (ecP - 3)) * modInv ecP (2 * y1) % ecP
        else (y2 + ecP - y1) * modInv ecP (x2 + ecP - x1) % ecP
      let x := (l * l + 2 * ecP - x1 - x2) % ecP
      some (x, (l * (x1 + ecP - x) + ecP - y1) % ecP)

/-- Scalar multiplication over the low `n` bits. -/
def ecMul : Nat → Nat → EcPt → EcPt
  | 0, _, _ => none
  | n + 1, k, q =>
    let r := ecMul n (k / 2) (ecAdd q q)
    if k % 2 = 1 then ecAdd q r else r

/-- Whether a pair of coordinates is a point of the curve. -/
def ecOnCurve (x y : Nat) : Bool :=
  decide (x < ecP) && decide (y < ecP) && (y * y % ecP == (x * x * x + (ecP - 3) * x + ecB) % ecP)

/-- ECDSA P-256 verification of a 64-byte signature, r then s, each 32 bytes big-endian, over a hash, with a 64-byte public
key, x then y (R227, R364). -/
def ecdsaOk (key sig : List Byte) (h : Nat) : Bool :=
  let qx := ofBytesBE (key.take 32)
  let qy := ofBytesBE ((key.drop 32).take 32)
  let r := ofBytesBE (sig.take 32)
  let s := ofBytesBE ((sig.drop 32).take 32)
  if key.length ≠ 64 ∨ sig.length ≠ 64 ∨ r = 0 ∨ s = 0 ∨ ecN ≤ r ∨ ecN ≤ s ∨ !ecOnCurve qx qy then false
  else
    let w := modInv ecN s
    match ecAdd (ecMul 256 (h * w % ecN) (some ecG)) (ecMul 256 (r * w % ecN) (some (qx, qy))) with
    | none => false
    | some (x, _) => x % ecN == r

end Sys2Proof.Machine
end

