-- ==== Sys2Proof/Machine/SafetyImg.lean ====
section
/-! DEFINITION. Reading and checking a safety image (R227, R228) and the timing rule of R218. -/

namespace Sys2Proof.Machine

/-- The highest enrolled generation of a key role, none while the role is blank (R364). -/
def State.topKey (s : State) (role : Nat) : Option (List Byte) := (Table.get (fun _ => []) s.sfy.keys role).getLast?

/-- A section: type, record count, record size and byte offset of its first record. -/
structure Sect where
  typ : Nat
  cnt : Nat
  size : Nat
  off : Nat

/-- Walk `n` section headers from offset `o` up to the signature at `e`; none with the word index of the header that fails. -/
def sections (l : List Byte) (e : Nat) : Nat → Nat → List Sect ⊕ Nat
  | 0, o => if o = e then .inl [] else .inr (o / 4)
  | n + 1, o =>
    if e < o + 8 then .inr (o / 4)
    else
      let x : Sect := { typ := leAt l o 2, cnt := leAt l (o + 2) 2, size := leAt l (o + 4) 4, off := o + 8 }
      if e < x.off + x.cnt * x.size then .inr (o / 4)
      else
        match sections l e n (x.off + x.cnt * x.size) with
        | .inl t => .inl (x :: t)
        | r => r

/-- Size and permitted bits of each word of a record of a type (R228). -/
def sectWords (typ : Nat) : List Nat :=
  let f := 0xFFFFFFFF
  match typ with
  | 0x01 => [f, f, f, f, f, 0, 0, 0]
  | 0x02 => [f, 0xFFFF0FFF, 0x3FFFFF, 0xFF]
  | 0x03 => [f, 0x3FFFFF, f, f, f, f, f, f]
  | 0x04 => [0xFFFF07FF, 0x8003FFFF]
  | 0x05 => [0x3FFFF3, 0x3FFFF]
  | 0x06 => [7, f, f, f]
  | 0x11 => [0xFFFF0F, f, f, f, f, f, f, f, f, f, f, f, 0xFF07, f, f, f]
  | 0x12 => [0x3FF3F, f] ++ List.replicate 17 f ++ [3, f, f, f, 0]
  | 0x13 => [0xF, f, f, f, f, f, f, f]
  | _ => []

/-- The counts a section may have (R228). -/
def sectCount (typ n : Nat) : Bool :=
  match typ with
  | 0x01 | 0x11 => n == 1
  | 0x02 => decide (1 ≤ n) && decide (n ≤ 256)
  | 0x03 => decide (n ≤ 32)
  | 0x04 | 0x05 => n == 8
  | 0x06 => decide (n ≤ 8)
  | 0x12 => decide (1 ≤ n) && decide (n ≤ 8)
  | _ => decide (1 ≤ n) && decide (n ≤ 13)

/-- The word index of the first word of a section with a bit set that no field has. -/
def sectReserved (l : List Byte) (x : Sect) : Option Nat :=
  let ms := sectWords x.typ
  (List.range (x.cnt * ms.length)).findSome? fun i =>
    let m := ms.getD (i % ms.length) 0
    if leAt l (x.off + 4 * i) 4 &&& (0xFFFFFFFF ^^^ m) ≠ 0 then some (x.off / 4 + i) else none

/-- The byte offsets of a section's records. -/
def Sect.recs (x : Sect) : List Nat := (List.range x.cnt).map fun i => x.off + i * x.size

/-- A signed field. -/
def leS (l : List Byte) (o : Nat) : Int := sxt 32 (leAt l o 4)
/-- A signed 64-bit field. -/
def leS64 (l : List Byte) (o : Nat) : Int := sxt 64 (leAt l o 8)
/-- Three signed fields. -/
def vec3 (l : List Byte) (o : Nat) : List Int := [leS l o, leS l (o + 4), leS l (o + 8)]

/-- A CONN record. -/
def readConn (l : List Byte) (o : Nat) : ConnRec :=
  let w := leAt l (o + 8) 4
  { conn := leAt l o 1, out := leAt l (o + 1) 1 == 1, len := leAt l (o + 2) 1, node := leAt l (o + 3) 1, flow := fld (leAt l (o + 4) 2) 0 12,
    missMax := if leAt l (o + 6) 1 % 16 = 0 then 16 else leAt l (o + 6) 1 % 16, ageMax := leAt l (o + 6) 1 / 16,
    seqwin := leAt l (o + 7) 1, arms := fld w 0 18, react := fld w 18 3, cellWide := bitN w 21, jmask := leAt l (o + 12) 1 }

/-- A ZONE record. -/
def readZone (l : List Byte) (o : Nat) : ZoneRec :=
  let w := leAt l (o + 4) 4
  { keepIn := leAt l o 4 == 2, arms := fld w 0 18, react := fld w 18 3, cellWide := bitN w 21, lo := vec3 l (o + 8), hi := vec3 l (o + 20) }

/-- A SINPAIR record. -/
def readSin (l : List Byte) (o : Nat) : SinRec :=
  let w := leAt l o 4
  let v := leAt l (o + 4) 4
  { mode := fld w 0 2, tp := fld w 2 2, func := fld w 4 4, react := fld w 8 3, disc := fld w 16 16, arms := fld v 0 18, cell := bitN v 31 }

/-- A SOUTPAIR record. -/
def readSout (l : List Byte) (o : Nat) : SoutRec :=
  let w := leAt l o 4
  { src := fld w 0 2, tper := fld w 4 8, twid := fld w 12 10, arms := fld (leAt l (o + 4) 4) 0 18 }

/-- A SCANNER record. -/
def readScan (l : List Byte) (o : Nat) : ScanRec :=
  { conns := (List.range (leAt l o 1)).map fun i => leAt l (o + 4 + i) 1, zd := leAt l (o + 8) 4, rp := leAt l (o + 12) 4 }

/-- A JOINT record. -/
def readJoint (l : List Byte) (o : Nat) : JointRec :=
  let w := leAt l o 4
  { axis := fld w 0 5, prism := bitN w 5, conn := fld w 8 8, pos := fld w 16 2, scale := leS l (o + 4),
    rot := (List.range 9).map fun i => leS l (o + 8 + 4 * i), tr := vec3 l (o + 44), slpLo := leS64 l (o + 56), slpHi := leS64 l (o + 64),
    sls := leAt l (o + 72) 4, sdi := leAt l (o + 76) 1 % 4, sdiTol := leAt l (o + 80) 4, sosWin := leAt l (o + 84) 4, adec := leAt l (o + 88) 4 }

/-- A CAPSULE record. -/
def readCap (l : List Byte) (o : Nat) : CapRec :=
  { link := leAt l o 1 % 16, p0 := vec3 l (o + 4), p1 := vec3 l (o + 16), rc := leAt l (o + 28) 4 }

/-- The records of a type. -/
def recsOf (ss : List Sect) (typ : Nat) : List Nat := (ss.filter fun x => x.typ == typ).flatMap (·.recs)

/-- A parsed cell image. -/
def readCell (l : List Byte) (ss : List Sect) : CellImg :=
  let g := (recsOf ss 0x01).headD 0
  { seqno := leAt l 12 4, key := leAt l 16 2, crc := leAt l 24 4, vh := if leAt l g 4 = 0 then 1600 else leAt l g 4, pmiss := leAt l (g + 4) 4,
    dtol := leAt l (g + 8) 4, vtolc := leAt l (g + 12) 4, hperson := leAt l (g + 16) 4, conns := (recsOf ss 0x02).map (readConn l),
    zones := (recsOf ss 0x03).map (readZone l), sins := (recsOf ss 0x04).map (readSin l), souts := (recsOf ss 0x05).map (readSout l),
    scans := (recsOf ss 0x06).map (readScan l) }

/-- A parsed arm image. -/
def readArm (l : List Byte) (ss : List Sect) : ArmImg :=
  let g := (recsOf ss 0x11).headD 0
  let w := leAt l g 4
  let v := leAt l (g + 48) 4
  { seqno := leAt l 12 4, crc := leAt l 24 4, tcpLink := fld w 0 4, modeConn := fld w 8 8, modeByte := fld w 16 8,
    slsTcp := [leAt l (g + 4) 4, leAt l (g + 8) 4, leAt l (g + 12) 4], tcp := vec3 l (g + 16), tresp := leAt l (g + 28) 4, adec := leAt l (g + 32) 4,
    c := leAt l (g + 36) 4, zr := leAt l (g + 40) 4, swarn := leAt l (g + 44) 4, react := fld v 0 2, auto := bitN v 2, resumeCyc := fld v 8 8,
    hyst := leAt l (g + 52) 4, tss1 := leAt l (g + 56) 4, vzero := leAt l (g + 60) 4, joints := (recsOf ss 0x12).map (readJoint l),
    caps := (recsOf ss 0x13).map (readCap l) }

/-! ### Limits -/

/-- No value occurs twice. -/
def noDup : List Nat → Bool
  | [] => true
  | x :: t => !t.contains x && noDup t

/-- A mask that names exactly one arm. -/
def oneArm (m : Nat) : Bool := ((List.range 18).filter fun i => bitN m i).length == 1

/-- The limits of a CONN record (R213, R217, R228). -/
def connOk (l : List Byte) (o : Nat) : Bool :=
  let c := readConn l o
  decide (leAt l (o + 1) 1 ≤ 1) && decide (c.len ≤ 32) && decide (1 ≤ c.node) && decide (c.node ≤ 250) && decide (c.ageMax ≤ 8) &&
    decide (1 ≤ c.seqwin) && decide (c.react ≤ 2) && (if c.out then oneArm c.arms && c.len == 4 else c.jmask == 0)

/-- The limits of a cell image (R228). -/
def cellOk (l : List Byte) (ss : List Sect) (c : CellImg) : Bool :=
  decide (1 ≤ c.pmiss) && decide (c.pmiss ≤ 16) && (recsOf ss 0x02).all (connOk l) && noDup (c.conns.map (·.conn)) &&
    (recsOf ss 0x03).all (fun o => leAt l o 4 == 1 || leAt l o 4 == 2) && c.zones.all (fun z => decide (z.react ≤ 2)) &&
    c.sins.all (fun p => decide (p.mode ≤ 2) && decide (p.func ≤ 4) && decide (p.react ≤ 2) && decide (p.disc ≤ 500)) &&
    c.souts.all (fun p => p.src == 0 || (decide (1 ≤ p.tper) && decide (p.tper ≤ 100) && decide (200 ≤ p.twid) && decide (p.twid ≤ 800))) &&
    c.scans.all (fun x => decide (1 ≤ x.conns.length) && decide (x.conns.length ≤ 4) && x.conns.all fun i => c.conns.any fun r => r.conn == i && !r.out)

/-- Whether an inbound connection is in the cell image. -/
def CellImg.inbound (c : CellImg) (i : Nat) : Bool := c.conns.any fun r => r.conn == i && !r.out

/-- The limits of an arm image (R16, R228); `used` tells the axes of the other arms of its sheet. -/
def armOk (c : CellImg) (a : ArmImg) (used : Nat → Bool) : Bool :=
  decide (a.tcpLink ≤ a.joints.length) && c.inbound a.modeConn && decide (a.modeByte < 32) && decide (1 ≤ a.react) && decide (a.react ≤ 2) &&
    noDup (a.joints.map (·.axis)) && a.joints.all (fun j => decide (j.axis < 24) && !used j.axis && c.inbound j.conn && decide (j.sdi ≤ 2)) &&
    a.caps.all fun p => decide (p.link ≤ a.joints.length)

/-! ### The timing rule of R218 -/

/-- Whether the safe connections of a cell image keep R218 in mode `m` of a schedule store. -/
def slotsOk (g : GStore) (m : Nat) (conns : List ConnRec) : Bool :=
  !bitN g.modes m ||
    let cyc := (Table.get (fun _ => ({} : GMode)) g.hdr m).cycle
    g.entries.all fun e => !(bitN e.mask m && e.kind == 0) ||
      conns.all fun c => c.flow != e.flow || (if c.out then decide (40000 ≤ e.start) else decide (e.start + e.len + 5000 ≤ cyc))

/-- R218 in every mode of a store. -/
def allSlotsOk (g : GStore) (conns : List ConnRec) : Bool := (List.range 8).all fun m => slotsOk g m conns

/-! ### The check of an image (R229) -/

/-- Result, word index, arm number and the parsed image. -/
structure ImgCheck where
  result : Nat
  word : Nat := 0
  arm : Nat := 0
  cell : Option CellImg := none
  armImg : Option ArmImg := none

/-- The layout of an image of which `l` holds LEN bytes: its sections, or the word index of the first failing field. -/
def layoutOf (l : List Byte) (len : Nat) (isCell : Bool) : List Sect ⊕ Nat :=
  let need := if isCell then [1, 2, 3, 4, 5, 6] else [0x11, 0x12, 0x13]
  if leAt l 18 2 ≠ 0 then .inr 4
  else if leAt l 20 4 ≠ need.length then .inr 5
  else if crcOf (l.take 24 ++ toBytes 4 0 ++ (l.take (len - 64)).drop 28) ≠ leAt l 24 4 then .inr 6
  else if leAt l 28 4 ≠ 0 then .inr 7
  else
    match sections l (len - 64) need.length 32 with
    | .inr w => .inr w
    | .inl ss =>
      match ss.find? fun x => !need.contains x.typ || x.size != 4 * (sectWords x.typ).length || (ss.filter fun y => y.typ == x.typ).length != 1 with
      | some x => .inr (x.off / 4 - 2)
      | none =>
        match ss.findSome? (sectReserved l) with
        | some w => .inr w
        | none => .inl ss

/-- The arms of the same sheet that hold an axis (R16). -/
def State.axisUsed (s : State) (arm axis : Nat) : Bool :=
  let d := (arm - 1) / 3
  (List.range 3).any fun c =>
    let n := 3 * d + c
    n + 1 != arm && ((Table.get (fun _ => ({} : CtmArm)) s.ctm.arms n).img.any fun a => a.joints.any fun j => j.axis == axis)

/-- Check the image at `a` in hub SRAM: address, header, signature, layout, limits, sequence number, key and slots
(R227–R229). -/
def State.checkImage (s : State) (a : Nat) : State × ImgCheck :=
  if !hubRange a 32 then (s, { result := 11 })
  else
    match s.readMem a 32 1 with
    | (t, none) => (t, { result := 11 })
    | (t, some h) =>
      let kind := leAt h 4 1
      let arm := leAt h 5 1
      let len := leAt h 8 4
      let isCell := kind = 1
      let bad (r w : Nat) : ImgCheck := { result := r, word := w, arm := arm % 32 }
      if leAt h 0 4 ≠ 0x43495443 then (t, bad 4 0)
      else if ¬ ((kind = 1 ∧ arm = 0) ∨ (kind = 2 ∧ 1 ≤ arm ∧ arm ≤ 18)) ∨ leAt h 6 2 ≠ 1 then (t, bad 4 1)
      else if len % 4 ≠ 0 ∨ len < 96 ∨ (if isCell then 65536 else 16384) < len then (t, bad 4 2)
      else if !hubRange a len then (t, bad 11 0)
      else
        match t.readMem a len 1 with
        | (u, none) => (u, bad 11 0)
        | (u, some l) =>
          let sig := l.drop (len - 64)
          if !((u.topKey 2).any fun k => ecdsaOk k sig (sha256 (l.take (len - 64)))) then (u, bad 3 0)
          else
            match layoutOf l len isCell with
            | .inr w => (u, bad 4 w)
            | .inl ss =>
              if ss.any fun x => !sectCount x.typ x.cnt then (u, bad 5 0)
              else if isCell then
                let c := readCell l ss
                if !cellOk l ss c then (u, bad 5 0)
                else if u.ctm.cell.any fun x => decide (c.seqno ≤ x.seqno) then (u, bad 7 0)
                else if !allSlotsOk u.bus.store c.conns || (u.bus.storeNext.any fun g => !allSlotsOk g c.conns) then (u, bad 9 0)
                else if (List.range 18).any fun n => u.sheetFitted (n / 3 + 1) && decide ((Table.get (fun _ => ({} : CtmArm)) u.ctm.arms n).sst < 3) then (u, bad 6 0)
                else (u, { result := 1, cell := some c })
              else
                match u.ctm.cell with
                | none => (u, bad 8 0)
                | some c =>
                  let x := Table.get (fun _ => ({} : CtmArm)) u.ctm.arms (arm - 1)
                  let i := readArm l ss
                  if !u.sheetFitted ((arm - 1) / 3 + 1) || !armOk c i (u.axisUsed arm) then (u, bad 5 0)
                  else if x.img.any fun y => decide (i.seqno ≤ y.seqno) then (u, bad 7 0)
                  else if leAt l 16 2 ≠ c.key then (u, bad 8 0)
                  else if x.sst < 3 then (u, bad 6 0)
                  else (u, { result := 1, arm := arm, armImg := some i })

end Sys2Proof.Machine
end

