-- ==== Sys2Proof/Machine/CtmCmd.lean ====
section
/-! DEFINITION. The commands and registers of the Contour safety system (chapter 08). -/

namespace Sys2Proof.Machine

/-- The Contour die runs: not held by the power-on reset. It runs on while WRST_N is low (R225). -/
def State.ctmUp (s : State) : Bool := !s.sys.porst && !s.sys.internal

/-- Put an arm into STO with a cause, latched; one that is in STO already is latched too (R206, R208, R225). -/
def State.armSto (s : State) (n cause : Nat) : State :=
  let a := s.ctm.arm n
  if a.img.isNone then s
  else if a.sst == 4 then s.updCtm fun c => c.setArm n { a with latch := true, ssmOnly := false, rstSeen := false }
  else s.armEnter n { a with cause := cause, latch := true, ssmOnly := false, rstSeen := false, pdem := false } 4

/-- Put every arm into STO and switch the outputs by their sources. -/
def State.allSto (s : State) (cause : Nat) : State := (s.armList.foldl (fun s n => s.armSto n cause) s).driveOuts

/-! ### The two channels -/

/-- The result vector that arrives: the processor channel's own evaluation of the datum (R197), with `dev` in place of an arm's part
where its hardware or its reception deviates. -/
def State.procResult (s : State) (dev : List ProcArm) : List ProcArm :=
  (s.ctm.procVector s.armList).map fun x => (dev.find? fun y => y.arm == x.arm).getD x

/-- PROCESSOR_RESULT: the result vector arrives; it enters the decision if it comes by 30 µs (R198, R200). -/
def execProcessorResult (dev : List ProcArm) (s : State) : Out :=
  .next (if !s.ctmUp || s.ctm.wrst || s.ctm.procHeld || s.ctm.halted || s.ctm.proc.isSome then s
    else s.updCtm fun c => { c with proc := some (s.procResult dev), procUsed := !c.decided && decide (s.mer.phase ≤ 30000 * unitNs) })

/-- DECISION: at 40 µs after the datum (R198). -/
def execDecision (s : State) : Out := .next (if !s.ctmUp || s.ctm.decided then s else (s.runTo 40000).ctmDecide)

/-- LOCKSTEP: a mismatch halts the processor channel, which delivers no further results; PROC_LOST follows at the next datum, and a
result that has arrived still enters (R197, R200). -/
def execLockstep (s : State) : Out :=
  .next (if !s.ctmUp || s.ctm.wrst || s.ctm.halted then s
    else (s.updCtm fun c => { c with halted := true }).ctmDiag 15 0 0)

/-- CLK_FAIL: with REFCLK stopped the Contour die's own count leaves its window (R28, R202, R390). -/
def execClkFail (s : State) : Out :=
  .next (if !s.ctmUp || s.ctm.clkFail then s
    else (((s.updCtm fun c => { c with clkFail := true, clkDev := 2 }).ctmDiag 7 0 0).allSto 13))

/-! ### Stop functions -/

/-- TSS1_EXPIRY: standstill is not reached within TSS1 of k0 (R206). -/
def execTss1Expiry (arm : Nat) (s : State) : Out :=
  let n := arm - 1
  let a := s.ctm.arm n
  .next (match a.img with
    | none => s
    | some i =>
      if s.ctmUp && (a.sst == 1 || a.sst == 2) && decide (a.k0 + i.tss1 * 1000000 ≤ s.upNs) then ((s.armSto n 17).ctmDiag 16 arm arm).driveOuts else s)

/-- The SSM demand of an arm is due to release by itself with the decision of the present cycle (R212). -/
def State.autoDue (s : State) (n : Nat) : Bool :=
  let a := s.ctm.arm n
  a.sst != 0 && a.ssmOnly && a.amode == 3 && a.view.clear && a.img.any fun i => i.auto && decide (i.resumeCyc ≤ a.clear + 1)

/-- SSM_AUTORESUME: after RESUMECYC clear datums the decision releases the SSM demand, where no other demand is present in either
channel (R212). -/
def execSsmAutoresume (arm : Nat) (s : State) : Out :=
  .next (if s.ctmUp && !s.ctm.decided && s.autoDue (arm - 1) then (s.runTo 40000).ctmDecide else s)

/-! ### Safe inputs and outputs -/

/-- SAFE_INPUT_CHANGE: a pin changes level; the samples from now on see it, and two equal ones make it the filtered level (R221). -/
def execSafeInputChange (n : Fin 16) (level : Bool) (s : State) : Out :=
  .next ((if s.ctmUp then s.ctmSettle else s).updCtm fun c => { c with pins := BitVec.ofNat 32 (setFld c.pins.toNat n.val 1 (b01 level)) })

/-- IN_DISC: time runs on to the sample at which the inputs of a pair have disagreed longer than DISC, if this cycle reaches it
(R221). -/
def execInDisc (pair : Fin 8) (s : State) : Out :=
  .next (if !s.ctmUp then s
    else
      let t := s.ctmSettle
      match (t.ctm.pair pair.val).since with
      | some k => t.runSample (k + 100 * (t.ctm.sinRec pair.val).disc + 1)
      | none => t)

/-- The next sample after `k` at which a source starts its pulse (R222). -/
def nextPulse (k : Nat) (tps1 : Bool) : Nat := (k + 1000 * b01 tps1) / 2000 * 2000 + 2000 - 1000 * b01 tps1

/-- TEST_PULSE: time runs on to a source's next pulse, if this cycle reaches it; the pulse masks its assigned inputs that are high
(R222). -/
def execTestPulse (src : Bool) (s : State) : Out := .next (if s.ctmUp then s.runSample (nextPulse s.sampNow src) else s)

/-- IN_TEST: time runs on to the end of a mask of a pair, if this cycle reaches it; an unseen pulse or an input that has not
returned raises IN_TEST (R222). -/
def execInTest (pair : Fin 8) (s : State) : Out :=
  .next (if !s.ctmUp then s
    else
      let t := s.ctmSettle
      match (t.ctm.mask (2 * pair.val)).orElse fun _ => t.ctm.mask (2 * pair.val + 1) with
      | some m => t.runSample (m.at_ + 60)
      | none => t)

/-- Whether the readback levels of a pair, `srb` bit 0 for A and bit 1 for B, mismatch the commanded levels and no commanded change is
less than 150 µs old (R223). -/
def Ctm.mismatch (c : Ctm) (i : Nat) (srb : BitVec 2) (now : Nat) : Bool :=
  (List.range 2).any fun k => let o := c.out (2 * i + k); o.dark.isNone && srb.getLsbD k != o.level && decide (o.since + 150000 < now)

/-- OUT_FAIL: the readbacks of a pair in use have shown levels for longer than 150 µs, and one mismatches (R223). -/
def execOutFail (pair : OutReadback) (s : State) : Out :=
  .next (if !s.ctmUp then s
    else
      let t := s.ctmSettle
      let i := pair.pair.val
      if (t.ctm.soutRec i).src != 0 && !bitN t.ctm.outFail i && t.ctm.mismatch i pair.srb t.upNs then
        (t.updCtm fun c =>
          (List.range 2).foldl (fun c k => c.setOut (2 * i + k) { c.out (2 * i + k) with stuck := some (pair.srb.getLsbD k) })
            (c.failPair t.armList t.upNs i)).ctmReport
      else t)

/-- The next sample after `k` at which a test of output `j` is scheduled (R224). -/
def SoutRec.next (r : SoutRec) (j k : Nat) : Nat :=
  let per := 10000 * r.tper
  let at_ := 5000 * r.tper * (j % 2)
  (k + per - at_) / per * per + at_

/-- OUTPUT_TEST_PULSE: time runs on to the next scheduled test of an output, if this cycle reaches it; the test runs or is skipped,
and `follows` says whether its readback follows (R224). -/
def execOutputTestPulse (output : Fin 16) (follows : Bool) (s : State) : Out :=
  let r := s.ctm.soutRec (output.val / 2)
  .next (if !s.ctmUp || r.src == 0 || r.tper == 0 then s
    else s.runSample (r.next output.val s.sampNow) (if follows then none else some output.val))

/-! ### Safety images -/

/-- IMG_CRC: a channel re-checks its copy of an image; scope 0 is the cell image, else an arm number (R226). -/
def execImgCrc (scope : Nat) (hardwired bad : Bool) (s : State) : Out :=
  .next (if !s.ctmUp || !bad then s
    else if scope = 0 then
      if s.ctm.cell.isNone || s.ctm.cellBad then s
      else
        let t := (s.updCtm fun c => { c with cellBad := true }).ctmDiag 14 0 0
        if hardwired then t else t.updCtm fun c => { c with hwDiag := s.ctm.hwDiag }
    else
      let a := s.ctm.arm (scope - 1)
      if a.img.isNone || a.imgBad then s
      else
        let t := (s.updCtm fun c => c.setArm (scope - 1) { a with imgBad := true }).ctmDiag 14 scope scope
        if hardwired then t else t.updCtm fun c => { c with hwDiag := s.ctm.hwDiag })

/-- CTM_LDCTL.GO (R229). -/
def State.ctmLoadGo (s : State) : State :=
  if !s.ctmUp || s.ctm.wrst then s
  else if s.ctm.load.isSome then s.updCtm fun c => { c with result := 2 }
  else
    let a := (s.rd (ctmReg 0x04)).toNat * 256
    s.updCtm fun c => { c with load := some ⟨(s.byte (a + 5)).toNat % 32, none, none⟩, checking := true, ldAddr := a }

/-- SAFETY_IMAGE_LOAD: a write of 1 to CTM_LDCTL.GO (R229). -/
def execSafetyImageLoad (s : State) : Out := .next s.ctmLoadGo

/-- A load ends with a result (R229): event LOADREF for a refusal. -/
def State.loadEnd (s : State) (arm result word : Nat) : State :=
  let t := s.updCtm fun c => { c with load := none, checking := false, result := result, ldArm := arm, ldWord := word }
  t.ctmEvent (if result = 1 then 3 else 4) arm result

/-- The check of a load ends (R229). -/
def State.loadCheck (s : State) (agree : Bool) : State :=
  let (t, k) := s.checkImage s.ctm.ldAddr
  if k.result ≠ 1 then t.loadEnd k.arm k.result k.word
  else if !agree then t.loadEnd k.arm 10 0
  else t.updCtm fun c => { c with load := some ⟨k.arm, k.cell, k.armImg⟩, checking := false, ldArm := k.arm }

/-- IMAGE_CHECK_DONE: both channels have finished checking; `agree` says that their parsed parameters agree (R229). -/
def execImageCheckDone (agree : Bool) (s : State) : Out :=
  .next (if s.ctmUp && !s.ctm.wrst && s.ctm.checking then s.loadCheck agree else s)

/-- Put a cell image in force (R229). A fault of a safe input pair stands until it clears under R221, and no snapshot before it
counts as a change of a reset source (R208). -/
def Ctm.putCell (c : Ctm) (g : CellImg) : Ctm :=
  { c with cell := some g, cellBad := false, conns := [], pConns := [], standing := [], outFail := 0
           pairs := (List.range 8).foldl (fun t i => Table.set (fun _ => ({} : SinPair)) t i { c.pair i with demand := true, since := none, snapped := false }) c.pairs }

/-- Put an arm image in force: the arm stays latched (R208, R229). -/
def Ctm.putArm (c : Ctm) (n : Nat) (i : ArmImg) : Ctm :=
  let a := c.arm n
  let used := i.modeConn :: i.joints.map (·.conn)
  let c := c.setArm n { a with img := some i, imgBad := false, latch := true, ssmOnly := false, rstSeen := false, view := {}, vel := [], last := [], tcpAt := none, tcpV := 0, ends := [], vr := 0, sdiRef := [], disc := 0, clear := 0 }
  used.foldl (fun c k => { c.setConn k { c.connOf k with seen := false } with
    pConns := Table.set (fun _ => {}) c.pConns k { Table.get (fun _ => ({} : SafeConn)) c.pConns k with seen := false } })
    { c with pArms := Table.set (fun _ => ({} : CtmArm)) c.pArms n {} }

/-- An accepted image takes effect when its arms are in SOS or STO (R229). -/
def State.imageEffect (s : State) : State :=
  match s.ctm.load with
  | none => s
  | some l =>
    let rest (n : Nat) : Bool := decide (3 ≤ (s.ctm.arm n).sst)
    match l.cell, l.armImg with
    | some g, _ => if s.armList.all rest then (s.updCtm fun c => c.putCell g).loadEnd 0 1 0 else s
    | none, some i => if rest (l.arm - 1) then (s.updCtm fun c => c.putArm (l.arm - 1) i).loadEnd l.arm 1 0 else s
    | none, none => s

/-- IMAGE_TAKES_EFFECT: with the datum that the cycle has reached (R229). -/
def execImageTakesEffect (s : State) : Out := .next (if s.ctmUp && !s.ctm.wrst && s.cycleOver then s.ctmSettle.imageEffect else s)

/-! ### Registers (R230) -/

/-- Pack an arm register. -/
def armWord (sst mode cause person : Nat) (latch img warn pdem : Bool) : Nat :=
  sst + mode * 8 + b01 latch * 64 + b01 img * 128 + cause % 256 * 256 + b01 warn * 2 ^ 16 + b01 pdem * 2 ^ 17 + person % 256 * 2 ^ 24

/-- The bits of a CTM register that hardware keeps. -/
def State.ctmRead (s : State) (off : Nat) : Nat :=
  let c := s.ctm
  match off with
  | 0x00 => b01 c.cell.isSome + b01 c.procOk * 2 + b01 c.wrst * 4 + c.lastDiag * 256 + c.diagCnt * 65536
  | 0x0C => c.result + b01 c.load.isSome * 16 + c.ldArm * 256 + c.ldWord % 65536 * 65536
  | 0x1C =>
    let i := s.rf (ctmReg 0x18) 0 8
    match c.cell.bind fun g => g.conns.find? fun r => r.conn == i with
    | none => 0
    | some r =>
      let x := c.connOf i
      x.age + x.missrun * 256 + 2 ^ 13 + b01 r.out * 2 ^ 14 + x.seqLast * 65536
  | 0x20 => ((List.range 16).map fun k => b01 (c.out k).warn * 2 ^ k).sum
  | _ =>
    if 0x100 ≤ off ∧ off < 0x148 ∧ off % 4 = 0 ∧ s.sheetFitted ((off - 0x100) / 12 + 1) then
      let a := c.arm ((off - 0x100) / 4)
      armWord a.sst a.amode a.cause a.person a.latch a.img.isSome a.ssmwarn a.pdem
    else 0

/-- A CSM register (R230). -/
def State.csmRead (s : State) (off : Nat) : Nat :=
  let c := (if s.ctmUp then s.ctmSettle else s).ctm
  match off with
  | 0x00 => b01 c.cell.isSome + b01 c.procOk * 2 + b01 s.sfy.wrstPin * 4 + c.hwDiag * 256
  | 0x04 => c.clkCount
  | 0x08 => c.sin.toNat + ((List.range 8).map fun i => b01 (c.pair i).demand * 2 ^ (16 + i) + b01 ((c.pair i).disc || (c.pair i).test) * 2 ^ (24 + i)).sum
  | 0x0C => ((List.range 16).map fun k => b01 (c.out k).level * 2 ^ k + b01 (c.out k).srb * 2 ^ (k + 16)).sum
  | _ =>
    if 0x100 ≤ off ∧ off < 0x148 ∧ off % 4 = 0 ∧ s.sheetFitted ((off - 0x100) / 12 + 1) then
      let a := c.arm ((off - 0x100) / 4)
      armWord a.hwSst a.amode a.hwCause a.hwPerson a.latch a.img.isSome a.view.warn false
    else 0

end Sys2Proof.Machine
end

