-- ==== Sys2Proof/Machine/Dma.lean ====
section
/-! DEFINITION. The DMA channels (R319–R332): commands, descriptors, bursts, hand-back and streams. -/

namespace Sys2Proof.Machine

/-- The DMA block of a die (R18). -/
def dmaBlk (d : Nat) : Nat := if d = 0 then 7 else 3

/-- A register of channel `ch`. -/
def dmaReg (d ch off : Nat) : Nat := rg d (dmaBlk d) (0x100 + 0x40 * ch + off)

/-- A channel. -/
def State.ch (s : State) (d ch : Nat) : DmaCh := Table.get (fun _ => {}) s.dma (16 * d + ch)

/-- Replace a channel. -/
def State.setCh (s : State) (d ch : Nat) (x : DmaCh) : State := { s with dma := Table.set (fun _ => {}) s.dma (16 * d + ch) x }

/-- Change a channel. -/
def State.updCh (s : State) (d ch : Nat) (f : DmaCh → DmaCh) : State := s.setCh d ch (f (s.ch d ch))

/-- Every channel of the hub and the fitted sheets. -/
def State.chList (s : State) : List (Nat × Nat) := (0 :: s.sheetList).flatMap fun d => (List.range 16).map fun i => (d, i)

/-- DMA_CHn_STAT. -/
def DmaCh.stat (x : DmaCh) : Nat :=
  x.st.code + b01 x.pendEn * 8 + b01 x.err * 16 + b01 x.cfgErr * 32 + x.lastDstat * 256 + x.idx * 2 ^ 16

/-- Acceptance of a command: 0, or the status of its refusal (R70, R328, R329, R337). -/
def State.dmaAccept (s : State) (d code val : Nat) : Nat :=
  if code ≠ 1 ∧ code ≠ 2 then 5
  else if val ≠ 0 then 6
  else if !s.answers d then 8
  else if code = 1 ∧ (!s.inService d ∨ s.sys.mode = .shutdown) then 8
  else 0

/-- Issue a command to a channel: the state and the status. -/
def State.dmaCommand (s : State) (d ch code val : Nat) : State × Nat :=
  let r := s.dmaAccept d code val
  (if r = 0 then s.updCh d ch fun x => { x with cmds := x.cmds ++ [(code, s.mer.phase)] } else s, r)

/-- Fire the channel's event (R332): 1 DESC, 2 HALTED, 3 ERROR. -/
def State.dmaFire (s : State) (d ch code idx : Nat) : State :=
  s.fireHeld (.dma d ch) (fld (s.ch d ch).cfg 20 9) (code * 2 ^ 20 + ch * 2 ^ 16 + d * 2 ^ 12 + idx)

/-- The channel enters HALTED (R327, R332). -/
def State.dmaHalted (s : State) (d ch : Nat) (err : Bool) (idx : Nat) : State :=
  (s.updCh d ch fun x => { x with st := .halted, err := x.err || err, pendEn := false, cur := none }).dmaFire d ch
    (if err then 3 else 2) idx

/-- Address of the descriptor at the channel's index. -/
def DmaCh.descAddr (x : DmaCh) : Nat := x.ring * 256 + 32 * x.idx

/-- A descriptor that ends without moving. -/
def badCur (x : DmaCh) (l : List Byte) (dstat : Nat) : DmaCur :=
  { kind := fld (leAt l 28 4) 1 3, src := leAt l 0 8, dst := leAt l 8 8, len := 0, evt := bitN (leAt l 28 4) 4,
    w28 := leAt l 28 4, todo := [], down := false, moved := 0, dstat := dstat, at_ := x.idx }

/-- A RUNNING channel with no descriptor in hand reads the descriptor at its index: OWN = 0 leads to WAIT, an unassigned
KIND ends it with BADDESC, a descriptor that cannot be read halts the channel (R319, R321, R327). -/
def State.dmaLook (s : State) (d ch : Nat) : State :=
  let x := s.ch d ch
  let a := x.descAddr
  if !s.rangeAnswers a 32 then (s.updCh d ch fun y => { y with lastDstat := 2 }).dmaHalted d ch true x.idx
  else
    let (t, r) := s.readMem a 32 1
    match r with
    | none => t.updCh d ch fun y => { y with st := .running, cur := some (badCur x (s.bytes a 32) 5) }
    | some l =>
      let w := leAt l 28 4
      if w % 2 = 0 then t.updCh d ch fun y => { y with st := .wait }
      else if 5 ≤ fld w 1 3 then t.updCh d ch fun y => { y with st := .running, cur := some (badCur x l 4) }
      else t.updCh d ch fun y => { y with st := .running }

/-- Whether the configuration of a channel keeps the rules of the DMA registers (R327, R328, R330). -/
def State.dmaCfgOk (s : State) (d ch : Nat) : Bool :=
  let log2 := s.rf (dmaReg d ch 0x04) 0 4
  let typ := s.rf (dmaReg d ch 0x0C) 0 3
  let src := s.rf (dmaReg d ch 0x0C) 4 12
  let la := s.rf (dmaReg d ch 0x14) 0 32
  s.sramRange (s.rf (dmaReg d ch 0x00) 0 32 * 256) (32 * 2 ^ log2)
    && decide (s.rf (dmaReg d ch 0x04) 16 12 < 2 ^ log2)
    && s.rf (dmaReg d ch 0x08) 12 8 != 0
    && (typ == 0 || decide (s.rf (dmaReg d ch 0x10) 16 16 < s.rf (dmaReg d ch 0x10) 0 16))
    && (!(typ == 2 || typ == 3) || (d == 0 && decide (src ≤ 1)))
    && (!(typ == 0 || typ == 4) || src == 0)
    && (typ != 4 || (la % 4 == 0 && s.sramRange la 4))

/-- START applies (R327). -/
def State.dmaStart (s : State) (d ch : Nat) : State :=
  let x := s.ch d ch
  match x.st with
  | .disabling => s.setCh d ch { x with pendEn := true }
  | .idle | .halted =>
    if !s.dmaCfgOk d ch then s.setCh d ch { x with cfgErr := true }
    else
      let n := 2 ^ s.rf (dmaReg d ch 0x04) 0 4
      let i := if x.st = .idle then s.rf (dmaReg d ch 0x04) 16 12 else x.idx % n
      let y := { x with st := .running, err := false, cfgErr := false, pendEn := false, idx := i, ring := s.rf (dmaReg d ch 0) 0 32 }
      let y := { y with log2 := s.rf (dmaReg d ch 0x04) 0 4, cfg := (s.rd (dmaReg d ch 0x08)).toNat, cur := none, flowing := false }
      let y := { y with pace := (s.rd (dmaReg d ch 0x0C)).toNat, lvl := (s.rd (dmaReg d ch 0x10)).toNat }
      (s.setCh d ch { y with lvlAddr := s.rf (dmaReg d ch 0x14) 0 32 }).dmaLook d ch
  | _ => s

/-- HALT applies (R327): the descriptor in hand is handed back with HALTED; with none in hand the halt completes. -/
def State.dmaHalt (s : State) (d ch : Nat) : State :=
  let x := s.ch d ch
  match x.st with
  | .disabling => s.setCh d ch { x with pendEn := false }
  | .running | .wait | .paced =>
    match x.cur with
    | none => s.dmaHalted d ch false x.idx
    | some c => s.setCh d ch { x with st := .disabling, cur := some { c with dstat := if c.dstat = 0 then 6 else c.dstat } }
  | _ => s

/-- A command applies at a datum (R71, R328, R335). -/
def State.dmaApply (s : State) (d ch code : Nat) : State :=
  if code = 1 then if s.inService d ∧ s.sys.mode ≠ .shutdown then s.dmaStart d ch else s
  else if s.answers d then s.dmaHalt d ch else s

/-- Apply the listed commands in order. -/
def dmaApplyAll (d ch : Nat) : List (Nat × Nat) → State → State
  | [], s => s
  | c :: t, s => dmaApplyAll d ch t (s.dmaApply d ch c.1)

/-- The channel's share of a datum: the commands that entered at least 1 µs before it (R32). `lim` is the latest phase. -/
def State.dmaDatum (s : State) (lim : Nat) (k : Nat × Nat) : State :=
  let x := s.ch k.1 k.2
  let due := x.cmds.filter fun c => decide (c.2 ≤ lim)
  let rest := (x.cmds.filter fun c => !decide (c.2 ≤ lim)).map fun c => (c.1, 0)
  dmaApplyAll k.1 k.2 due (s.setCh k.1 k.2 { x with cmds := rest })

/-- What a sheet's entry into DRAINING does to a channel (R329). One in DISABLING has a descriptor in hand and halts when it is handed
back. -/
def State.dmaDrain (s : State) (d ch : Nat) : State :=
  let x := s.ch d ch
  if (x.st = .wait ∨ x.st = .running ∨ x.st = .paced) ∧ x.cur.isNone then s.dmaHalted d ch false x.idx else s

/-! ### Taking a descriptor -/

/-- The entries of a GATHER or SCATTER list as (address, length); none if one breaks its rule (R319, R322). -/
def listEntries : Nat → List Byte → Option (List (Nat × Nat))
  | 0, _ => some []
  | n + 1, l =>
    let len := leAt l 8 4
    if leAt l 0 8 < 2 ^ 40 ∧ 1 ≤ len ∧ len < 2 ^ 24 ∧ leAt l 12 4 = 0 then
      (listEntries n (l.drop 16)).map fun r => (leAt l 0 8, len) :: r
    else none

/-- Whether two byte ranges meet. -/
def meets (a n b m : Nat) : Bool := decide (a < b + m) && decide (b < a + n)

/-- Segments from a list to consecutive bytes (GATHER). -/
def gatherSegs (dst : Nat) : List (Nat × Nat) → List Seg
  | [] => []
  | (a, n) :: t => ⟨a, dst, n⟩ :: gatherSegs (dst + n) t

/-- Segments from consecutive bytes to a list (SCATTER). -/
def scatterSegs (src : Nat) : List (Nat × Nat) → List Seg
  | [] => []
  | (a, n) :: t => ⟨src, a, n⟩ :: scatterSegs (src + n) t

/-- Address of element `i` with a signed stride. -/
def strideAt (a : Nat) (st : Int) (i : Nat) : Int := (a : Int) + (i : Int) * st

/-- The span of `n` strided elements of `len` bytes: lowest address and size. -/
def strideSpan (a : Nat) (st : Int) (n len : Nat) : Int × Nat :=
  let e := strideAt a st (n - 1)
  (min (a : Int) e, (max (a : Int) e - min (a : Int) e).toNat + len)

/-- Whether a span of signed addresses lies in SRAM. -/
def State.spanIn (s : State) (p : Int × Nat) : Bool := decide (0 ≤ p.1) && s.sramRange p.1.toNat p.2

/-- Whether a descriptor copies the whole buffer of the flow in PACE.SRC: SRC the flow buffer and LEN = 32 + 4 × WORDS (R331). -/
def State.copiesFlow (s : State) (f src len : Nat) : Bool :=
  let g := s.gaz f
  g.valid && src == g.buf && len == 32 + 4 * g.words

/-- Check a descriptor and form its segments (R319, R322, R323, R331): the status 0 with the segments, or 3 or 4, and whether the copy
descends. `ents` are the list entries of GATHER and SCATTER. -/
def State.dmaPlan (s : State) (x : DmaCh) (kind src dst len ss ds count : Nat) (ents : Option (List (Nat × Nat))) :
    Nat × List Seg × Bool :=
  let typ := fld x.pace 0 3
  if 1 ≤ typ ∧ typ ≤ 3 ∧ kind ≠ 0 then (4, [], false)
  else
    match kind with
    | 0 =>
      let srcOk := if typ = 2 then src == 0 else s.sramRange src len
      let dstOk := if typ = 3 then dst == 0 else s.sramRange dst len
      let lenOk := (typ ≠ 1 || s.copiesFlow (fld x.pace 4 12) src len) && (typ ≠ 3 || (decide (60 ≤ len) && decide (len ≤ 1514)))
      if 1 ≤ len ∧ ss = 0 ∧ ds = 0 ∧ count = 0 ∧ srcOk ∧ dstOk ∧ lenOk then
        (0, [⟨src, dst, len⟩], typ != 2 && typ != 3 && decide (src < dst) && decide (dst < src + len))
      else (4, [], false)
    | 1 => if 1 ≤ len ∧ ss = 0 ∧ ds = 0 ∧ count = 0 ∧ s.sramRange dst len then (0, [⟨0, dst, len⟩], false) else (4, [], false)
    | 2 =>
      let sp := strideSpan src (sxt 16 ss) count len
      let dp := strideSpan dst (sxt 16 ds) count len
      if 1 ≤ len ∧ len ≤ 65535 ∧ 1 ≤ count ∧ src < 2 ^ 40 ∧ dst < 2 ^ 40 ∧ s.spanIn sp ∧ s.spanIn dp then
        if meets sp.1.toNat sp.2 dp.1.toNat dp.2 then (3, [], false)
        else
          (0, (List.range count).map fun i => ⟨(strideAt src (sxt 16 ss) i).toNat, (strideAt dst (sxt 16 ds) i).toNat, len⟩, false)
      else (4, [], false)
    | _ =>
      match ents with
      | none => (4, [], false)
      | some l =>
        let total := (l.map (·.2)).sum
        let lin := if kind = 3 then dst else src
        if len = 0 ∧ ss = 0 ∧ ds = 0 ∧ s.sramRange lin total ∧ l.all (fun e => s.sramRange e.1 e.2) then
          if l.any (fun e => meets e.1 e.2 lin total) then (3, [], false)
          else (0, if kind = 3 then gatherSegs dst l else scatterSegs src l, false)
        else (4, [], false)

/-- The channel takes and checks the descriptor at its index, if it is of the given KIND and owned (R320–R323). -/
def State.dmaTake (s : State) (d ch kind : Nat) : State :=
  let x := s.ch d ch
  let a := x.descAddr
  if x.st ≠ .running ∨ x.cur.isSome ∨ s.holds (.dma d ch) ∨ !s.rangeAnswers a 32 then s
  else
    let l := s.bytes a 32
    let w := leAt l 28 4
    if w % 2 = 0 ∨ fld w 1 3 ≠ kind then s
    else
      let (s, rd) := s.readMem a 32 1
      let src := leAt l 0 8
      let dst := leAt l 8 8
      let count := fld w 16 16
      let lst := if kind = 3 then src else dst
      let rsv := fld (leAt l 16 4) 24 8 = 0 ∧ leAt l 20 4 = 0 ∧ fld w 5 3 = 0 ∧ fld w 8 8 = 0 ∧ (kind = 1 ∨ src < 2 ^ 40) ∧ dst < 2 ^ 40
      let listOk := lst % 16 = 0 ∧ 1 ≤ count ∧ count ≤ 4096 ∧ s.sramRange lst (16 * count)
      let put (s : State) (c : DmaCur) := s.updCh d ch fun y => { y with cur := some c }
      if rd.isNone then put s (badCur x l 5)
      else if !decide rsv then put s (badCur x l 4)
      else if 3 ≤ kind ∧ !decide listOk then put s (badCur x l 4)
      else if 3 ≤ kind ∧ !s.rangeAnswers lst (16 * count) then put s (badCur x l 2)
      else
        let (s, ents) := if 3 ≤ kind then s.readMem lst (16 * count) 1 else (s, some [])
        match ents with
        | none => put s (badCur x l 5)
        | some lb =>
          let (st, segs, down) := s.dmaPlan x kind src dst (fld (leAt l 16 4) 0 24) (leAt l 24 2) (leAt l 26 2) count (listEntries count lb)
          let c := badCur x l st
          put s { c with len := fld (leAt l 16 4) 0 24, todo := segs, down := down }

/-! ### Bursts -/

/-- Cut the next burst of at most `b` bytes off the segments, ascending: pieces and the rest (R324). GATHER joins segments
whose destination continues. -/
def cutUp (join : Bool) (b : Nat) : List Seg → List Seg × List Seg
  | [] => ([], [])
  | g :: t =>
    let room := b - g.dst % b
    if g.len ≤ room then
      if join && decide (g.len < room) then
        let (p, r) := cutUp join b t
        (g :: p, r)
      else ([g], t)
    else ([{ g with len := room }], { src := g.src + room, dst := g.dst + room, len := g.len - room } :: t)

/-- Cut the next burst off the top of a descending copy (R324). -/
def cutDown (b : Nat) : List Seg → List Seg × List Seg
  | [] => ([], [])
  | g :: t =>
    let e := g.dst + g.len
    let lo := max g.dst ((e - 1) / b * b)
    let n := e - lo
    ([{ src := g.src + (g.len - n), dst := lo, len := n }], if n = g.len then t else { g with len := g.len - n } :: t)

/-- The bytes of a FILL pattern from index `i` (R320). -/
def fillBytes (pat i n : Nat) : List Byte := (List.range n).map fun k => BitVec.ofNat 8 (pat / 2 ^ (8 * ((i + k) % 8)))

/-- A host port by its number. -/
def State.host (s : State) (b : Bool) : HostSt := if b then s.hostB else s.hostA

/-- Replace a host port. -/
def State.setHost (s : State) (b : Bool) (h : HostSt) : State := if b then { s with hostB := h } else { s with hostA := h }

/-- Bytes waiting in a FIFO. -/
def fifoBytes (l : List (List Byte)) : Nat := (l.map List.length).sum

/-- What a read of the banks by a channel brings: the value, a bus error, or an uncorrectable error (R326). -/
inductive Got (α : Type) where
  | ok (x : α)
  | bus
  | ecc
  deriving DecidableEq, Repr

/-- A channel reads bytes of the banks (R315, R318, R326). -/
def State.dmaFetch (s : State) (a n : Nat) : State × Got (List Byte) :=
  if !s.rangeAnswers a n then (s, .bus)
  else
    match s.readMem a n 1 with
    | (t, some l) => (t, .ok l)
    | (t, none) => (t, .ecc)

/-- The level L of a channel's stream; that of TYPE 4 is a word of the banks, read as any other (R330). -/
def State.dmaLevel (s : State) (x : DmaCh) : State × Got Nat :=
  match fld x.pace 0 3 with
  | 1 => (s, .ok x.fresh)
  | 2 => (s, .ok (fifoBytes (s.host (fld x.pace 4 12 == 1)).rx))
  | 3 => (s, .ok (16384 - fifoBytes (s.host (fld x.pace 4 12 == 1)).tx - (x.cur.map (·.acc.length)).getD 0))
  | 4 =>
    match s.dmaFetch x.lvlAddr 4 with
    | (t, .ok l) => (t, .ok (leAt l 0 4))
    | (t, .bus) => (t, .bus)
    | (t, .ecc) => (t, .ecc)
  | _ => (s, .ok 0)

/-- Whether a stream may start a burst of `n` bytes at level `l` (R330, R331): a reception covers every burst of a TYPE 1 copy, and the unit
of TYPE 4 is software's own. -/
def DmaCh.paceOk (x : DmaCh) (l n : Nat) : Bool :=
  let goes := if x.flowing then decide (fld x.lvl 16 16 < l) else decide (fld x.lvl 0 16 ≤ l)
  match fld x.pace 0 3 with
  | 0 => true
  | 1 => goes && decide (1 ≤ l)
  | 2 | 3 => goes && decide (1 ≤ l) && decide (n ≤ l)
  | _ => goes

/-- Read the pieces of a burst, each of them, in order; the first one that fails decides (R324, R326). -/
def readPieces (kind pat : Nat) : List Seg → State → State × Got (List (Nat × List Byte))
  | [], s => (s, .ok [])
  | g :: t, s =>
    let (u, r) := if kind = 1 then (s, .ok (fillBytes pat g.src g.len)) else s.dmaFetch g.src g.len
    let (v, q) := readPieces kind pat t u
    (v, match r, q with
      | .ok l, .ok m => .ok ((g.dst, l) :: m)
      | .ok _, e => e
      | .bus, _ => .bus
      | .ecc, _ => .ecc)

/-- Read the pieces of a burst, again up to `n` times after a bus error; with the retries made (R326). -/
def readTries (kind pat : Nat) (now : List Seg) : Nat → State → State × Got (List (Nat × List Byte)) × Nat
  | 0, s =>
    let (t, r) := readPieces kind pat now s
    (t, r, 0)
  | n + 1, s =>
    match readPieces kind pat now s with
    | (t, .bus) =>
      let (u, r, k) := readTries kind pat now n t
      (u, r, k + 1)
    | (t, r) => (t, r, 0)

/-- Write the pieces of a burst. -/
def writePieces : List (Nat × List Byte) → State → State × Bool
  | [], s => (s, true)
  | (a, l) :: t, s =>
    let (u, x) := s.writeMem a l
    let (v, y) := writePieces t u
    (v, x && y)

/-- Whether a range lies on another die than `d`, over a Neatline link. -/
def offDie (d a : Nat) : Bool := (sramDie a).any fun e => e != d

/-- The descriptor in hand is to be handed back with a status. -/
def State.dmaEnds (s : State) (d ch dstat : Nat) : State :=
  s.updCh d ch fun x => { x with cur := x.cur.map fun c => { c with dstat := dstat } }

/-- Count burst retries (R326). -/
def State.dmaRetried (s : State) (d ch n : Nat) : State := if n = 0 then s else s.count (dmaReg d ch 0x20) 16 16 n

/-- The segments to do when a burst begins: a TYPE 2 descriptor takes the oldest frame (R331). -/
def State.dmaTodo (s : State) (x : DmaCh) (c : DmaCur) : List Seg :=
  if fld x.pace 0 3 = 2 ∧ c.moved = 0 then [⟨0, c.dst, min c.len ((s.host (fld x.pace 4 12 == 1)).rx.headD []).length⟩] else c.todo

/-- The pieces of the next burst and what stays to do (R324). -/
def DmaCh.burst (x : DmaCh) (c : DmaCur) (todo : List Seg) : List Seg × List Seg :=
  if c.down then cutDown (32 * 2 ^ fld x.cfg 0 2) todo else cutUp (c.kind == 3) (32 * 2 ^ fld x.cfg 0 2) todo

/-- A burst's data have reached their place: MOVED goes up, and with the last burst the descriptor is done (R319, R331). A TYPE 1 copy
whose buffer has been written since its first burst is made again; a whole copy takes L to 0 and counts the rest as coalesced. -/
def State.dmaMoved (s : State) (d ch : Nat) (x : DmaCh) (c : DmaCur) (ps : List (Nat × List Byte)) (rest : List Seg) : State :=
  let typ := fld x.pace 0 3
  let flow := fld x.pace 4 12
  let port := flow == 1
  let h := s.host port
  let bytes := ps.flatMap Prod.snd
  let c := { c with moved := c.moved + bytes.length, acc := if typ = 3 then c.acc ++ bytes else [] }
  if !rest.isEmpty then s.setCh d ch { x with cur := some { c with todo := rest } }
  else if typ = 1 then
    if (s.flow flow).seq ≠ c.seq then s.setCh d ch { x with cur := some { c with todo := [⟨c.src, c.dst, c.len⟩], moved := 0 } }
    else (s.count (dmaReg d ch 0x1C) 16 16 (x.fresh - 1)).setCh d ch { x with fresh := 0, cur := some { c with todo := [], dstat := 1 } }
  else if typ = 2 then
    (s.setHost port { h with rx := h.rx.drop 1 }).setCh d ch
      { x with cur := some { c with todo := [], dstat := if c.len < (h.rx.headD []).length then 7 else 1 } }
  else
    (if typ = 3 then s.setHost port { h with tx := h.tx ++ [c.acc] } else s).setCh d ch { x with cur := some { c with todo := [], dstat := 1 } }

/-- The burst itself: its reads, with retries after bus errors, then its writes, with the retries left; `linkErrs` link errors hit it before
it would succeed, at the reads where a source lies across a link, else at the writes (R324, R326). An uncorrectable error of a
read is not retried, and comes before a refusal of the destination. -/
def State.dmaRun (s : State) (d ch linkErrs : Nat) (x : DmaCh) (c : DmaCur) (now rest : List Seg) : State :=
  let typ := fld x.pace 0 3
  let retry := fld x.cfg 4 3
  let frame := (s.host (fld x.pace 4 12 == 1)).rx.headD []
  let reads := c.kind != 1 && typ != 2
  let readLink := if reads && now.any fun g => offDie d g.src then linkErrs else 0
  let writeLink := if readLink = 0 ∧ typ ≠ 3 ∧ now.any (fun g => offDie d g.dst) then linkErrs else 0
  let s := s.setCh d ch x
  if retry < readLink then (s.dmaRetried d ch retry).dmaEnds d ch 2
  else
    let (s, got, k) := if typ = 2 then (s, Got.ok (now.map fun g => (g.dst, slice frame g.src g.len)), 0)
      else readTries c.kind c.src now (retry - readLink) s
    let s := s.dmaRetried d ch (readLink + k)
    match got with
    | .bus => s.dmaEnds d ch 2
    | .ecc => s.dmaEnds d ch 5
    | .ok ps =>
      let left := retry - readLink - k
      if typ ≠ 3 ∧ now.any (fun g => !s.rangeAnswers g.dst g.len) ∨ left < writeLink then (s.dmaRetried d ch left).dmaEnds d ch 2
      else
        let (s, ok) := if typ = 3 then (s, true) else writePieces ps s
        let s := s.dmaRetried d ch writeLink
        if ok then s.dmaMoved d ch x c ps rest else s.dmaEnds d ch 5

/-- The channel performs its next burst (R324–R326, R330, R331): it reads the level of a stream, and enters PACED where that does not allow
the burst. A level word that cannot be read ends the descriptor as a burst's read would. -/
def State.dmaBurst (s : State) (d ch linkErrs : Nat) : State :=
  let x := s.ch d ch
  match x.cur with
  | none => s
  | some c =>
    if c.dstat ≠ 0 ∨ s.holds (.dma d ch) ∨ !(x.st = .running ∨ x.st = .paced) then s
    else
      let todo := s.dmaTodo x c
      let (now, rest) := x.burst c todo
      match s.dmaLevel x with
      | (s, .bus) => (s.dmaRetried d ch (fld x.cfg 4 3)).dmaEnds d ch 2
      | (s, .ecc) => s.dmaEnds d ch 5
      | (s, .ok lv) =>
        let x := { x with level := min lv 65535 }
        if !x.paceOk lv (now.map (·.len)).sum then s.setCh d ch { x with st := .paced, flowing := false }
        else
          let c := { c with todo := todo, seq := if c.moved = 0 then (s.flow (fld x.pace 4 12)).seq else c.seq }
          s.dmaRun d ch linkErrs { x with st := .running, flowing := true, cur := some c } c now rest

/-- Write MOVED, DSTAT and OWN = 0 back as one ECC-word write (R321). -/
def State.dmaWriteBack (s : State) (x : DmaCh) (c : DmaCur) : State :=
  let a := x.ring * 256 + 32 * c.at_
  if !s.rangeAnswers a 32 then s
  else
    let l := s.bytes a 16 ++ toBytes 4 c.moved ++ s.bytes (a + 20) 8 ++ toBytes 4 (setFld (setFld c.w28 0 1 0) 8 8 c.dstat)
    (s.writeMem a l).1

/-- Hand the descriptor back (R321, R326, R327, R329, R332). -/
def State.dmaHandBack (s : State) (d ch : Nat) : State :=
  let x := s.ch d ch
  match x.cur with
  | none => s
  | some c =>
    if c.dstat = 0 ∨ s.holds (.dma d ch) then s
    else
      let err := c.dstat = 2 ∨ c.dstat = 5
      let s := s.dmaWriteBack x c
      let s := if c.dstat = 1 ∨ c.dstat = 7 then s.count (dmaReg d ch 0x20) 0 16 else s
      let s := s.setCh d ch { x with cur := none, lastDstat := c.dstat, idx := (c.at_ + 1) % 2 ^ x.log2 }
      let s := if c.evt then s.dmaFire d ch 1 c.at_ else s
      if err then s.dmaHalted d ch true c.at_
      else if x.st = .disabling then
        if x.pendEn && s.inService d then (s.updCh d ch fun y => { y with st := .running, pendEn := false }).dmaLook d ch
        else s.dmaHalted d ch false c.at_
      else if !s.inService d then s.dmaHalted d ch false c.at_
      else s.dmaLook d ch

/-- The WAIT poll period expires and the descriptor is read again (R327). -/
def State.dmaPoll (s : State) (d ch : Nat) : State :=
  if (s.ch d ch).st = .wait ∧ !s.holds (.dma d ch) then s.dmaLook d ch else s

end Sys2Proof.Machine
end

