-- ==== Sys2Proof/Machine/BusOps.lean ====
section
/-! DEFINITION. The bus as its frames see it: the phase of the schedule, link delays, forwarding, the checks on reception,
flow buffers, and sending (R256–R263, R268–R278, R290). -/

namespace Sys2Proof.Machine

/-- A register of VBA. -/
def vba (off : Nat) : Nat := rg 0 3 off

/-- A register of a channel's block, VBA or VBB. -/
def vbx (chB : Bool) (off : Nat) : Nat := rg 0 (if chB then 4 else 3) off

/-- Change the bus. -/
def State.updBus (s : State) (f : Bus → Bus) : State := { s with bus := f s.bus }

/-- Whether the bus blocks run: power is good and WRST_N is high (R257, R295). -/
def State.busUp (s : State) : Bool := !s.sys.porst && !s.sys.internal && !s.sys.wrst

/-! ### The schedule and its phase -/

/-- A mode header of the store. -/
def Bus.hdr (b : Bus) (m : Nat) : GMode := Table.get (fun _ => {}) b.store.hdr m

/-- The header of the mode in force. -/
def Bus.mode (b : Bus) : GMode := b.hdr b.gmode

/-- Whether an entry lies on a channel. -/
def GEntry.on (e : GEntry) (chB : Bool) : Bool := if chB then e.chB else e.chA

/-- The entries of a mode on a channel. -/
def Bus.entries (b : Bus) (m : Nat) (chB : Bool) : List GEntry := b.store.entries.filter fun e => bitN e.mask m && e.on chB

/-- The cycle of the schedule and the time since its datum in 2^-38 ns. After a re-placement of the datum the schedule runs
on the new phase at once, while the cycle in progress lasts until the next datum (R283, R286, R300). -/
def State.busPos (s : State) : Nat × Nat :=
  match s.mer.place with
  | none => (s.mer.cycle, s.mer.phase)
  | some (p, k) =>
    let t := s.bus.mode.cycle * unitNs
    let r := p - s.mer.phase
    let j := if t = 0 then 0 else ceilDiv r t
    (wrapN 48 ((k : Int) - j), j * t - r)

/-- The cycle of the schedule. -/
def State.busCycle (s : State) : Nat := s.busPos.1

/-- Meridian time of the schedule's last datum in 1/16 ns. -/
def State.datum16 (s : State) : Int :=
  (((s.mer.sec * 1000000000 * 16 + s.mer.sub / 2 ^ 34 : Nat)) : Int) - ((s.busPos.2 / 2 ^ 34 : Nat) : Int)

/-- Let Meridian run to `ns` after the schedule's datum, unless the next datum comes before; false if it does. -/
def State.busRunTo (s : State) (ns : Nat) : State × Bool :=
  let off := s.busPos.2
  let want := ns * unitNs
  if want ≤ off then (s, true)
  else if s.mer.target ≤ s.mer.phase + (want - off) then (s, false)
  else (s.advance (ceilDiv (want - off) s.mer.inc), true)

/-- A grant that the schedule holds in cycle `k` (R290). -/
def Grant.live (g : Grant) (k : Nat) : Bool := g.since.any (fun c => decide (c ≤ k)) && g.endAt.all fun c => decide (k < c)

/-- The entry as the schedule treats it: a granted spare is a data entry of its grantee (R290). The flow is none while the XN
does not know it. -/
def State.asGranted (s : State) (chB : Bool) (e : GEntry) : GEntry × Option Nat :=
  if e.kind = 3 then
    match s.bus.grants.find? fun g => g.slot == e.slotno && g.chB == chB && g.live s.busCycle with
    | some g => ({ e with kind := 0, sender := g.node }, g.flow)
    | none => (e, some e.flow)
  else (e, some e.flow)

/-- The schedule in force on a channel. -/
def State.schedule (s : State) (chB : Bool) : List (GEntry × Option Nat) :=
  (s.bus.entries s.bus.gmode chB).map (s.asGranted chB)

/-- A node's sync entry on a channel in a mode. -/
def Bus.syncEntry (b : Bus) (m : Nat) (chB : Bool) (node : Nat) : Option GEntry :=
  (b.entries m chB).find? fun e => e.kind == 1 && e.sender == node

/-- Whether the unit may neither lead nor send (R340). -/
def State.mute (s : State) : Bool := s.rdn.st == .standby || s.rdn.st == .isolated

/-! ### Ports -/

/-- The table key of a port. -/
def portKey (chB port : Bool) : Nat := 2 * b01 chB + b01 port

/-- A port. -/
def State.port (s : State) (chB port : Bool) : BusPort := Table.get (fun _ => {}) s.bus.ports (portKey chB port)

/-- Replace a port. -/
def State.setPort (s : State) (chB port : Bool) (p : BusPort) : State :=
  s.updBus fun b => { b with ports := Table.set (fun _ => {}) b.ports (portKey chB port) p }

/-- MODE of a port. -/
def State.portMode (s : State) (chB port : Bool) : Nat := s.rf (vbx chB (if port then 8 else 4)) 0 2

/-- The port's mean link delay in 1/16 ns: the mean of the last 16 values, 0 before the first (R277). -/
def BusPort.dlink (p : BusPort) : Int :=
  if p.delays.isEmpty then 0 else fixDiv (p.delays.foldl (· + ·) 0) (2 * p.delays.length)

/-- Whether the two ports of a channel forward to each other (R257). -/
def State.forwards (s : State) (chB : Bool) : Bool :=
  s.busUp && (s.port chB false).link && (s.port chB true).link && s.portMode chB false == s.portMode chB true

/-- PHYRX or PHYTX of a port in ns, which counts in SGMII mode alone (R302). -/
def State.phyNs (s : State) (chB port tx : Bool) : Nat :=
  if s.portMode chB port = 3 then s.rf (vbx chB (if port then 8 else 4)) (if tx then 16 else 8) 8 else 0

/-- rx of a reception in 1/16 ns: the time at which the frame crossed the medium boundary (R302). -/
def State.rxAt (s : State) (chB port : Bool) (rx : BusRx) : Int := (rx.rx16 : Int) - 16 * s.phyNs chB port false

/-- Put the bytes of a frame on the wire of a port. -/
def State.putWire (s : State) (chB port : Bool) (l : List Byte) (from_ : Nat) : State :=
  s.setPort chB port { s.port chB port with sent := l, busyTill := from_ + ceilDiv (wireTime l.length (s.portMode chB port)) 40 }

/-- Send a forwarded frame; a copy whose FCS is bad goes with an inverted FCS (R257, R262). -/
def State.forwardOut (s : State) (chB port : Bool) (l : List Byte) (res16 : Nat) (dlink : Int) : State :=
  let t := s.putWire chB port (forwardBytes l res16 dlink) s.mer.clocks
  if fcsOf (unFcs l) = l.drop (l.length - 4) then t else t.count (vbx chB 0x20) 16 16

/-! ### Events -/

/-- Fire a bus event: 1 STATE, 2 LEADER, 3 MODESW, 4 MODECAN, 5 CLAIM, 6 GLOAD (VBA_EVT). -/
def State.busEvent (s : State) (code mid low : Nat) : State :=
  s.fireMasked (vba 0x14C) code (code * 65536 + mid % 256 * 256 + low % 256)

/-! ### Flow buffers -/

/-- A fresh reception of a flow counts in the TYPE 1 streams of every die that it paces (R330). -/
def State.freshDma (s : State) (f : Nat) : State :=
  s.chList.foldl (fun s k =>
    let x := s.ch k.1 k.2
    if (x.st = .running ∨ x.st = .wait ∨ x.st = .paced ∨ x.st = .disabling) ∧ fld x.pace 0 3 = 1 ∧ fld x.pace 4 12 = f then
      s.setCh k.1 k.2 { x with fresh := min (x.fresh + 1) 255 }
    else s) s

/-- The status word of a receive buffer (R273). -/
def Flow.status (x : Flow) : List Byte :=
  toBytes 4 x.kfresh ++ toBytes 4 (x.rage + b01 x.chA * 256 + b01 x.chB * 512 + x.seq * 65536) ++ toBytes 4 x.tsNs ++
    toBytes 4 x.tsSec ++ List.replicate 16 0#8

/-- A safe flow also goes to both safety channels (R275). -/
def State.safeIn (s : State) (chB : Bool) (f : Nat) (l : List Byte) : State :=
  match (s.ctm.cell.map (·.conns)).getD [] |>.find? fun r => r.flow == f && !r.out with
  | some r => s.pduIn chB r l
  | none => s

/-- Store a kept record in its flow buffer (R272, R273, R275, R276). -/
def State.recordIn (s : State) (chB : Bool) (fr : BusFrame) (r : FlowRec) : State :=
  let g := s.gaz r.flow
  if !g.valid ∨ g.producer ≠ fr.sender ∨ !g.chan chB ∨ g.words ≠ r.words ∨ r.data.length ≠ r.words then s.count (vbx chB 0x18) 16 16
  else if !g.rx then s
  else
    let k := s.busCycle % 2 ^ 32
    let x := s.flow r.flow
    let first := !(x.got && x.kfresh == k)
    let take := first || !chB || !x.chA
    let y : Flow := { x with got := true, chA := (!first && x.chA) || !chB, chB := (!first && x.chB) || chB, seq := (x.seq + 2) % 65536 }
    let y : Flow := if take then { y with kfresh := k, arrNs := if first then s.phaseNs else x.arrNs, rage := r.age % 256, tsNs := fr.tsNs, tsSec := fr.tsSec % 2 ^ 32, data := r.data } else y
    let s := s.updBus fun b => { b with flows := Table.set (fun _ => {}) b.flows r.flow y }
    let bytes := r.data.flatMap fun w => toBytes 4 w.toNat
    let s := if hubRange g.buf (32 + 4 * g.words) then (s.writeMem g.buf (y.status ++ if take then bytes else [])).1 else s
    let s := if g.safe then s.safeIn chB r.flow bytes else s
    if first then
      let s := s.freshDma r.flow
      if g.evten then s.fireCoal g.evt (r.flow + b01 y.chA * 4096 + b01 y.chB * 8192 + k % 256 * 65536) else s
    else s

/-- Store the records of a kept DATA frame in order. -/
def State.recordsIn (s : State) (chB : Bool) (fr : BusFrame) : State := fr.recs.foldl (fun s r => s.recordIn chB fr r) s

/-! ### The checks of R269 and R270 -/

/-- tx − datum in 1/16 ns (R270). -/
def State.txOffset (s : State) (chB port : Bool) (rx : BusRx) : Int :=
  s.rxAt chB port rx - rx.frame.corr - (s.port chB port).dlink - s.datum16

/-- Whether a kind of entry allows a frame type (R266, R269). -/
def kindAllows (kind typ : Nat) : Bool :=
  match typ with
  | 1 => kind == 0
  | 2 | 3 => kind == 1
  | 4 => kind == 2
  | _ => kind == 4

/-- The entry that a received frame matches, by SENDER, SLOT, CH, FLOW and KIND (R269). -/
def State.matchEntry (s : State) (chB : Bool) (f : BusFrame) : Option GEntry :=
  if f.chB ≠ chB ∨ f.sender = 0 ∨ 250 < f.sender then none
  else
    ((s.schedule chB).find? fun e =>
      e.1.slotno == f.slot && kindAllows e.1.kind f.typ && (e.1.sender == 0 || e.1.sender == f.sender) &&
        (f.typ != 1 || e.2.all fun x => x == f.flow)).map (·.1)

/-- Result of the checks: kept with its entry, or the counter that counts the frame: offset and place. -/
inductive Kept where
  | ok (e : GEntry)
  | bad (off lo : Nat)
  deriving DecidableEq, Repr

/-- The checks of R269 against the Graticule in force, after FCS, VER and TYPE. A DLYRESP is sent at once and not at its
entry's START, so no window applies to it. -/
def State.checkFrame (s : State) (chB port : Bool) (rx : BusRx) : Kept :=
  let f := rx.frame
  if f.cycle.toNat ≠ s.busCycle % 2 ^ 32 then .bad 0x18 0
  else
    match s.matchEntry chB f with
    | none => .bad 0x18 0
    | some e =>
      let h := s.bus.mode
      if f.typ ≠ 6 ∧ h.prec + h.wadd < (s.txOffset chB port rx - 16 * e.start).natAbs / 16 +
          b01 (decide ((s.txOffset chB port rx - 16 * e.start).natAbs % 16 ≠ 0)) then .bad 0x14 0
      else .ok e

/-- What every reception begins with: FCS, VER and TYPE, and a body laid out as R261 and R263 say (R269); true when the frame goes
on. A frame of another EtherType is no Vistonik frame (R259, assumption log 134). -/
def State.frameStart (s : State) (chB port : Bool) (rx : BusRx) (typ : Nat) : State × Bool :=
  if !s.busUp || !(s.port chB port).link || !rx.vistonik then (s, false)
  else if !rx.fcsOk then (s.count (vbx chB 0x14) 16 16, false)
  else if rx.frame.ver ≠ 1 ∨ rx.frame.typ = 0 ∨ 6 < rx.frame.typ ∨ rx.fits = false then (s.count (vbx chB 0x18) 0 16, false)
  else (s, rx.frame.typ == typ)

/-- Count a frame in a channel's health (R353). -/
def State.rxCount (s : State) (chB : Bool) : State :=
  let bump (l : List Nat) : List Nat := match l with
    | [] => [1]
    | n :: t => min (n + 1) 65535 :: t
  if chB then { s with rdn := { s.rdn with rxB := bump s.rdn.rxB } } else { s with rdn := { s.rdn with rxA := bump s.rdn.rxA } }

/-! ### Sending -/

/-- The safe connection that the XN sends in a flow. -/
def State.outConn (s : State) (f : Nat) : Option ConnRec :=
  (s.ctm.cell.map (·.conns)).getD [] |>.find? fun r => r.flow == f && r.out

/-- The record of a transmit flow (R274), its buffer as it stands: none when the XN has none to send; the Bool says that a read met
an uncorrectable error. -/
def State.txRecord (s : State) (chB : Bool) (f : Nat) : State × Option FlowRec × Bool :=
  let g := s.gaz f
  if !g.valid || !g.tx || !g.chan chB then (s, none, false)
  else if g.safe then
    match s.outConn f with
    | some r =>
      let l := s.pduFor r chB
      (s, some { flow := f, words := l.length / 4, age := 0, data := wordsOfBytes (l.length / 4) l }, false)
    | none => (s, none, false)
  else if !hubRange g.buf (32 + 8 * g.words) then (s, none, false)
  else
    match s.readMem g.buf 8 1 with
    | (t, none) => (t, none, true)
    | (t, some st) =>
      match t.readMem (g.buf + 32 + 4 * g.words * fld (leAt st 4 4) 0 1) (4 * g.words) 1 with
      | (u, none) => (u, none, true)
      | (u, some l) =>
        (u, some { flow := f, words := g.words, age := min 255 (wrapN 32 ((s.busCycle : Int) - leAt st 0 4)), data := wordsOfBytes g.words l }, false)

/-- Whether the mode `m` of the store keeps R218 for the cell image in force. -/
def State.modeSafe (s : State) (m : Nat) : Bool := slotsOk s.bus.store m ((s.ctm.cell.map (·.conns)).getD [])

/-- Whether the XN sets ACK (R292). -/
def State.acks (s : State) : Bool :=
  match s.bus.req with
  | some r =>
    !s.bus.leader && r.cr.any (fun c => decide (c < s.busCycle)) && bitN s.bus.store.modes r.target &&
      (s.bus.hdr r.target).mcrc == r.tmcrc && s.modeSafe r.target
  | none => false

/-- The records of further flows of a bundle, in order, while 32 records and 1,468 bytes are not passed; a flow without a record to send
is left out (R37, R261). -/
def txBundle (chB : Bool) : List Nat → List FlowRec → State → State × List FlowRec × Bool
  | [], rs, s => (s, rs, false)
  | f :: fs, rs, s =>
    match s.txRecord chB f with
    | (t, _, true) => (t, rs, true)
    | (t, none, false) => txBundle chB fs rs t
    | (t, some r, false) => txBundle chB fs (if rs.length < 32 ∧ ((rs ++ [r]).flatMap recBytes).length ≤ 1468 then rs ++ [r] else rs) t

/-- The records of a data entry's frame, the entry's own flow first: none when it has none to send (R261, R274). -/
def State.txRecords (s : State) (chB : Bool) (f : Nat) (bundle : List Nat) : State × List FlowRec × Bool :=
  match s.txRecord chB f with
  | (t, none, b) => (t, [], b)
  | (t, some r, _) => txBundle chB bundle [r] t

/-- The records as the XN reads them 1 µs before the START of the slot, which has come: in the previous cycle where START is less than
1 µs (R274). What was written since then is taken back for the read. -/
def State.txRead (s : State) (chB : Bool) (start f : Nat) (bundle : List Nat) : State × List FlowRec × Bool :=
  let back := (s.busPos.2 + 1000 * unitNs - start * unitNs) / max s.mer.inc 1
  let (t, rs, bad) := (s.asAt (s.mer.clocks - back)).txRecords chB f bundle
  ({ t with mem := s.mem, ecc := s.ecc }, rs, bad)

/-- A frame of the XN, time-stamped `late` ns from now (R260, R262). -/
def State.mkFrame (s : State) (typ : Nat) (chB lead : Bool) (slot flow late : Nat) (recs : List FlowRec) (body : List Byte) : BusFrame :=
  let t := s.nowNs + late
  { typ := typ, sender := s.nodeId, gmode := s.bus.gmode, ack := s.acks, leader := lead, chB := chB, flow := flow, slot := slot,
    cycle := BitVec.ofNat 32 s.busCycle, tsNs := t % 1000000000, tsSec := t / 1000000000, recs := recs, body := body }

/-- Ports of a channel that have link. -/
def State.linkPorts (s : State) (chB : Bool) : List Bool := [false, true].filter fun p => (s.port chB p).link

/-- Time-stamp a frame that leaves a port `late` ns from now (R262, R302). -/
def State.stampOut (s : State) (chB port : Bool) (f : BusFrame) (late : Nat) : BusFrame :=
  let t := s.nowNs + late + s.phyNs chB port true
  { f with tsNs := t % 1000000000, tsSec := t / 1000000000 }

/-- How long after START the SFD leaves a port, in ns: as late as the XN or the present time is, and not before the frame on the wire has
ended (R257, R268). `gone` is the time since START. -/
def State.startsAt (s : State) (chB port : Bool) (by_ gone : Nat) : Nat :=
  max (max by_ gone) (gone + 4 * ((s.port chB port).busyTill - s.mer.clocks))

/-- Send a frame in a slot on one port: it must start by PREC and fit LEN, else it is counted in TXFIT (R268). -/
def State.slotOut (s : State) (chB : Bool) (f : BusFrame) (by_ gone len : Nat) (port : Bool) : State :=
  let x := s.startsAt chB port by_ gone
  if s.bus.mode.prec < x ∨ 10 * len < frameWire f (s.portMode chB port) then s.count (vbx chB 0x1C) 0 16
  else s.putWire chB port (wireBytes (s.stampOut chB port f (x - gone))) (s.mer.clocks + ceilDiv (x - gone) 4)

/-- A grant record of a leader SYNC (R263). -/
def grantWord (slot : Nat) (chB new : Bool) (node res : Nat) : Nat :=
  slot % 1024 + b01 chB * 1024 + b01 new * 2048 + node % 256 * 65536 + res % 8 * 2 ^ 24

/-- The body of a leader SYNC frame on a channel (R263, R290–R294). NGRANT counts at most 255 records, so the grants of the frame's own
channel, of which there are at most 255 (R341), come first, then the refusals, then the grants of the other channel (assumption
log 111). -/
def State.syncBody (s : State) (chB : Bool) : List Byte :=
  let k := s.busCycle
  let b := s.bus
  let q := b.req
  let flags := match q with
    | some r => b01 (!r.cancel) + b01 (r.swcyc.isSome && !r.cancel) * 2 + b01 r.cancel * 4 + r.target * 8
    | none => 0
  let listed (c : Bool) := (b.grants.filter fun g => g.endAt.isNone && g.chB == c).map fun g => grantWord g.slot g.chB (g.since == none || g.since == some (k + 2)) g.node 0
  let refused := (b.refusals.filter fun r => r.2.all (· == k)).map (·.1)
  let recs := (listed chB ++ refused ++ listed (!chB)).take 255
  toBytes 6 k ++ toBytes 1 b.gmode ++ toBytes 1 b.reqno ++ toBytes 4 flags ++ toBytes 4 ((q.bind (·.swcyc)).getD 0) ++
    toBytes 4 ((q.map (·.tmcrc)).getD 0) ++ toBytes 4 recs.length ++ recs.flatMap (toBytes 4)

end Sys2Proof.Machine
end

