-- ==== Sys2Proof/Machine/BusProto.lean ====
section
/-! DEFINITION. The bus protocol: states, cold start, integration, clock correction, grants, mode requests, and its work at a
datum (R277–R294, R298, R300). -/

namespace Sys2Proof.Machine

/-- A register of MER. -/
def merR (off : Nat) : Nat := rg 0 2 off

/-- Change Meridian. -/
def State.updMer (s : State) (f : Mer → Mer) : State := { s with mer := f s.mer }

/-- Own cold-start rank (R264, R282). -/
def State.ownRank (s : State) : Option Nat := s.rankOf s.nodeId

/-- BOOTMODE. -/
def State.bootMode (s : State) : Nat := s.rf (vba 0x100) 16 3

/-- A change of STATE with its event. -/
def State.setBusSt (s : State) (st : BusSt) : State :=
  if s.bus.st = st then s else (s.updBus fun b => { b with st := st }).busEvent 1 s.nodeId st.code

/-- Drop a mode request (R287, R291). -/
def Bus.dropReq (b : Bus) : Bus := { b with req := none, modeRes := if b.modeRes = 1 then 0 else b.modeRes }

/-- The role of leader and the leader followed, with the event of a change (R287). -/
def State.setLeader (s : State) (lead : Bool) (id : Nat) : State :=
  if s.bus.leader = lead ∧ s.bus.leaderId = id then s
  else (s.updBus fun b => { b.dropReq with leader := lead, leaderId := id, leadAt := if lead then s.busCycle else b.leadAt }).busEvent 2 id (b01 lead)

/-- Enter LISTEN with a REASON (R280, R281, R283, R285, R287, R294). -/
def State.busListen (s : State) (reason : Nat) : State :=
  let reason := if s.bus.afterWrst then 6 else reason
  let s := s.updBus fun b =>
    { b.dropReq with leader := false, leaderId := 0, follow := none, reason := reason, listenAt := s.mer.clocks, offs := [], clean := 0, noSync := 0, noLeader := 0, corrNew := none, grants := [], refusals := [], afterWrst := false }
  let s := if reason = 1 ∨ reason = 2 ∨ reason = 3 ∨ reason = 5 then s.log 0x0400 2 0 3 0 reason s.busCycle else s
  s.setBusSt .listen

/-- Log a step or re-placement of `o` in 1/16 ns: kind 1 a step, 2 a re-placement (R299, R300). -/
def State.logStep (s : State) (ns : Nat) (back : Bool) (kind : Nat) : State :=
  (s.setRf (merR 0x04) 2 1 1).log 0x0500 1 0 2 (min (ns / 1000000000) 0xFFFFFFFF) (ns % 1000000000 + b01 back * 2 ^ 31) kind

/-- Place the next datum: the phase of the new schedule is `v` (2^-38 ns) now, and the counter at its datum was `k` (R300). -/
def State.placeDatum (s : State) (v k T : Nat) : State :=
  let t := T * unitNs
  let j := ceilDiv (v + 50000 * unitNs) t
  s.updMer fun m => { m with place := some (m.phase + (j * t - v), (k + j) % 2 ^ 48) }

/-- Enter COLDSTART: the own sync entry starts now (R283, R300). -/
def State.coldStart (s : State) : State :=
  let m := s.bootMode
  let e := (s.bus.syncEntry m false s.nodeId).orElse fun _ => s.bus.syncEntry m true s.nodeId
  let T := (s.bus.hdr m).cycle
  match e with
  | none => s
  | some e =>
    if !bitN s.bus.store.modes m || T == 0 then s
    else
      let k := s.busCycle
      let s := s.updBus fun b => { b with gmode := m, csStart := k, offs := [], corrCyc := none, done := [], doneCyc := k }
      ((s.placeDatum (e.start * unitNs) k T).logStep 0 false 2).setBusSt .coldstart

/-! ### Integration -/

/-- Whether a COLDSTART or leader SYNC frame of a node is followed: the rank rule of R284, which binds in TAKEOVER and ACTIVE
alone (R357) and not a node that has stopped cold-starting (R285). -/
def State.follows (s : State) (node : Nat) : Bool :=
  match s.rankOf node with
  | none => false
  | some r =>
    let own := if s.mute || s.bus.csoff then none else s.ownRank
    match s.bus.st with
    | .listen => own.all fun x => decide (r < x)
    | .coldstart => own.all fun x => decide (r < x)
    | .integrate => !s.mute && (s.bus.follow.bind s.rankOf).any (fun x => decide (r < x)) && own.all fun x => decide (r < x)
    | _ => false

/-- Grant records of a leader SYNC body (R263). -/
def grantRecs (body : List Byte) : List Nat := (List.range (leAt body 20 1)).map fun i => leAt body (24 + 4 * i) 4

/-- Take over the leader's list of grants, kept in cycle `k` on a channel (R290). A grant that the list lacks ends, but for one of the
other channel where the list is full (assumption log 111). -/
def Bus.takeGrants (b : Bus) (chB : Bool) (k : Nat) (recs : List Nat) : Bus :=
  let listed := recs.filter fun r => fld r 24 3 == 0
  let same (g : Grant) (r : Nat) : Bool := g.slot == fld r 0 10 && g.chB == bitN r 10 && g.node == fld r 16 8 && g.endAt.isNone
  let fresh (r : Nat) : Grant :=
    { slot := fld r 0 10, chB := bitN r 10, node := fld r 16 8, flow := Table.get (fun _ => none) b.claims (2 * fld r 16 8 + fld r 10 1), since := some (if bitN r 11 then k + 2 else k) }
  let old := b.grants.map fun g => if g.endAt.isNone && !(listed.any (same g)) && (g.chB == chB || decide (recs.length < 255)) then { g with endAt := some (k + 2) } else g
  { b with grants := old ++ (listed.filter fun r => !(b.grants.any fun g => same g r)).map fresh }

/-- Integrate on a COLDSTART or leader SYNC frame (R284, R286, R300). `e` is the sender's sync entry in its GMODE. -/
def State.integrate (s : State) (chB port : Bool) (rx : BusRx) (e : GEntry) (m : Nat) : State :=
  let f := rx.frame
  let k := leAt f.body 0 6
  let dl := (s.port chB port).dlink
  let o : Int := s.rxAt chB port rx - ((f.tsSec * 1000000000 + f.tsNs) * 16 : Nat) - f.corr - dl
  let now : Nat := s.mer.sec * 1000000000 * unitNs + s.mer.sub
  let v : Nat := ((now : Int) - (s.rxAt chB port rx - f.corr - dl - 16 * e.start) * 2 ^ 34).toNat
  let t : Nat := ((now : Int) - o * 2 ^ 34).toNat
  let T := (s.bus.hdr m).cycle
  let s := s.updMer fun x => { x with sec := t / (1000000000 * unitNs) % 2 ^ 48, sub := t % (1000000000 * unitNs) }
  let s := s.updBus fun b =>
    { b.dropReq with gmode := m, follow := some f.sender, leader := false, leaderId := f.sender, intCycle := k, clean := 0, offs := [], corrCyc := none, corrNew := none, ownSync := false, leaderSync := false, anySync := false, noSync := 0, noLeader := 0, kept := [], grants := [], refusals := [] }
  let s := (s.placeDatum v k T).logStep (o.natAbs / 16) (decide (0 < o)) 2
  let s := if f.typ = 2 then s.updBus fun b => b.takeGrants chB k (grantRecs f.body) else s
  s.setBusSt .integrate

/-- A frame that a node may follow: integrate when its CH is its channel and the store has its mode and its sender's sync entry (R269,
R284, R286). -/
def State.tryIntegrate (s : State) (chB port : Bool) (rx : BusRx) : State :=
  let m := leAt rx.frame.body 6 1 % 8
  match if bitN s.bus.store.modes m && rx.frame.chB == chB then s.bus.syncEntry m chB rx.frame.sender else none with
  | some e => s.integrate chB port rx e m
  | none => s.count (vbx chB 0x18) 0 16

/-! ### Kept frames -/

/-- Become leader in ACTIVE after a successful round (R285). -/
def State.roundWon (s : State) : State :=
  ((s.updBus fun b => { b with csfails := 0, follow := none, noLeader := 0, noSync := 0 }).setLeader true s.nodeId).setBusSt .active

/-- All of the active set have acknowledged: SWITCH follows, with SWCYC two cycles on (R293). -/
def State.checkAcks (s : State) : State :=
  match s.bus.req with
  | some r =>
    if s.bus.leader && r.cr.isSome && r.swcyc.isNone && !r.cancel && r.active.all fun n => r.acked.contains n then
      s.updBus fun b => { b with req := some { r with swcyc := some (s.busCycle + 2) } }
    else s
  | none => s

/-- What every kept frame of another node brings: the channel's health, the active set, ACK, the grantee's sign of life and
the success of a round (R285, R290, R291, R293, R353). -/
def State.frameKept (s : State) (chB : Bool) (f : BusFrame) : State :=
  let s := s.rxCount chB
  let s := s.updBus fun b =>
    { b with kept := if b.kept.contains f.sender then b.kept else f.sender :: b.kept, grants := b.grants.map fun g => if g.slot == f.slot && g.chB == chB && g.node == f.sender then { g with heard := true } else g, req := b.req.map fun r => if f.ack && !r.acked.contains f.sender then { r with acked := f.sender :: r.acked } else r }
  let s := s.checkAcks
  if s.bus.st = .coldstart ∧ f.sender ≠ s.nodeId then s.roundWon else s

/-! ### Leader SYNC frames -/

/-- The mode request in a kept leader SYNC (R291–R294). -/
def State.requestIn (s : State) (f : BusFrame) : State :=
  let b0 := leAt f.body 8 1
  let k := s.busCycle
  let held := s.bus.req
  match held with
  | some r =>
    if bitN b0 2 then s.updBus fun b => b.dropReq
    else if bitN b0 1 then s.updBus fun b => { b with req := some { r with swcyc := some (wrapN 48 ((k : Int) + sxt 32 (wrapN 32 ((leAt f.body 12 4 : Int) - k)))) } }
    else if leAt f.body 6 1 % 8 = r.target then s.busListen 4
    else s
  | none =>
    if bitN b0 0 && !bitN b0 2 then
      let sw := if bitN b0 1 then some (wrapN 48 ((k : Int) + sxt 32 (wrapN 32 ((leAt f.body 12 4 : Int) - k)))) else none
      let r : ModeReq := { target := fld b0 3 3, reqno := leAt f.body 7 1, tmcrc := leAt f.body 16 4, cr := some k, swcyc := sw }
      s.updBus fun b => { b with req := some r }
    else s

/-- A kept leader SYNC frame (R281, R287, R290–R294). -/
def State.leaderSyncIn (s : State) (chB : Bool) (f : BusFrame) : State :=
  if s.bus.st = .active ∧ leAt f.body 0 6 ≠ s.busCycle then s.busListen 3
  else
    let lower := match s.rankOf f.sender, s.ownRank with
      | some r, some o => decide (r < o)
      | _, _ => false
    if s.bus.leader && !lower then s
    else
      let s := s.setLeader false f.sender
      let s := s.updBus fun b => { b with follow := some f.sender, leaderSync := true }
      (s.updBus fun b => b.takeGrants chB s.busCycle (grantRecs f.body)).requestIn f

/-- The offset of a kept sync frame (R278). -/
def State.syncOffset (s : State) (chB port : Bool) (rx : BusRx) : State :=
  let f := rx.frame
  let o : Int := s.rxAt chB port rx - ((f.tsSec * 1000000000 + f.tsNs) * 16 : Nat) - f.corr - (s.port chB port).dlink
  let x : SyncOff := Table.get (fun _ => {}) s.bus.offs f.sender
  s.updBus fun b => { b with offs := b.offs.put f.sender (if chB then { x with b := some o } else { x with a := some o }), anySync := b.anySync || f.sender != s.nodeId }

/-! ### Clock correction -/

/-- Insert into an ascending list. -/
def insertAsc (x : Int) : List Int → List Int
  | [] => [x]
  | y :: t => if x ≤ y then x :: y :: t else y :: insertAsc x t

/-- The node's offsets in 1/32 ns, ascending (R278, R279). -/
def State.sortedOffs (s : State) : List Int :=
  let own := if s.bus.ownSync then [(0 : Int)] else []
  let others := s.bus.offs.filterMap fun kv => match kv.2.a, kv.2.b with
    | some a, some b => some (a + b)
    | some a, none => some (2 * a)
    | none, some b => some (2 * b)
    | none, none => none
  (own ++ others).foldr insertAsc []

/-- Values discarded at each end (R279). -/
def trimK (n : Nat) : Nat := if n ≤ 2 then 0 else if n ≤ 6 then 1 else 2

/-- CORRLIM of the mode in force; 0 means PREC + WADD (R265). -/
def GMode.limit (h : GMode) : Nat := if h.corrlim = 0 then h.prec + h.wadd else h.corrlim

/-- Form the correction of the cycle; beyond CORRLIM the node leaves for LISTEN (R279, R280). -/
def State.clockCorrect (s : State) : State :=
  let vs := s.sortedOffs
  let n := vs.length
  let k := trimK n
  let h := s.bus.mode
  let s := s.updBus fun b => { b with corrCyc := some s.busCycle }
  if n = 0 ∨ h.cycle = 0 then s
  else
    let c := Int.tdiv (vs.getD k 0 + vs.getD (n - 1 - k) 0) 64
    let s := s.updBus fun b => { b with corr := c, nval := n, kval := k }
    if h.limit < c.natAbs then s.busListen 1
    else (s.updMer fun m => { m with rho := m.rho - fixDiv (c * 2 ^ 40 * 1000000000) (8 * h.cycle) }).updBus fun b => { b with corrNew := some c }

/-- The rate limit of ± 1,000 ppm (R296). -/
def rateLim : Int := 1099511628

/-- Meridian's source and rate for the cycle that begins (R280, R298). -/
def State.busRate (s : State) : State :=
  let on := s.bus.st != .off
  let stored := sxt 32 (s.rd (merR 0x24)).toNat
  let s := if on && !s.mer.bus then s.updMer fun m => { m with rho := stored * 1000000000 }
    else if !on && s.mer.bus then s.wr (merR 0x24) (BitVec.ofInt 32 (clampI (-rateLim) rateLim (fixDiv s.mer.rho 1000000000)))
    else s
  let T := s.bus.mode.cycle
  let r : Int :=
    if on then
      match s.bus.corrNew with
      | some c => if T = 0 then fixDiv s.mer.rho 1000000000 else fixDiv (s.mer.rho * T - c * 2 ^ 40 * 1000000000) (1000000000 * T)
      | none => fixDiv s.mer.rho 1000000000
    else sxt 32 (s.rd (merR 0x24)).toNat
  let a := clampI (-rateLim) rateLim r
  let s := if a = r then s else s.setRf (merR 0x04) 1 1 1
  (s.updMer fun m => { m with bus := on, rate := a }).updBus fun b => { b with corrNew := none }

/-- The cycle length for the cycle that begins (R297). -/
def State.cycleLenNow (s : State) : Nat :=
  let free := s.rf (merR 0x20) 0 22
  let m := match s.bus.st with
    | .off => none
    | .listen | .coldstart => some s.bootMode
    | _ => some s.bus.gmode
  match m with
  | none => free
  | some m => if bitN s.bus.store.modes m then (s.bus.hdr m).cycle else free

/-! ### Leaving states -/

/-- A failed round (R285). -/
def State.roundFailed (s : State) : State :=
  let n := min (s.bus.csfails + 1) 7
  let s := s.updBus fun b => { b with csfails := n, csoff := b.csoff || n == 7 }
  let s := if n = 7 then s.log 0x0401 4 0 3 0 n 0 else s
  s.busListen 5

/-- The present cycle is the sixth of a round, or a later one. -/
def State.roundOver (s : State) (k : Nat) : Bool := s.bus.st == .coldstart && decide (s.bus.csStart + 5 ≤ k)

/-- ACTIVE without the lead (R286). -/
def State.enterActive (s : State) : State := (s.updBus fun b => { b with csfails := 0, noSync := 0, noLeader := 0 }).setBusSt .active

/-- The node takes the leader role at datum `k` (R287). -/
def State.takeLead (s : State) (k : Nat) : State :=
  ((s.updBus fun b => { b with follow := none, noLeader := 0 }).setLeader true s.nodeId).updBus fun b => { b with leadAt := k }

/-- Whether the node is to take the lead, `n` cycles without a leader SYNC having passed by cycle `k` (R287, R340). -/
def State.leadDue (s : State) (n k : Nat) : Bool :=
  s.bus.st == .active && !s.bus.leader && s.ownRank.isSome && !s.mute && decide (8 ≤ n) && s.bus.lowerAt.all fun c => decide (c + 8 ≤ k)

/-! ### Grants and modes -/

/-- A grant ends by release in cycle `k`: it leaves the list at once and the schedule two cycles on (R290). -/
def Grant.release (g : Grant) (k : Nat) : Grant := if g.endAt.isNone then { g with endAt := some (k + 2) } else g

/-- Nodes of the active set that have not acknowledged. -/
def ModeReq.missing (r : ModeReq) : List Nat := r.active.filter fun n => !r.acked.contains n

/-- The leader cancels a mode request (R294). -/
def State.modeCancel (s : State) (r : ModeReq) : State :=
  let miss := r.missing
  let first := miss.foldl Nat.min 255
  let s := s.updBus fun b =>
    { b with req := some { r with cancel := true }, modeRes := 3, missing := min miss.length 255, firstMiss := if miss.isEmpty then 0 else first }
  (s.log 0x0402 2 0 3 r.target (min miss.length 255) (if miss.isEmpty then 0 else first)).busEvent 4 r.target 3

/-- Whether the leader is to cancel, `k` being the last cycle that has run (R294). -/
def State.cancelDue (s : State) (r : ModeReq) (k : Nat) : Bool :=
  s.bus.leader && r.swcyc.isNone && !r.cancel && r.cr.any fun c => decide (c + 3 ≤ k)

/-- The switch to TARGET at its datum (R293). -/
def State.modeSwitch (s : State) (r : ModeReq) (w : Nat) : State :=
  if !bitN s.bus.store.modes r.target then s.busListen 4
  else
    let s := s.updBus fun b =>
      { b with gmode := r.target, grants := [], refusals := [], req := none, swcyc := w % 2 ^ 32, modeRes := if b.leader then 2 else b.modeRes }
    (s.busEvent 3 r.target 2).updMer fun m => { m with cycleLen := (s.bus.hdr r.target).cycle }

/-- The mode requests at datum `k` (R293, R294). -/
def State.modesDatum (s : State) (k : Nat) : State :=
  match s.bus.req with
  | none => s
  | some r =>
    match r.swcyc with
    | some w => if w ≤ k then s.modeSwitch r w else s
    | none =>
      if r.cancel then if r.cr.any fun c => decide (c + 6 ≤ k) then s.updBus fun b => { b with req := none } else s
      else if s.cancelDue r (k - 1) then s.modeCancel r else s

/-- The grants at datum `k` (R290). -/
def State.grantsDatum (s : State) (k : Nat) : State :=
  let lim := s.rf (vba 0x138) 0 16
  let step (g : Grant) : Grant :=
    if !s.bus.leader || !g.live (k - 1) then { g with heard := false }
    else if g.heard then { g with heard := false, silent := 0 }
    else
      let g := { g with silent := min (g.silent + 1) 65535 }
      if lim ≤ g.silent then g.release (k - 1) else g
  s.updBus fun b => { b with grants := (b.grants.map step).filter fun g => g.endAt.all fun c => decide (k < c) }

/-! ### The datum -/

/-- The protocol state at datum `k` (R282, R285–R287). -/
def State.protoDatum (s : State) (k : Nat) : State :=
  match s.bus.st with
  | .coldstart => if s.roundOver (k - 1) then s.roundFailed else s
  | .integrate =>
    if k ≤ s.bus.intCycle + 1 then s
    else if !s.bus.leaderSync then s.busListen 2
    else if 1 ≤ s.bus.clean then s.enterActive
    else s.updBus fun b => { b with clean := 1 }
  | .active =>
    let s := s.updBus fun b =>
      { b with noSync := if b.anySync then 0 else min (b.noSync + 1) 7, noLeader := if b.leaderSync || b.leader then 0 else min (b.noLeader + 1) 15 }
    if !s.bus.leader ∧ 4 ≤ s.bus.noSync then s.busListen 2
    else if s.leadDue s.bus.noLeader k then s.takeLead k
    else s
  | _ => s

/-- The Gazetteer commits and the accepted schedule store take effect (R267, R271). -/
def State.busTables (s : State) : State :=
  s.updBus fun b =>
    { b with gaz := b.gazNext.foldl (fun t e => Table.set (fun _ => {}) t e.1 e.2) b.gaz, gazNext := [], store := b.storeNext.getD b.store, storeNext := none }

/-- The bus at the datum that opens cycle `s.mer.cycle`. -/
def State.busDatum (s : State) : State :=
  let k := s.mer.cycle
  let s := ((s.protoDatum k).grantsDatum k).modesDatum k
  let s := s.busTables
  let s := s.updBus fun b =>
    { b with keptPrev := b.kept, kept := [], offs := [], ownSync := false, leaderSync := false, anySync := false, refusals := b.refusals.filter fun r => r.2.all fun c => decide (k ≤ c) }
  let s := s.busRate
  s.updMer fun m => { m with cycleLen := s.cycleLenNow }

end Sys2Proof.Machine
end

