-- ==== Sys2Proof/Machine/BusImg.lean ====
section
/-! DEFINITION. The check of a Graticule image and the load of the schedule store (R264–R267). -/

namespace Sys2Proof.Machine

/-- A header of an image. -/
def readHdr (l : List Byte) (m : Nat) : GMode :=
  let o := 32 + 32 * m
  { cycle := leAt l o 4, guardBand := leAt l (o + 4) 2, prec := leAt l (o + 6) 2, wadd := leAt l (o + 8) 2, corrlim := leAt l (o + 10) 2, na := fld (leAt l (o + 12) 4) 0 11, nb := fld (leAt l (o + 12) 4) 16 11, mcrc := leAt l (o + 16) 4 }

/-- Whether a header keeps the ranges of R265, `used` telling whether the mode is present, and its zero fields are 0. -/
def hdrOk (l : List Byte) (m : Nat) (used : Bool) : Bool :=
  let o := 32 + 32 * m
  let h := readHdr l m
  let w := leAt l (o + 12) 4
  fld w 11 5 == 0 && fld w 27 5 == 0 && leAt l (o + 20) 12 == 0 &&
    (!used || (decide (62500 ≤ h.cycle) && decide (h.cycle ≤ 4000000) && h.cycle % 500 == 0 && decide (200 ≤ h.guardBand) &&
      decide (1 ≤ h.prec) && decide (h.prec ≤ 1000) && decide (h.wadd ≤ 10000)))

/-- An entry of an image from its 16 bytes. -/
def readEntry (l : List Byte) : GEntry :=
  let w0 := leAt l 0 4
  let w1 := leAt l 4 4
  let w2 := leAt l 8 4
  { start := fld w0 0 22, slotno := fld w0 22 10, len := fld w1 0 16, sender := fld w1 16 8, mask := fld w1 24 8, flow := fld w2 0 12, kind := fld w2 12 3, chA := bitN w2 16, chB := bitN w2 17 }

/-- Whether an entry keeps the ranges of R266 and its zero fields are 0. -/
def entryOk (l : List Byte) : Bool :=
  let e := readEntry l
  let w2 := leAt l 8 4
  decide (e.kind ≤ 4) && (if e.kind ≤ 1 then decide (1 ≤ e.sender) && decide (e.sender ≤ 250) else e.sender == 0) &&
    (e.kind == 0 || e.flow == 0) && fld w2 15 1 == 0 && fld w2 18 14 == 0 && leAt l 12 4 == 0

/-- Cut a byte string into entries of 16 bytes. -/
def cut16 : Nat → List Byte → List (List Byte)
  | 0, _ => []
  | n + 1, l => l.take 16 :: cut16 n (l.drop 16)

/-- Ascending START, ties by SLOTNO (R265). -/
def entryBefore (a b : List Byte) : Bool :=
  let x := readEntry a
  let y := readEntry b
  decide (x.start < y.start) || (x.start == y.start && decide (x.slotno ≤ y.slotno))

/-- Insert an entry into an ordered list. -/
def insertEntry (x : List Byte) : List (List Byte) → List (List Byte)
  | [] => [x]
  | y :: t => if entryBefore x y then x :: y :: t else y :: insertEntry x t

/-- Entries in order of START. -/
def sortEntries (l : List (List Byte)) : List (List Byte) := l.foldr insertEntry []

/-- MCRC of a mode (R265): header bytes 0–15, then its entries in order with byte 7 taken as 0. -/
def mcrcCheck (l : List Byte) (m : Nat) (es : List (List Byte)) : Nat :=
  let mine := sortEntries (es.filter fun e => bitN (readEntry e).mask m)
  crcOf ((l.drop (32 + 32 * m)).take 16 ++ mine.flatMap fun e => e.take 7 ++ [0#8] ++ e.drop 8)

/-- The first of the ordered entries that does not end, with the guard band, before the next begins or the cycle ends. -/
def firstOverlap (guardBand cycle : Nat) : List (Nat × GEntry) → Option Nat
  | [] => none
  | [(i, e)] => if e.start + e.len + guardBand ≤ cycle then none else some i
  | (i, e) :: (j, f) :: t => if e.start + e.len + guardBand ≤ f.start then firstOverlap guardBand cycle ((j, f) :: t) else some i

/-- Insert a numbered entry into an ordered list. -/
def insertNum (x : Nat × GEntry) : List (Nat × GEntry) → List (Nat × GEntry)
  | [] => [x]
  | y :: t =>
    if x.2.start < y.2.start ∨ (x.2.start = y.2.start ∧ x.2.slotno ≤ y.2.slotno) then x :: y :: t else y :: insertNum x t

/-- The first entry whose SLOTNO an earlier entry has. -/
def firstTwice : List Nat → List (Nat × GEntry) → Option Nat
  | _, [] => none
  | seen, (i, e) :: t => if seen.contains e.slotno then some i else firstTwice (e.slotno :: seen) t

/-- The OVERLAP checks of one mode on one channel (R267): none, or the index of the failing entry, 0 where it is no entry's. -/
def overlapAt (g : GStore) (m : Nat) (chB : Bool) : Option Nat :=
  let h := Table.get (fun _ => ({} : GMode)) g.hdr m
  let all := (List.range g.entries.length).zip g.entries
  let es := all.filter fun x => bitN x.2.mask m && x.2.on chB
  let kinds (k : Nat) : Nat := (es.filter fun x => x.2.kind == k).length
  if 1024 < es.length then some (es.getD 1024 (0, ⟨0, 0, 0, 0, 0, 0, 0, false, false⟩)).1
  else
    match firstTwice [] es with
    | some i => some i
    | none =>
      match firstOverlap h.guardBand h.cycle (es.foldr insertNum []) with
      | some i => some i
      | none =>
        let named := ((List.range 4).map fun k => fld g.csnodes (8 * k) 8).filter fun n => n != 0
        if kinds 2 = 1 ∧ kinds 4 = 1 ∧ 1 ≤ kinds 1 ∧ named.all (fun n => es.any fun x => x.2.kind == 1 && x.2.sender == n) then none
        else some 0

/-- The first failure of the OVERLAP checks over the modes present. -/
def firstFail (g : GStore) : Option Nat :=
  ((List.range 8).filter fun m => bitN g.modes m).findSome? fun m => (overlapAt g m false).orElse fun _ => overlapAt g m true

/-- The check of an image of which `l` holds LEN bytes (R267): result, failing entry and the store. -/
def State.checkGraticule (s : State) (l : List Byte) : Nat × Nat × GStore :=
  let w := leAt l 8 4
  let nent := fld w 0 12
  let modes := fld w 16 8
  let es := cut16 nent (l.drop 288)
  let present := (List.range 8).filter fun m => bitN modes m
  let csn := leAt l 16 4
  let g : GStore :=
    { modes := modes, csnodes := csn, hdr := present.map fun m => (m, readHdr l m), entries := es.map readEntry }
  let head := fld w 12 4 == 0 && fld w 24 8 == 0 && decide (nent ≤ 2048) && leAt l 20 12 == 0 &&
    ((List.range 4).all fun k => decide (fld csn (8 * k) 8 ≤ 250)) && (List.range 8).all fun m => hdrOk l m (bitN modes m)
  let count (m : Nat) (chB : Bool) : Nat := (g.entries.filter fun e => bitN e.mask m && e.on chB).length
  let b := s.bus
  if !head then (3, 0, g)
  else
    match (List.range nent).find? fun i => !entryOk (es.getD i []) with
    | some i => (3, i, g)
    | none =>
      if crcOf (l.take 12 ++ toBytes 4 0 ++ l.drop 16) ≠ leAt l 12 4 then (4, 0, g)
      else if !(present.all fun m => count m false == (readHdr l m).na && count m true == (readHdr l m).nb && mcrcCheck l m es == (readHdr l m).mcrc) then (4, 0, g)
      else
        match firstFail g with
        | some i => (5, i, g)
        | none =>
          if b.st ≠ .off ∧ !(bitN modes b.gmode && (readHdr l b.gmode).mcrc == s.mcrcOf b.gmode) then (6, 0, g)
          else if b.st ≠ .off ∧ b.req.isSome then (2, 0, g)
          else if !allSlotsOk g ((s.ctm.cell.map (·.conns)).getD []) then (7, 0, g)
          else (1, 0, g)

/-- Load the image at VBA_GADDR (R267). An image that reads with an uncorrectable error fails as CRC. -/
def State.loadGraticule (s : State) : State :=
  let a := (s.rd (vba 0x110)).toNat * 256
  let finish (t : State) (r i : Nat) : State := (t.updBus fun b => { b with gres := r, gentry := i }).busEvent 6 0 r
  if !hubRange a 288 then finish s 8 0
  else
    match s.readMem a 12 1 with
    | (t, none) => finish t 4 0
    | (t, some h) =>
      if leAt h 0 4 ≠ 0x41545247 ∨ leAt h 4 4 ≠ 288 + 16 * fld (leAt h 8 4) 0 12 then finish t 3 0
      else if !hubRange a (leAt h 4 4) then finish t 8 0
      else
        match t.readMem a (leAt h 4 4) 1 with
        | (u, none) => finish u 4 0
        | (u, some l) =>
          let (r, i, g) := u.checkGraticule l
          finish (if r = 1 then u.updBus fun b => { b with storeNext := some g } else u) r i

/-- GRATICULE_LOAD: VBA_GCTL.GO (R267). -/
def execGraticuleLoad (s : State) : Out := .next (if s.busUp then s.loadGraticule else s)

end Sys2Proof.Machine
end

