-- ==== Sys2Proof/Machine/BusCmd.lean ====
section
/-! DEFINITION. The commands of the Vistonik bus (chapter 10). -/

namespace Sys2Proof.Machine

/-! ### Ports and forwarding -/

/-- A write of VBx_PnCFG, which restarts the port's link (R256). -/
def State.portCfg (s : State) (chB port : Bool) (v : W32) : State :=
  let r := vbx chB (if port then 8 else 4)
  let t := s.wr r (plainWrite r (s.rd r) v)
  t.setPort chB port { t.port chB port with link := false }

/-- PORT_CFG_WRITE (R256). -/
def execPortCfgWrite (chB port : Bool) (v : W32) (s : State) : Out := .next (if s.busUp then s.portCfg chB port v else s)

/-- A bus port gains or loses link; in SGMII mode a speed other than 1000 Mbit/s is link down (R256). -/
def State.busLink (s : State) (chB port up speedOk : Bool) : State :=
  let m := s.portMode chB port
  s.setPort chB port { s.port chB port with link := s.busUp && up && m != 0 && (m != 3 || speedOk) }

/-- CUT_THROUGH_FORWARD: a frame that arrives on a port goes to the other, waits there while that port is sending, or is dropped
while a frame waits (R257, R262). -/
def execCutThroughForward (chB port : Bool) (rx : BusRx) (residence16 : Nat) (s : State) : Out :=
  .next (if !s.forwards chB || !rx.vistonik || rx.frame.typ == 5 || rx.frame.typ == 6 then s
    else
      let eg := s.port chB (!port)
      let dl := (s.port chB port).dlink
      if eg.held.isSome then s.count (vbx chB 0x20) 0 16
      else if s.mer.clocks < eg.busyTill then s.setPort chB (!port) { eg with held := some (rx.bytes, dl) }
      else s.forwardOut chB (!port) rx.bytes residence16 dl)

/-- HELD_FRAME_SEND: the held frame goes out when the frame on the wire has ended (R257). -/
def execHeldFrameSend (chB port : Bool) (residence16 : Nat) (s : State) : Out :=
  .next (match (s.port chB port).held with
    | none => s
    | some (l, dl) =>
      let n := (s.port chB port).busyTill - s.mer.clocks
      if !s.forwards chB ∨ (0 < n ∧ s.mer.target ≤ s.mer.phase + n * s.mer.inc) then s
      else
        let s := s.advance n
        (s.setPort chB port { s.port chB port with held := none }).forwardOut chB port l residence16 dl)

/-! ### Reception -/

/-- A state in which the node keeps frames against its schedule (R269, R282). -/
def BusSt.phased (b : BusSt) : Bool := b == .coldstart || b == .integrate || b == .active

/-- Whether the node takes part in the link window: it has a cycle phase, and after an integration from the cycle after it on (R277,
R286). -/
def State.linksNow (s : State) : Bool := s.bus.st.phased && !(s.bus.st == .integrate && s.bus.intCycle == s.busCycle)

/-- A COLDSTART or leader SYNC frame of a node that the unit may integrate on: a sender that is no cold-start node fails the checks, and
one of higher rank is ignored (R269, R284). -/
def State.heedLeader (s : State) (chB port : Bool) (rx : BusRx) : State :=
  if (s.rankOf rx.frame.sender).isNone then s.count (vbx chB 0x18) 0 16
  else if s.follows rx.frame.sender then s.tryIntegrate chB port rx
  else s

/-- DATA_RECEIVE (R269–R276). -/
def execDataReceive (chB port : Bool) (rx : BusRx) (s : State) : Out :=
  .next (let (s, go) := s.frameStart chB port rx 1
    if !go || !s.bus.st.phased then s
    else
      match s.checkFrame chB port rx with
      | .bad o lo => s.count (vbx chB o) lo 16
      | .ok _ => (s.recordsIn chB rx.frame).frameKept chB rx.frame)

/-- A SYNC frame that is not integrated upon: its checks, offset and contents (R278, R281, R287). -/
def State.syncKept (s : State) (chB port : Bool) (rx : BusRx) : State :=
  let f := rx.frame
  match s.checkFrame chB port rx with
  | .bad o lo => s.count (vbx chB o) lo 16
  | .ok _ =>
    let lower := match s.rankOf f.sender with
      | some r => s.ownRank.all fun o => decide (r < o)
      | none => false
    let s := s.syncOffset chB port rx
    let s := if lower then s.updBus fun b => { b with lowerAt := some s.busCycle } else s
    let s := s.frameKept chB f
    if f.leader then s.leaderSyncIn chB f else s

/-- SYNC_RECEIVE (R278, R284, R286, R287). -/
def execSyncReceive (chB port : Bool) (rx : BusRx) (s : State) : Out :=
  .next (let (s, go) := s.frameStart chB port rx 2
    let other := s.bus.follow != some rx.frame.sender
    if !go then s
    else
      match s.bus.st with
      | .off => s
      | .listen => if rx.frame.leader then s.heedLeader chB port rx else s
      | .coldstart => if rx.frame.leader then s.heedLeader chB port rx else s.syncKept chB port rx
      | .integrate => if rx.frame.leader && other then s.heedLeader chB port rx else s.syncKept chB port rx
      | .active => s.syncKept chB port rx)

/-- COLDSTART_RECEIVE (R284, R286). -/
def execColdstartReceive (chB port : Bool) (rx : BusRx) (s : State) : Out :=
  .next (let (s, go) := s.frameStart chB port rx 3
    if !go then s
    else
      match s.bus.st with
      | .off => s
      | .listen | .coldstart | .integrate =>
        if s.bus.follow != some rx.frame.sender then s.heedLeader chB port rx else s
      | .active =>
        match s.checkFrame chB port rx with
        | .bad o lo => s.count (vbx chB o) lo 16
        | .ok _ => s.frameKept chB rx.frame)

/-- Free spares of the mode in force on a channel. -/
def State.freeSpares (s : State) (chB : Bool) : List GEntry :=
  (s.bus.entries s.bus.gmode chB).filter fun e => e.kind == 3 && !(s.bus.grants.any fun g => g.slot == e.slotno && g.chB == chB)

/-- Whether a spare keeps R218 for a safe flow. -/
def State.spareSafe (s : State) (e : GEntry) (f : Nat) : Bool :=
  if (s.outConn f).isSome then decide (40000 ≤ e.start) else decide (e.start + e.len + 5000 ≤ s.bus.mode.cycle)

/-- The leader's answer to a claim: a grant, or the RESULT that refuses it (R289); NO_SPARE too when the channel has 255 grants (R341). -/
def State.claimAnswer (s : State) (f : BusFrame) : GEntry ⊕ Nat :=
  let w := leAt f.body 0 4
  let ch := bitN w 10
  let flows := (List.range (leAt f.body 4 1)).map fun i => leAt f.body (8 + 2 * i) 2 % 4096
  let fits := (s.freeSpares ch).filter fun e => decide (fld w 16 16 ≤ e.len) && (fld w 0 10 == 0x3FF || fld w 0 10 == e.slotno)
  let best := fits.foldl (fun (a : Option GEntry) e => if a.all (fun x => decide (e.slotno < x.slotno)) then some e else a) none
  if s.bus.req.isSome then .inr 5
  else if s.bus.grants.any fun g => g.node == f.sender && g.chB == ch && g.endAt.isNone then .inr 4
  else if !(flows.all fun x => (s.gaz x).valid && (s.gaz x).producer == f.sender && (s.gaz x).chan ch) then .inr 3
  else
    match if 255 ≤ (s.bus.grants.filter fun g => g.chB == ch && g.endAt.isNone).length then none else best with
    | none => .inr 1
    | some e => if !(flows.all fun x => !(s.gaz x).safe || s.spareSafe e x) then .inr 2 else .inl e

/-- CLAIM_RECEIVE (R289, R290). -/
def execClaimReceive (chB port : Bool) (rx : BusRx) (s : State) : Out :=
  .next (let (s, go) := s.frameStart chB port rx 4
    let f := rx.frame
    if !go || !s.bus.st.phased then s
    else
      match s.checkFrame chB port rx with
      | .bad o lo => s.count (vbx chB o) lo 16
      | .ok _ =>
        let w := leAt f.body 0 4
        let ch := bitN w 10
        let first := some (leAt f.body 8 2 % 4096)
        let s := s.frameKept chB f
        let s := s.updBus fun b => { b with claims := Table.set (fun _ => none) b.claims (2 * f.sender + b01 ch) first }
        if !s.bus.leader then s
        else
          let done (t : State) (r : Nat) : State := (t.updBus fun b => { b with lastNode := f.sender, lastRes := r }).busEvent 5 f.sender r
          match s.claimAnswer f with
          | .inl e => done (s.updBus fun b => { b with grants := b.grants ++ [{ slot := e.slotno, chB := ch, node := f.sender, flow := first }] }) 0
          | .inr r => done (s.updBus fun b => { b with refusals := b.refusals ++ [(grantWord (fld w 0 10) ch true f.sender r, none)] }) r)

/-! ### Link delay -/

/-- DLYREQ_RECEIVE: answered at once with a DLYRESP (R277). -/
def execDlyreqReceive (chB port : Bool) (rx : BusRx) (s : State) : Out :=
  .next (let (s, go) := s.frameStart chB port rx 5
    if !go || !s.bus.st.phased then s
    else
      match s.checkFrame chB port rx with
      | .bad o lo => s.count (vbx chB o) lo 16
      | .ok e =>
        let t2 := (s.rxAt chB port rx).toNat / 16
        let wait := (s.port chB port).busyTill - s.mer.clocks
        let body := toBytes 4 (t2 % 1000000000) ++ toBytes 6 (t2 / 1000000000) ++ toBytes 2 0 ++ toBytes 1 rx.frame.sender
        let f := s.mkFrame 6 chB s.bus.leader e.slotno 0 0 [] body
        if s.linksNow then s.putWire chB port (wireBytes (s.stampOut chB port f (4 * wait))) (s.mer.clocks + wait) else s)

/-- DLYRESP_RECEIVE: the link delay of the port (R277). -/
def execDlyrespReceive (chB port : Bool) (rx : BusRx) (s : State) : Out :=
  .next (let (s, go) := s.frameStart chB port rx 6
    let f := rx.frame
    if !go || !s.bus.st.phased then s
    else
      match s.checkFrame chB port rx with
      | .bad o lo => s.count (vbx chB o) lo 16
      | .ok _ =>
        let p := s.port chB port
        match p.t1 with
        | none => s
        | some t1 =>
          if leAt f.body 12 1 ≠ s.nodeId then s
          else
            let t2 := 16 * (leAt f.body 4 6 * 1000000000 + leAt f.body 0 4)
            let t3 := 16 * (f.tsSec * 1000000000 + f.tsNs)
            let d2 : Int := (s.rxAt chB port rx - t1) - ((t3 : Int) - t2)
            s.setPort chB port { p with t1 := none, delays := (d2 :: p.delays).take 16 })

/-- The slots of the present cycle in which the XN has acted. -/
def State.doneSlots (s : State) : List (Bool × Nat) := if s.bus.doneCyc = s.busCycle then s.bus.done else []

/-- Mark a slot of the present cycle. -/
def State.markSlot (s : State) (chB : Bool) (slot : Nat) : State :=
  s.updBus fun b => { b with doneCyc := s.busCycle, done := (chB, slot) :: s.doneSlots }

/-- Send a DLYREQ on each port of a list. -/
def sendDlyreq (chB : Bool) (slot : Nat) : List Bool → State → State
  | [], s => s
  | p :: t, s =>
    let wait := (s.port chB p).busyTill - s.mer.clocks
    let f := s.mkFrame 5 chB s.bus.leader slot 0 0 [] []
    let s' := s.putWire chB p (wireBytes (s.stampOut chB p f (4 * wait))) (s.mer.clocks + wait)
    let t1 := s.mer.sec * 16000000000 + s.mer.sub / 2 ^ 34 + 64 * wait + 16 * s.phyNs chB p true
    sendDlyreq chB slot t (s'.setPort chB p { s'.port chB p with t1 := some t1 })

/-- LINK_WINDOW: at the link window's START a DLYREQ goes out of each port with link (R277). -/
def execLinkWindow (chB : Bool) (s : State) : Out :=
  .next (match (s.bus.entries s.bus.gmode chB).find? fun e => e.kind == 4 with
    | none => s
    | some e =>
      if !s.busUp || !s.linksNow || s.doneSlots.contains (chB, e.slotno) then s
      else
        match s.busRunTo e.start with
        | (_, false) => s
        | (s, true) => sendDlyreq chB e.slotno (s.linkPorts chB) (s.markSlot chB e.slotno))

/-! ### Slots -/

/-- Whether the XN sends in an entry of its own now (R282, R340): SYNC frames with LEADER set and data entries only while it acts (R346), and
in TAKEOVER data entries only in a cycle at whose datum it led already (assumption log 135). -/
def State.maySend (s : State) (kind : Nat) : Bool :=
  match s.bus.st with
  | .coldstart => kind == 1 && (s.mayAct || s.busCycle == s.bus.csStart)
  | .active =>
    !s.mute && if kind == 1 then !s.bus.leader || s.mayAct
      else s.mayAct && (s.rdn.st == .active || s.bus.leader && s.bus.leadAt != s.busCycle)
  | _ => false

/-- Send a frame on every port with link; true if one of them took it. -/
def slotAll (chB : Bool) (f : BusFrame) (by_ gone len : Nat) : List Bool → State → State × Bool
  | [], s => (s, false)
  | p :: t, s =>
    let u := s.slotOut chB f by_ gone len p
    let sent := (u.port chB p).busyTill != (s.port chB p).busyTill
    let (v, x) := slotAll chB f by_ gone len t u
    (v, sent || x)

/-- The first frame of the leader's request, and the grants that this SYNC is the first to carry (R290, R291). -/
def State.syncBegin (s : State) : State :=
  let k := s.busCycle
  let s := s.updBus fun b =>
    { b with grants := b.grants.map (fun g => if g.since.isNone then { g with since := some (k + 2) } else g), refusals := b.refusals.map (fun r => if r.2.isNone then (r.1, some k) else r), req := b.req.map fun r => if r.cr.isNone then { r with cr := some k, active := b.keptPrev.filter fun n => n != s.nodeId } else r }
  s.checkAcks

/-- Send in a sync entry (R278, R283, R287). -/
def State.sendSync (s : State) (chB : Bool) (e : GEntry) (by_ gone : Nat) : State :=
  let cold := s.bus.st = .coldstart ∧ s.busCycle = s.bus.csStart
  let lead := s.bus.leader || (s.bus.st == .coldstart && !decide cold)
  let s := if lead then s.syncBegin else s
  let body := if cold then toBytes 6 s.busCycle ++ toBytes 1 s.bus.gmode else if lead then s.syncBody chB else []
  let f := s.mkFrame (if cold then 3 else 2) chB lead e.slotno 0 0 [] body
  let (s, sent) := slotAll chB f by_ gone e.len (s.linkPorts chB) s
  if sent && !decide cold then s.updBus fun b => { b with ownSync := true } else s

/-- Count the records sent with AGE 1 or more in TXCNT.AGED. -/
def State.countAged (s : State) (chB : Bool) (rs : List FlowRec) : State :=
  (rs.filter fun r => r.age != 0).foldl (fun s _ => s.count (vbx chB 0x1C) 16 16) s

/-- Send in a data entry (R268, R274). -/
def State.sendData (s : State) (chB : Bool) (e : GEntry) (x : SlotSend) (gone : Nat) : State :=
  match s.txRead chB e.start e.flow x.bundle with
  | (s, _, true) => s.count (vbx chB 0x1C) 0 16
  | (s, [], false) => s
  | (s, rs, false) =>
    let f := s.mkFrame 1 chB s.bus.leader e.slotno e.flow 0 rs []
    let (s, sent) := slotAll chB f x.by_ gone e.len (s.linkPorts chB) s
    if sent then s.countAged chB rs else s

/-- SLOT_TRANSMIT: the XN sends in one of its entries at its START, or as late after it as the command says or the present time is
(R268, R274, R282). -/
def execSlotTransmit (chB : Bool) (slot : Nat) (startsBy : SlotSend) (s : State) : Out :=
  .next (match (s.bus.entries s.bus.gmode chB).find? fun e => e.slotno == slot && e.sender == s.nodeId && decide (e.kind ≤ 1) with
    | none => s
    | some e =>
      if !s.busUp || !s.maySend e.kind || s.doneSlots.contains (chB, slot) then s
      else
        match s.busRunTo e.start with
        | (_, false) => s
        | (t, true) =>
          let gone := t.busPos.2 / unitNs - e.start
          let t := t.markSlot chB slot
          if e.kind = 1 then t.sendSync chB e startsBy.by_ gone else t.sendData chB e startsBy gone)

/-! ### The protocol's own steps -/

/-- The end of the last sync entry of the mode in force, ns after the datum. -/
def State.syncsEnd (s : State) : Nat :=
  ((s.bus.entries s.bus.gmode false ++ s.bus.entries s.bus.gmode true).filter fun e => e.kind == 1).foldl (fun a e => max a (e.start + e.len)) 0

/-- CLOCK_CORRECTION: once in a cycle, after its last sync entry (R279, R280). -/
def execClockCorrection (s : State) : Out :=
  .next (if !s.busUp || !s.bus.st.phased || s.bus.corrCyc == some s.busCycle then s
    else
      match s.busRunTo s.syncsEnd with
      | (_, false) => s
      | (t, true) => t.clockCorrect)

/-- Whether the listen time of a cold-start node has expired: 2 T + r × T ÷ 2 (R283). -/
def State.listenOver (s : State) : Bool :=
  match s.ownRank with
  | none => false
  | some r => decide ((4 + r) * (s.bus.hdr s.bootMode).cycle ≤ 8 * (s.mer.clocks - s.bus.listenAt))

/-- LISTEN_TIMEOUT (R283, R285, R340). -/
def execListenTimeout (s : State) : Out :=
  .next (if s.busUp && s.bus.st == .listen && !s.bus.csoff && !s.mute && s.listenOver then s.coldStart else s)

/-- ROUND_FAILED: the sixth cycle of the round ends without a frame from another node (R285). -/
def execRoundFailed (s : State) : Out := .next (if s.cycleOver && s.roundOver s.busCycle then s.roundFailed else s)

/-- INTEGRATE_DONE: the second clean cycle is complete; ACTIVE follows at the next datum (R286). -/
def execIntegrateDone (s : State) : Out :=
  .next (if s.bus.st == .integrate && s.bus.leaderSync && s.bus.corrCyc == some s.busCycle && s.bus.clean == 1 then
      s.updBus fun b => { b with clean := 2 }
    else s)

/-- LOSTSYNC: four cycles without a sync frame from another node, the present one being over (R287). -/
def execLostsync (s : State) : Out :=
  .next (if s.cycleOver && s.bus.st == .active && !s.bus.leader && !s.bus.anySync && decide (4 ≤ s.bus.noSync + 1) then s.busListen 2 else s)

/-- LEADER_TAKEOVER: eight cycles without a leader SYNC, the present one being over (R287). -/
def execLeaderTakeover (s : State) : Out :=
  .next (if s.cycleOver && !s.bus.leaderSync && s.leadDue (s.bus.noLeader + 1) (s.busCycle + 1) then s.takeLead (s.busCycle + 1) else s)

/-- GRANT_RELEASE: a grant whose slot stayed silent for VBA_RELCYC cycles, the present one being over, ends (R290). -/
def execGrantRelease (chB : Bool) (slot : Nat) (s : State) : Out :=
  .next (let k := s.busCycle
    let lim := s.rf (vba 0x138) 0 16
    s.updBus fun b => { b with grants := b.grants.map fun g => if s.cycleOver && b.leader && g.slot == slot && g.chB == chB && g.live k && !g.heard && decide (lim ≤ g.silent + 1) then g.release k else g })

/-- MODE_SWITCH: the datum of SWCYC has come for a request still pending (R293). -/
def execModeSwitch (s : State) : Out :=
  .next (match s.bus.req with
    | some r =>
      match r.swcyc with
      | some w => if w ≤ s.busCycle then s.modeSwitch r w else s
      | none => s
    | none => s)

/-- MODE_CANCEL: the active set has not acknowledged by the end of cycle c_r + 3 (R294). -/
def execModeCancel (s : State) : Out :=
  .next (match s.bus.req with
    | some r => if s.cycleOver && s.cancelDue r s.busCycle then s.modeCancel r else s
    | none => s)

/-! ### Commands of software -/

/-- EN of VBA_CTL (R282). -/
def State.busEn (s : State) (on : Bool) : State :=
  let s := s.setRf (vba 0x100) 0 1 (b01 on)
  if on ∧ s.bus.st = .off then s.busListen 0
  else if !on ∧ s.bus.st ≠ .off then
    (s.updBus fun b =>
      { b.dropReq with leader := false, leaderId := 0, follow := none, grants := [], refusals := [], offs := [], corrNew := none }).setBusSt .off
  else s

/-- BUS_ENABLE (R282). -/
def execBusEnable (on : Bool) (s : State) : Out := .next (if s.busUp then s.busEn on else s)

/-- START of VBA_CTL re-arms cold start (R285). -/
def State.busStart (s : State) : State := s.updBus fun b => { b with csfails := 0, csoff := false, listenAt := s.mer.clocks }

/-- VBA_START (R285). -/
def execVbaStart (s : State) : Out := .next (if s.busUp then s.busStart else s)

/-- A write of VBA_CTL: NODEID while EN is 0, BOOTMODE, START, EN (VBA_CTL). -/
def State.vbaCtl (s : State) (v : W32) : State :=
  let n := fld v.toNat 8 8
  let s := if !s.rb (vba 0x100) 0 ∧ 1 ≤ n ∧ n ≤ 250 then s.setRf (vba 0x100) 8 8 n else s
  let s := s.setRf (vba 0x100) 16 3 (fld v.toNat 16 3)
  let s := if v.getLsbD 1 then s.busStart else s
  s.busEn (v.getLsbD 0)

/-- Why a mode request is refused, 0 if it is not: in STANDBY and ISOLATED as not leader, whatever else holds (R340), else in the order of
R291. -/
def State.modeRefuse (s : State) (m : Nat) : Nat :=
  if s.mute then 5
  else if !bitN s.bus.store.modes m then 1
  else if m = s.bus.gmode then 2
  else if s.bus.req.isSome then 3
  else if !s.modeSafe m then 4
  else if !s.bus.leader then 5
  else 0

/-- A request for the mode TARGET (R291). -/
def State.modeReq (s : State) (m : Nat) : State :=
  let c := s.modeRefuse m
  if c ≠ 0 then s.updBus fun b => { b with modeRes := 4, modeRef := c }
  else
    let n := (s.bus.reqno + 1) % 256
    let r : ModeReq := { target := m, reqno := n, tmcrc := (s.bus.hdr m).mcrc }
    s.updBus fun b => { b with req := some r, reqno := n, modeRes := 1, modeRef := 0, missing := 0, firstMiss := 0 }

/-- MODE_REQUEST: a write of VBA_MODEREQ with GO (R291). -/
def execModeRequest (target : BitVec 3) (s : State) : Out :=
  .next (if s.busUp then (s.setRf (vba 0x124) 0 3 target.toNat).modeReq target.toNat else s)

/-- The leader releases a grant (R290). -/
def State.relGrant (s : State) (chB : Bool) (slot : Nat) : State :=
  let k := s.busCycle
  s.updBus fun b => { b with grants := b.grants.map fun g => if b.leader && g.slot == slot && g.chB == chB then g.release k else g }

/-- RELEASE: a write of VBA_RELEASE with GO on the leader (R290). -/
def execRelease (chB : Bool) (slot : BitVec 10) (s : State) : Out := .next (if s.busUp then s.relGrant chB slot.toNat else s)

/-- The staging word, without its reserved bits (R271). -/
def State.zw0 (s : State) (v : W32) : State := s.updBus fun b => { b with staging := v &&& 0x01FFFF7F#32 }

/-- ZW0_WRITE sets the staging word (R271). -/
def execZw0Write (v : W32) (s : State) : Out := .next (if s.busUp then s.zw0 v else s)

/-- Whether an entry is locked: VALID and SAFE in force, and its flow named by the cell image in force (R271). -/
def State.gazLocked (s : State) (f : Nat) : Bool :=
  (s.gaz f).valid && (s.gaz f).safe && ((s.ctm.cell.map (·.conns)).getD []).any fun r => r.flow == f

/-- Commit the staging word and word 1 to the entry of ZSEL (R271, R12). -/
def State.zw1 (s : State) (v : W32) : State :=
  let f := s.rf (vba 0x140) 0 12
  if s.gazLocked f then s.log 0x0020 2 0 3 (vba 0x148) v.toNat 0
  else if 366 < fld v.toNat 0 9 then s
  else s.updBus fun b => { b with gazNext := b.gazNext ++ [(f, { w0 := b.staging, w1 := v })] }

/-- ZW1_WRITE (R271). -/
def execZw1Write (_ : Master) (v : W32) (s : State) : Out := .next (if s.busUp then s.zw1 v else s)

end Sys2Proof.Machine
end

