-- ==== Sys2Proof/Machine/DmaCmd.lean ====
section
/-! DEFINITION. The commands and steps of the DMA channels and of the banks (chapter 12). -/

namespace Sys2Proof.Machine

/-! ### Commands and reads of a channel -/

/-- A write of DMA_CHn_CMD (R328). -/
def State.dmaByReg (s : State) (d ch code : Nat) : State :=
  if 16 ≤ ch ∨ !s.blockLive d then s
  else
    let (t, r) := s.dmaCommand d ch code 0
    t.updCh d ch fun x => { x with cmdSt := r }

/-- A command to a channel by either path (R69, R328). -/
def dmaCmd (src : EngSrc) (code : Nat) (s : State) : State :=
  match src with
  | .engw c rd ra rb => runInstr c (fun t => t.engw c 4 rd ra rb fun d u v w => w.dmaCommand d u code v.toNat) s
  | .reg d ch => s.dmaByReg d ch code

/-- START (R327, R328). -/
def execStart (src : EngSrc) (s : State) : Out := .next (dmaCmd src 1 s)

/-- HALT (R327, R328). -/
def execHalt (src : EngSrc) (s : State) : Out := .next (dmaCmd src 2 s)

/-- A read code of ENGR with eng = 4 (R328). -/
def State.dmaRead (s : State) (d ch code : Nat) : Option W64 :=
  match code with
  | 0 => some (BitVec.ofNat 64 (s.ch d ch).stat)
  | 1 => some ((s.rd (dmaReg d ch 0x20)).setWidth 64)
  | 2 => some (BitVec.ofNat 64 ((s.ch d ch).level + s.rf (dmaReg d ch 0x1C) 16 16 * 65536))
  | _ => none

/-- ENGR with eng = 4 (R72, R328). -/
def dmaEngr (c : CoreId) (rd rb : Reg) (code : Nat) (s : State) : State :=
  runInstr c (fun t => t.engr c 4 rd rb fun d u w => w.dmaRead d u code) s

/-- ENGR: DMA_CHn_STAT (R328). -/
def execDmaReadStat (c : CoreId) (rd rb : Reg) (s : State) : Out := .next (dmaEngr c rd rb 0 s)

/-- ENGR: DMA_CHn_CNT (R328). -/
def execDmaReadCnt (c : CoreId) (rd rb : Reg) (s : State) : Out := .next (dmaEngr c rd rb 1 s)

/-- ENGR: DMA_CHn_LEVEL (R328). -/
def execDmaReadLevel (c : CoreId) (rd rb : Reg) (s : State) : Out := .next (dmaEngr c rd rb 2 s)

/-- The bits of a DMA register that the channel keeps. -/
def State.dmaRegRead (s : State) (d off : Nat) : Nat :=
  if off = 0 then 16 + 256
  else if 0x100 ≤ off ∧ off < 0x500 then
    let x := s.ch d ((off - 0x100) / 0x40)
    match (off - 0x100) % 0x40 with
    | 0x18 => x.stat
    | 0x1C => x.level
    | 0x28 => x.cmdSt
    | _ => 0
  else 0

/-! ### Descriptors and bursts -/

/-- A channel of a live die takes a descriptor of the given KIND. -/
def State.dmaKind (s : State) (d ch kind : Nat) : State :=
  if s.blockLive d && decide (ch < 16) then s.dmaTake d ch kind else s

/-- LINEAR (R320). -/
def execLinear (die ch : Nat) (s : State) : Out := .next (s.dmaKind die ch 0)

/-- FILL (R320). -/
def execFill (die ch : Nat) (s : State) : Out := .next (s.dmaKind die ch 1)

/-- STRIDED (R320). -/
def execStrided (die ch : Nat) (s : State) : Out := .next (s.dmaKind die ch 2)

/-- GATHER (R320, R322). -/
def execGather (die ch : Nat) (s : State) : Out := .next (s.dmaKind die ch 3)

/-- SCATTER (R320, R322). -/
def execScatter (die ch : Nat) (s : State) : Out := .next (s.dmaKind die ch 4)

/-- BURST_COMPLETE (R324–R326, R330, R331): `linkErrs` link errors hit the burst. -/
def execBurstComplete (die ch linkErrs : Nat) (s : State) : Out :=
  .next (if s.blockLive die && decide (ch < 16) then s.dmaBurst die ch linkErrs else s)

/-- HAND_BACK (R321, R332). -/
def execHandBack (die ch : Nat) (s : State) : Out :=
  .next (if s.blockLive die && decide (ch < 16) then s.dmaHandBack die ch else s)

/-- POLL (R327). -/
def execPoll (die ch : Nat) (s : State) : Out :=
  .next (if s.blockLive die && decide (ch < 16) then s.dmaPoll die ch else s)

/-! ### Banks -/

/-- SCRUB_VISIT (R316). -/
def execScrubVisit (die bank : Nat) (s : State) : Out := .next (if !s.sys.porst && !s.sys.internal then s.scrubVisit die bank else s)

/-- MEM_RET_WRITE (R318). -/
def execMemRetWrite (die : Nat) (v : W32) (s : State) : Out :=
  .next (if s.blockLive die && s.dieFitted die then s.writeRet die v else s)

/-- BANK_WAKE (R318). -/
def execBankWake (die bank : Nat) (s : State) : Out :=
  .next (if s.blockLive die && s.dieFitted die && decide (bank < banksOf die) then s.wakeBank die bank else s)

/-- The bits of a MEM register that the banks keep (12 Registers); a read of MEM_ECCADDRL captures both words. -/
def State.memRegRead (s : State) (d off : Nat) : Nat :=
  let m := s.md d
  match off with
  | 0x00 => if d = 0 then 32 + 1024 * 256 + b01 m.initDone * 2 ^ 24 else 24 + 512 * 256 + b01 m.initDone * 2 ^ 24
  | 0x14 => m.eccAddr % 2 ^ 32
  | 0x18 => m.eccAddr / 2 ^ 32 + m.eccSrc * 256
  | 0x20 => m.retained.toNat
  | _ => 0

end Sys2Proof.Machine
end

