-- ==== Sys2Proof/Machine/MerCmd.lean ====
section
/-! DEFINITION. Meridian: steps, the binding of PTP time, and its share of a datum (R296–R301, R308, R309). -/

namespace Sys2Proof.Machine

/-- A signed number of ns from three staged words in the format of MER_STEP0–2 and MER_BIND0–2. -/
def signedNs (w0 w1 w2 : W32) : Int :=
  let n : Int := ((w2.toNat % 65536 * 2 ^ 32 + w1.toNat) * 1000000000 + w0.toNat : Nat)
  if w2.getLsbD 31 then -n else n

/-- A request for the staged step (R299); in BUS it is refused and logged (R298). -/
def State.stepRequest (s : State) : State :=
  if s.mer.bus then s.log 0x0021 2 0 2 (merR 0x3C) 1 0
  else s.updMer fun m => { m with stepPend := some (signedNs (s.rd (merR 0x30)) (s.rd (merR 0x34)) (s.rd (merR 0x38))) }

/-- Power is good, so that registers outside the warm-reset blocks answer. -/
def State.powered (s : State) : Bool := !s.sys.porst && !s.sys.internal

/-- STEP_REQUEST: MER_STEPCTL.GO (R299). -/
def execStepRequest (s : State) : Out := .next (if s.powered then s.stepRequest else s)

/-- A request for the staged binding (R309). -/
def State.bindRequest (s : State) : State :=
  s.updMer fun m => { m with bindPend := some (s.rd (merR 0x40), s.rd (merR 0x44), s.rd (merR 0x48), s.rd (merR 0x4C)) }

/-- BIND_REQUEST: MER_BINDCTL.GO (R309). -/
def execBindRequest (s : State) : Out := .next (if s.powered then s.bindRequest else s)

/-- The conversion of R308 of a Meridian time in 2^-16 ns, under the binding B0 (three words), BR and TB. -/
def ptpUnder (mt : Int) (b0 b1 b2 br : W32) (tb : Int) : Int :=
  mt + signedNs b0 b1 b2 * 65536 + sxt 32 br.toNat * (mt - tb) / 2 ^ 40

/-- A time of seconds and 2^-38 ns in 2^-16 ns. -/
def time16 (sec sub : Nat) : Int := (sec * 1000000000 * 65536 + sub / 2 ^ 22 : Nat)

/-- PTP time of a Meridian time, both in 2^-16 ns, under the binding in force at that time (R303, R308). -/
def State.ptp (s : State) (mt : Int) : Int :=
  let m := s.mer
  let tb := time16 m.tbSec m.tbSub
  let (b0, b1, b2, br, sec, sub) := m.bindOld
  if mt < tb then ptpUnder mt b0 b1 b2 br (time16 sec sub) else ptpUnder mt m.bind0 m.bind1 m.bind2 m.bindRate tb

/-- Split 2^-16 ns into whole seconds, nanoseconds and the fraction. -/
def split16 (t : Int) : Nat × Nat × Nat :=
  let n := t.toNat
  (n / 65536 / 1000000000 % 2 ^ 48, n / 65536 % 1000000000, n % 65536)

/-- Apply the pending step (R299). -/
def State.applyStep (s : State) : State :=
  match s.mer.stepPend with
  | none => s
  | some n =>
    let t : Int := (s.mer.sec * 1000000000 * unitNs + s.mer.sub : Nat) + n * unitNs
    let s := s.updMer fun m => { m with stepPend := none }
    if t < 0 then s
    else
      let lim := 1000000000 * unitNs
      (s.updMer fun m => { m with sec := t.toNat / lim % 2 ^ 48, sub := t.toNat % lim }).logStep n.natAbs (decide (n < 0)) 1

/-- Apply the pending binding; TB is the time of the datum (R309). -/
def State.applyBind (s : State) : State :=
  match s.mer.bindPend with
  | none => s
  | some (a, b, c, r) =>
    let t := s.mer.sec * 1000000000 * unitNs + s.mer.sub - s.mer.phase
    let lim := 1000000000 * unitNs
    s.updMer fun m => { m with
      bind0 := a, bind1 := b, bind2 := c, bindRate := r, bindPend := none, tbSec := t / lim, tbSub := t % lim,
      bindOld := (m.bind0, m.bind1, m.bind2, m.bindRate, m.tbSec, m.tbSub) }

/-- Meridian passes to the next datum: the clocks until it, the counter, the phase, the pending step and binding, and the plan
period (R297, R299, R300, R309, R35). -/
def State.merDatum (s : State) : State :=
  let tgt := s.mer.target
  let s := if s.mer.phase < tgt then s.advance (ceilDiv (tgt - s.mer.phase) s.mer.inc) else s
  let k := match s.mer.place with
    | some (_, k) => k
    | none => (s.mer.cycle + 1) % 2 ^ 48
  let s := s.updMer fun m => { m with cycle := k, phase := m.phase - tgt, place := none }
  let s := s.applyStep.applyBind
  let n := s.rf (merR 0x1C) 0 7
  if k % n = 0 then s.updMer fun m => { m with planN := n } else s

/-- Whether the datum that opened the present cycle is a plan datum (R35). -/
def State.planDatum (s : State) : Bool := s.mer.cycle % s.mer.planN == 0

end Sys2Proof.Machine
end

