-- ==== Sys2Proof/Machine/Fp.lean ====
section
/-! DEFINITION. IEEE 754 binary32 and binary64 as TRI computes them (R176–R178): exact dyadic values rounded to nearest, ties to
even, with subnormal binary32 inputs and results taken as zero. -/

namespace Sys2Proof.Machine

/-- A floating-point value: NaN, an infinity with its sign, or ± m × 2^e (a zero keeps its sign). An infinity that arises in
a computation is held as NaN, since either ends the item with NONFINITE (R176) and a NaN is never lost in a comparison. -/
inductive FV where
  | nan
  | inf (neg : Bool)
  | fin (neg : Bool) (m : Nat) (e : Int)
  deriving DecidableEq, Repr

/-- +0. -/
def fzero : FV := .fin false 0 0

/-- Finite. -/
def FV.isFin : FV → Bool
  | .fin _ _ _ => true
  | _ => false

/-- m × 2^k for k ≥ 0. -/
def shl (m : Nat) (k : Int) : Nat := m * 2 ^ k.toNat

/-- A right shift rounded to nearest, ties to even. -/
def shrEven (m : Nat) (k : Nat) : Nat :=
  let q := m / 2 ^ k
  let r := m % 2 ^ k
  if 2 * r > 2 ^ k ∨ (2 * r = 2 ^ k ∧ q % 2 = 1) then q + 1 else q

/-- Round an exact value to `p` significant bits with least exponent `emin` and magnitudes below 2^`top`; with `flush` a
subnormal result becomes zero (R176). -/
def roundTo (p : Nat) (emin top : Int) (flush : Bool) : FV → FV
  | .fin s m e =>
    if m = 0 then .fin s 0 0
    else
      let q := max (e + (Nat.log2 m + 1 : Nat) - p) emin
      let r := if q ≤ e then shl m (e - q) else shrEven m (q - e).toNat
      if r = 0 then .fin s 0 0
      else if q = emin ∧ r < 2 ^ (p - 1) ∧ flush then .fin s 0 0
      else if top < q ∨ 2 ^ (top - q).toNat ≤ r then .nan
      else .fin s r q
  | x => x

/-- Round to binary32 (R176). -/
def round32 : FV → FV := roundTo 24 (-149) 128 true

/-- Round to binary64 (R177). -/
def round64 : FV → FV := roundTo 53 (-1074) 1024 false

/-- The value of a binary32 word; a subnormal reads as zero of its sign (R176). -/
def ofBits32 (w : Nat) : FV :=
  let s := bitN w 31
  let x := fld w 23 8
  let f := fld w 0 23
  if x = 255 then (if f = 0 then .inf s else .nan)
  else if x = 0 then .fin s 0 0
  else .fin s (2 ^ 23 + f) ((x : Int) - 150)

/-- The binary32 word of a rounded value. -/
def toBits32 : FV → Nat
  | .nan => 0x7FC00000
  | .inf s => b01 s * 2 ^ 31 + 0x7F800000
  | .fin s m e =>
    if m = 0 then b01 s * 2 ^ 31
    else
      let l := Nat.log2 m
      let x := e + l + 127
      let f := if l ≤ 23 then m * 2 ^ (23 - l) else m / 2 ^ (l - 23)
      b01 s * 2 ^ 31 + x.toNat * 2 ^ 23 + f % 2 ^ 23

/-- The opposite. -/
def FV.neg : FV → FV
  | .nan => .nan
  | .inf s => .inf !s
  | .fin s m e => .fin (!s) m e

/-- The magnitude. -/
def FV.abs : FV → FV
  | .nan => .nan
  | .inf _ => .inf false
  | .fin _ m e => .fin false m e

/-- The exact product. -/
def mulX : FV → FV → FV
  | .nan, _ | _, .nan => .nan
  | .inf s, .inf t => .inf (s != t)
  | .inf s, .fin t m _ => if m = 0 then .nan else .inf (s != t)
  | .fin s m _, .inf t => if m = 0 then .nan else .inf (s != t)
  | .fin s m e, .fin t n f => .fin (s != t) (m * n) (e + f)

/-- The exact sum; an exact zero is −0 only if both terms are negative. -/
def addX : FV → FV → FV
  | .nan, _ | _, .nan => .nan
  | .inf s, .inf t => if s = t then .inf s else .nan
  | .inf s, _ => .inf s
  | _, .inf t => .inf t
  | .fin s m e, .fin t n f =>
    let q := min e f
    let a : Int := if s then -(shl m (e - q) : Int) else shl m (e - q)
    let b : Int := if t then -(shl n (f - q) : Int) else shl n (f - q)
    if a + b = 0 then .fin (s && t) 0 0 else .fin (decide (a + b < 0)) (a + b).natAbs q

/-- Compare: a < b, false with a NaN. -/
def fltb (a b : FV) : Bool :=
  match addX a b.neg with
  | .fin s m _ => s && m != 0
  | .inf s => s
  | .nan => false

/-- a ≤ b, false with a NaN. -/
def fleb (a b : FV) : Bool :=
  match a, b with
  | .nan, _ | _, .nan => false
  | _, _ => !fltb b a

/-- Sum rounded to binary32. -/
def fadd (a b : FV) : FV := round32 (addX a b)

/-- Difference rounded to binary32. -/
def fsub (a b : FV) : FV := round32 (addX a b.neg)

/-- Product rounded to binary32. -/
def fmul (a b : FV) : FV := round32 (mulX a b)

/-- Fused multiply-add rounded to binary32: a × b + c. -/
def ffma (a b c : FV) : FV := round32 (addX (mulX a b) c)

/-- Quotient correctly rounded to binary32 (R178). -/
def fdiv : FV → FV → FV
  | .nan, _ | _, .nan => .nan
  | .inf _, .inf _ => .nan
  | .inf s, .fin t _ _ => .inf (s != t)
  | .fin s _ _, .inf t => .fin (s != t) 0 0
  | .fin s m e, .fin t n f =>
    if n = 0 then .nan
    else
      let k := 30 + Nat.log2 n
      let q := m * 2 ^ k / n
      let odd := b01 (m * 2 ^ k % n != 0)
      round32 (.fin (s != t) (2 * q + odd) (e - f - (k : Int) - 1))

/-- Square root correctly rounded to binary32 (R178). -/
def fsqrt : FV → FV
  | .nan => .nan
  | .inf s => if s then .nan else .inf false
  | .fin s m e =>
    if m = 0 then .fin s 0 0
    else if s then .nan
    else
      let d := (e % 2).toNat
      let n := m * 2 ^ d * 2 ^ 60
      let r := isqrt n
      round32 (.fin false (2 * r + b01 (r * r != n)) ((e - d) / 2 - 31))

/-- Reciprocal square root correctly rounded to binary32 (R178). -/
def frsqrt : FV → FV
  | .nan => .nan
  | .inf s => if s then .nan else fzero
  | .fin s m e =>
    if m = 0 then .nan
    else if s then .nan
    else
      let d := (e % 2).toNat
      let n := m * 2 ^ d
      let k := 30 + Nat.log2 n
      let r := isqrt (2 ^ (2 * k) / n)
      round32 (.fin false (2 * r + b01 (r * r * n != 2 ^ (2 * k))) (-((e - d) / 2) - (k : Int) - 1))

/-- Round the sums of acc: binary32, or binary64 with ACC64 (R177). -/
def raccum (acc64 : Bool) : FV → FV := if acc64 then round64 else round32


/-- The sum of one lane over the products that fall to it, in order (R177). -/
def laneSum (acc64 : Bool) (lane : Nat) : Nat → List (FV × FV) → FV → FV
  | _, [], s => s
  | p, (u, v) :: t, s =>
    laneSum acc64 lane (p + 1) t (if p % 16 = lane then raccum acc64 (addX (mulX u v) s) else s)

/-- The fixed pairwise tree over a list of lanes: neighbours are added, level by level (R177). -/
def pairUp (acc64 : Bool) : List FV → List FV
  | a :: b :: t => raccum acc64 (addX a b) :: pairUp acc64 t
  | l => l

/-- acc(c, u, v, K) over the listed products (R177). -/
def facc (acc64 : Bool) (c : FV) (ps : List (FV × FV)) : FV :=
  let s := (List.range 16).map fun i => laneSum acc64 i 0 ps fzero
  let t := (pairUp acc64 (pairUp acc64 (pairUp acc64 (pairUp acc64 s)))).headD fzero
  round32 (addX c t)

/-- The larger of two values. -/
def fmax (a b : FV) : FV := if fltb a b then b else a

/-- max(d, 0) as R179 and R185 use it. -/
def fmax0 (a : FV) : FV := if fltb a fzero then fzero else a

/-- clamp(x, l, u) of R185. -/
def fclamp (x l u : FV) : FV := if fltb x l then l else if fltb u x then u else x

end Sys2Proof.Machine
end

