-- ==== Sys2Proof/Machine/Tri.lean ====
section
/-! DEFINITION. The kernels of TRI as functions of operand values (R177–R185). Matrices are lists of rows or columns as each
kernel builds them; pivots that were regularised are listed by index, in order. -/

namespace Sys2Proof.Machine

/-- What a factorisation or solve works under: ACC64 and the small-pivot threshold h (R177, R178). -/
structure TriEnv where
  acc64 : Bool
  h : FV

/-- An operand matrix as a function of row and column. -/
abbrev FMat := Nat → Nat → FV

/-- An element of a list of values. -/
def fat (l : List FV) (i : Nat) : FV := l.getD i fzero

/-- A matrix from its rows. -/
def ofRows (l : List (List FV)) : FMat := fun i j => fat (l.getD i []) j

/-- A matrix from its columns. -/
def ofCols (l : List (List FV)) : FMat := fun i j => fat (l.getD j []) i

/-- acc over products of a negated list with another. -/
def accNeg (e : TriEnv) (c : FV) (u v : List FV) : FV := facc e.acc64 c ((u.map FV.neg).zip v)

/-- Change each element by its index. -/
def mapIx {α β : Type} (f : Nat → α → β) (l : List α) : List β := ((List.range l.length).zip l).map fun x => f x.1 x.2

/-- A factor as a kernel leaves it: the matrix in the F layout of UPLO = 0, the pivot rows of LU, the scalars of QR, the
regularised pivots, NEGPIVOT, and whether a NaN arose outside the results. -/
structure Factor where
  m : FMat
  piv : List Nat := []
  taus : List FV := []
  regs : List Nat := []
  neg : Bool := false
  bad : Bool := false

/-- One column of CHOL: the rows of L so far (R179). -/
def cholCol (e : TriEnv) (a : FMat) (st : List (List FV) × List Nat × Bool × Bool) (j : Nat) :
    List (List FV) × List Nat × Bool × Bool :=
  let (rows, regs, neg, bad) := st
  let lj := rows.getD j []
  let d := accNeg e (a j j) lj lj
  let small := fltb d e.h
  let d' := if small then fadd (fmax0 d) e.h else d
  let r := frsqrt d'
  let next := mapIx (fun i row => if i = j then row ++ [fsqrt d'] else if j < i then row ++ [fmul (accNeg e (a i j) row lj) r] else row) rows
  (next, if small then regs ++ [j] else regs, neg || (small && fltb d fzero), bad || !r.isFin)

/-- CHOL (R179). -/
def triChol (e : TriEnv) (a : FMat) (n : Nat) : Factor :=
  let (rows, regs, neg, bad) := (List.range n).foldl (cholCol e a) (List.replicate n [], [], false, false)
  { m := fun i j => if i < j then fzero else ofRows rows i j, regs := regs, neg := neg, bad := bad }

/-- One column of LDLT: the rows of L below the diagonal and D so far (R180). -/
def ldltCol (e : TriEnv) (a : FMat) (st : List (List FV) × List FV × List Nat) (j : Nat) : List (List FV) × List FV × List Nat :=
  let (rows, ds, regs) := st
  let lj := rows.getD j []
  let w := (lj.zip ds).map fun x => fmul x.1 x.2
  let d := accNeg e (a j j) lj w
  let small := fltb d.abs e.h
  let d' := if small then (if fltb d fzero then fsub d e.h else fadd d e.h) else d
  (mapIx (fun i row => if j < i then row ++ [fdiv (accNeg e (a i j) row w) d'] else row) rows, ds ++ [d'],
    if small then regs ++ [j] else regs)

/-- LDLT (R180): D on the diagonal. -/
def triLdlt (e : TriEnv) (a : FMat) (n : Nat) : Factor :=
  let (rows, ds, regs) := (List.range n).foldl (ldltCol e a) (List.replicate n [], [], [])
  { m := fun i j => if i < j then fzero else if i = j then fat ds i else ofRows rows i j, regs := regs }

/-- The lowest index from `i` on with the largest magnitude, `best` being the present choice (R181). -/
def argMax (best : Nat) (bv : FV) : Nat → List FV → Nat
  | _, [] => best
  | i, x :: t => if fltb bv x.abs then argMax i x.abs (i + 1) t else argMax best bv (i + 1) t

/-- Swap two places of a list. -/
def swapAt {α : Type} (l : List α) (p j : Nat) : List α :=
  match l[p]?, l[j]? with
  | some x, some y => (l.set p y).set j x
  | _, _ => l

/-- One column of LU: the rows of `a` and of L in their present order, the columns of U, the pivots (R181). -/
def luCol (e : TriEnv) (st : List (List FV) × List (List FV) × List (List FV) × List Nat × List Nat) (j : Nat) :
    List (List FV) × List (List FV) × List (List FV) × List Nat × List Nat :=
  let (a, ls, us, piv, regs) := st
  let c := (a.zip ls).foldl (fun c r => c ++ [accNeg e (fat r.1 j) r.2 c]) []
  let p := argMax j (fat c j).abs (j + 1) (c.drop (j + 1))
  let a := swapAt a p j
  let ls := swapAt ls p j
  let c := swapAt c p j
  let u := fat c j
  let small := fltb u.abs e.h
  let u' := if small then (if fltb u fzero then e.h.neg else e.h) else u
  (a, mapIx (fun i row => if j < i then row ++ [fdiv (fat c i) u'] else row) ls, us ++ [c.take j ++ [u']], piv ++ [p],
    if small then regs ++ [j] else regs)

/-- LU (R181): unit L strictly below, U on and above the diagonal. -/
def triLu (e : TriEnv) (a : FMat) (n : Nat) : Factor :=
  let rows := (List.range n).map fun i => (List.range n).map (a i)
  let (_, ls, us, piv, regs) := (List.range n).foldl (luCol e) (rows, List.replicate n [], [], [], [])
  { m := fun i j => if j < i then ofRows ls i j else ofCols us i j, piv := piv, regs := regs }

/-- The column update of R182 by a vector `v` (below place j, v[j] = 1 implied) and its scalar. -/
def houseUpdate (e : TriEnv) (j : Nat) (v : List FV) (tau : FV) (x : List FV) : List FV :=
  let low := x.drop (j + 1)
  let w := facc e.acc64 (fat x j) (v.zip low)
  let t := fmul tau w
  x.take j ++ [fsub (fat x j) t] ++ (v.zip low).map fun p => ffma t.neg p.1 p.2

/-- One column of QR: the columns of the working matrix and the scalars so far (R182). -/
def qrCol (e : TriEnv) (st : List (List FV) × List FV) (j : Nat) : List (List FV) × List FV :=
  let (cols, taus) := st
  let x := cols.getD j []
  let xj := fat x j
  let low := x.drop (j + 1)
  let s := facc e.acc64 fzero (low.zip low)
  let zero := match s with
    | .fin _ m _ => m == 0
    | _ => false
  let root := fsqrt (facc e.acc64 s [(xj, xj)])
  let beta := if fltb xj fzero then root else root.neg
  let tau := if zero then fzero else fdiv (fsub beta xj) beta
  let v := if zero then low.map fun _ => fzero else low.map fun y => fdiv y (fsub xj beta)
  let done := x.take j ++ [if zero then xj else beta] ++ v
  (mapIx (fun c y => if c = j then done else if j < c then houseUpdate e j v tau y else y) cols, taus ++ [tau])

/-- QR (R182): R on and above the diagonal, the vectors below it. -/
def triQr (e : TriEnv) (a : FMat) (n : Nat) : Factor :=
  let cols := (List.range n).map fun j => (List.range n).map fun i => a i j
  let (cols, taus) := (List.range n).foldl (qrCol e) (cols, [])
  { m := ofCols cols, taus := taus }

/-! ### Substitution (R183) -/

/-- Forward substitution; no diagonal means a unit one. -/
def forwardSub (e : TriEnv) (g : FMat) (n : Nat) (diag : Option (List FV)) (b : List FV) : List FV :=
  (List.range n).foldl (fun x i =>
    let s := accNeg e (fat b i) ((List.range i).map (g i)) x
    x ++ [match diag with
      | some d => fdiv s (fat d i)
      | none => s]) []

/-- Backward substitution, sums in ascending k. -/
def backwardSub (e : TriEnv) (g : FMat) (n : Nat) (diag : Option (List FV)) (b : List FV) : List FV :=
  (List.range n).foldr (fun i x =>
    let s := accNeg e (fat b i) ((List.range (n - 1 - i)).map fun k => g i (i + 1 + k)) x
    (match diag with
      | some d => fdiv s (fat d i)
      | none => s) :: x) []

/-- The diagonal test of R183: the diagonal to divide by and the regularised places. -/
def diagTest (e : TriEnv) (d : List FV) : List FV × List Nat :=
  (d.map fun x => if fltb x.abs e.h then (if fltb x fzero then e.h.neg else e.h) else x,
    ((List.range d.length).zip d).filterMap fun x => if fltb x.2.abs e.h then some x.1 else none)

/-- Apply the pivot rows of LU to a right-hand side. -/
def pivotRows : Nat → List Nat → List FV → List FV
  | _, [], x => x
  | j, p :: t, x => pivotRows (j + 1) t (swapAt x p j)

/-- Solve with a factor as it stands: kernels 1 CHOL, 2 LDLT, 3 LU, 4 QR; `rdiag` is QR's tested diagonal (R183). -/
def factorSolve (e : TriEnv) (kind n : Nat) (f : Factor) (rdiag b : List FV) : List FV :=
  let up : FMat := fun i k => f.m k i
  let dg := (List.range n).map fun i => f.m i i
  match kind with
  | 1 => backwardSub e up n (some dg) (forwardSub e f.m n (some dg) b)
  | 2 =>
    let y := forwardSub e f.m n none b
    backwardSub e up n none ((y.zip dg).map fun x => fdiv x.1 x.2)
  | 3 => backwardSub e f.m n (some dg) (forwardSub e f.m n none (pivotRows 0 f.piv b))
  | _ =>
    let y := (List.range n).foldl (fun y j =>
      houseUpdate e j ((List.range (n - 1 - j)).map fun k => f.m (j + 1 + k) j) (fat f.taus j) y) b
    backwardSub e f.m n (some rdiag) y

/-! ### BOXQP (R185) -/

/-- The state of projected Gauss–Seidel. -/
structure BoxSt where
  x : List FV
  m : FV := fzero
  it : Nat := 0
  bad : Bool := false

/-- One sweep. -/
def boxSweep (e : TriEnv) (hm : FMat) (q l u rinv : List FV) (n : Nat) (s : BoxSt) : BoxSt :=
  let r := (List.range n).foldl (fun (a : List FV × FV × Bool) i =>
    let g := facc e.acc64 (fat q i) (((List.range n).map (hm i)).zip a.1)
    let y := fclamp (ffma g.neg (fat rinv i) (fat a.1 i)) (fat l i) (fat u i)
    let d := (fsub y (fat a.1 i)).abs
    (a.1.set i y, fmax a.2.1 d, a.2.2 || !d.isFin || !y.isFin)) (s.x, fzero, s.bad)
  { x := r.1, m := r.2.1, it := s.it + 1, bad := r.2.2 }

/-- Sweep until TOL is met, a value is not finite or `k` more sweeps are done; the Bool says that TOL was met. A sweep that is not
finite leaves the last complete one, marked bad. -/
def boxRun (e : TriEnv) (hm : FMat) (q l u rinv : List FV) (tol : FV) (n : Nat) : Nat → BoxSt → BoxSt × Bool
  | 0, s => (s, false)
  | k + 1, s =>
    let t := boxSweep e hm q l u rinv n s
    if t.bad then ({ s with bad := true }, false) else if fleb t.m tol then (t, true) else boxRun e hm q l u rinv tol n k t

end Sys2Proof.Machine
end

