-- ==== Sys2Proof/Machine/TriItem.lean ====
section
/-! DEFINITION. TRI's items and batches: the item table, operands, slots, deadlines and results (R168–R192). -/

namespace Sys2Proof.Machine

/-- A register of a sheet's TRI. -/
def triReg (d off : Nat) : Nat := rg d 2 off

/-- A sheet's TRI. -/
def State.triOf (s : State) (d : Nat) : Tri := Table.get (fun _ => {}) s.tri d

/-- Change a sheet's TRI. -/
def State.updTri (s : State) (d : Nat) (f : Tri → Tri) : State := { s with tri := Table.set (fun _ => {}) s.tri d (f (s.triOf d)) }

/-- A slot. -/
def Tri.slot (t : Tri) (n : Nat) : TriSlot := Table.get (fun _ => {}) t.slots n

/-! ### Items (R172–R174) -/

/-- Read an item from its first 48 bytes. -/
def TriItem.ofBytes (l : List Byte) : TriItem :=
  let w0 := leAt l 0 4
  let w1 := leAt l 4 4
  { kernel := fld w0 0 4, n := fld w0 4 6, nrhs := fld w0 10 6, slot := fld w0 16 7, uplo := bitN w0 24, trans := bitN w0 25,
    acc64 := bitN w0 26, warm := bitN w0 27, solve := bitN w0 28, unit := bitN w0 29, itmax := fld w1 0 16, band := fld w1 16 6,
    fk := fld w1 22 4, tol := leAt l 8 4, pat := leAt l 12 4, a := leAt l 16 8, b := leAt l 24 8, f := leAt l 32 8,
    e := leAt l 40 8, w0 := w0, w1 := w1 }

/-- A factorisation. -/
def TriItem.isFact (i : TriItem) : Bool := decide (1 ≤ i.kernel) && decide (i.kernel ≤ 4)

/-- TRSV or TRSM. -/
def TriItem.isTr (i : TriItem) : Bool := i.kernel == 5 || i.kernel == 6

/-- REFINE or BOXQP, which use slots. -/
def TriItem.isIter (i : TriItem) : Bool := i.kernel == 7 || i.kernel == 8

/-- Bytes of the factor layout of a kernel (R173). -/
def factorBytes (kernel n : Nat) : Nat := 4 * n * n + (if kernel = 3 then (n + 3) / 4 * 4 else if kernel = 4 then 4 * n else 0)

/-- Operands that the item reads: address and bytes (R173). -/
def TriItem.reads (i : TriItem) : List (Nat × Nat) :=
  let n := i.n
  [(i.a, 4 * n * n)] ++ (if i.isIter then [(i.b, 4 * n), (i.e, if i.kernel = 8 then 8 * n else factorBytes i.fk n)]
    else if i.isTr || i.solve then [(i.b, 4 * n * i.nrhs)] else [])

/-- Operands that the item writes: address and bytes (R173). -/
def TriItem.writes (i : TriItem) : List (Nat × Nat) :=
  (if i.isFact then [(i.f, factorBytes i.kernel i.n)] else if i.isIter then [(i.f, 4 * i.n)] else []) ++
    (if i.isTr || (i.isFact && i.solve) then [(i.b, 4 * i.n * i.nrhs)] else [])

/-- Whether the fields keep their rules (R172, R174). -/
def TriItem.fieldsOk (i : TriItem) : Bool :=
  let x := fld i.tol 23 8
  decide (1 ≤ i.kernel) && decide (i.kernel ≤ 8) && decide (1 ≤ i.n) && decide (i.n ≤ 32) && !bitN i.w0 23 && fld i.w0 30 2 == 0 &&
    fld i.w1 26 6 == 0 && (i.isTr || (!i.trans && !i.unit)) && (i.isIter || !i.warm) && (i.isFact || !i.solve) &&
    (if i.kernel = 5 ∨ i.isIter then i.nrhs == 1 else if i.isFact && !i.solve then i.nrhs == 0
      else decide (1 ≤ i.nrhs) && decide (i.nrhs ≤ 32)) &&
    (if i.kernel = 8 then decide (1 ≤ i.itmax) else i.itmax == 0) &&
    (if i.kernel = 8 then x != 255 && (!bitN i.tol 31 || fld i.tol 0 31 == 0) else i.tol == 0) &&
    (if i.kernel = 7 then decide (1 ≤ i.fk) && decide (i.fk ≤ 3) else i.fk == 0) &&
    (i.band == 0 || ((i.kernel == 1 || i.kernel == 2 || i.isTr || i.kernel == 8) && decide (i.band ≤ i.n - 1))) &&
    (i.isIter || i.e == 0) && (!i.isTr || i.f == 0) && (i.isIter || i.isTr || i.solve || i.b == 0)

/-- Whether an item is good before its operands are read (R174). -/
def State.triGood (s : State) (i : TriItem) : Bool :=
  i.fieldsOk && (i.reads ++ i.writes).all fun p => p.1 % 4 == 0 && s.sramRange p.1 p.2

/-- Whether element (i, j) of A is read (R173). -/
def TriItem.readsA (t : TriItem) (i j : Nat) : Bool :=
  if t.kernel = 3 ∨ t.kernel = 4 ∨ t.kernel = 7 then true
  else
    (if t.uplo then decide (i ≤ j) else decide (j ≤ i)) && (t.band == 0 || (decide (i ≤ j + t.band) && decide (j ≤ i + t.band))) &&
      !(t.unit && i == j)

/-- Element addresses of an n × n operand for which `p` holds. -/
def elems (base n : Nat) (p : Nat → Nat → Bool) : List Nat :=
  (List.range n).flatMap fun j => ((List.range n).filter fun i => p i j).map fun i => base + 4 * (i + n * j)

/-- Addresses of the 4-byte words that the item reads (R173). -/
def TriItem.words (t : TriItem) : List Nat :=
  let row (a k : Nat) : List Nat := (List.range k).map fun i => a + 4 * i
  elems t.a t.n t.readsA ++
    (if t.isIter then row t.b t.n else if t.isTr || t.solve then row t.b (t.n * t.nrhs) else []) ++
    (if t.kernel = 8 then row t.e (2 * t.n)
     else if t.kernel = 7 then
       if t.fk = 3 then row t.e (t.n * t.n + (t.n + 3) / 4) else elems t.e t.n fun i j => if t.uplo then decide (i ≤ j) else decide (j ≤ i)
     else [])

/-- Adjacent repeats taken out of a list. -/
def dedup : List Nat → List Nat
  | a :: b :: t => if a = b then dedup (b :: t) else a :: dedup (b :: t)
  | l => l

/-- Read the operands: false when one is in a die that does not answer or holds an uncorrectable error (R174). -/
def State.triFetch (s : State) (t : TriItem) : State × Bool :=
  if !(t.reads.all fun p => s.rangeAnswers p.1 p.2) then (s, false)
  else checkWords 1 (dedup (t.words.map (· / 32))) s

/-- A binary32 operand in memory. -/
def State.f32At (s : State) (a : Nat) : FV := ofBits32 (leAt (s.bytes a 4) 0 4)

/-- Consecutive binary32 operands. -/
def State.f32s (s : State) (a n : Nat) : List FV := (List.range n).map fun i => s.f32At (a + 4 * i)

/-- An n × n operand, with elements that are not read as zero; transposed if asked. -/
def State.matAt (s : State) (a n : Nat) (p : Nat → Nat → Bool) (tr : Bool) : FMat :=
  let cols := (List.range n).map fun j => (List.range n).map fun i => if p i j then s.f32At (a + 4 * (i + n * j)) else fzero
  if tr then ofRows cols else ofCols cols

/-! ### Running an item -/

/-- What an item ends with. -/
structure TriRes where
  istat : Nat
  flags : Nat := 0
  regs : List Nat := []
  iters : Nat := 0
  value : Nat := 0
  outs : List (Nat × List Byte) := []
  sol : Option (List Nat) := none

/-- Bytes of binary32 results. -/
def f32Bytes (l : List FV) : List Byte := l.flatMap fun x => toBytes 4 (toBits32 x)

/-- The bytes of an n × n factor, column-major; transposed for UPLO = 1, 0 outside the band (R173). -/
def factorOut (m : FMat) (n band : Nat) (tr : Bool) : List FV :=
  (List.range n).flatMap fun j => (List.range n).map fun i =>
    if band ≠ 0 ∧ (i + band < j ∨ j + band < i) then fzero else if tr then m j i else m i j

/-- The flags of regularised pivots (R175). -/
def regFlags (regs : List Nat) (neg : Bool) : Nat :=
  if regs.isEmpty then 0 else 0x100 + b01 neg * 0x1000 + regs.headD 0 * 65536 + min regs.length 32 * 2 ^ 24

/-- The threshold h (R178). -/
def smallPivot (tau : Nat) (diag : List FV) : FV :=
  let m := diag.foldl (fun a x => fmax a x.abs) fzero
  if toBits32 m = 0 then ofBits32 tau else fmul (ofBits32 tau) m

/-- A factorisation item (R179–R183). -/
def State.runFact (s : State) (t : TriItem) (tau : Nat) : TriRes :=
  let n := t.n
  let low := t.kernel ≤ 2
  let a := s.matAt t.a n t.readsA (low && t.uplo)
  let b := if t.solve then s.f32s t.b (n * t.nrhs) else []
  let ins := (List.range n).flatMap fun j => (List.range n).map fun i => a i j
  if !((ins ++ b).all FV.isFin) then { istat := 4 }
  else
    let e : TriEnv := { acc64 := t.acc64, h := smallPivot tau ((List.range n).map fun i => a i i) }
    let f := match t.kernel with
      | 1 => triChol e a n
      | 2 => triLdlt e a n
      | 3 => triLu e a n
      | _ => triQr e a n
    let (rd, qregs) := if t.kernel = 4 ∧ t.solve then diagTest e ((List.range n).map fun i => f.m i i) else ([], [])
    let xs := if t.solve then (List.range t.nrhs).flatMap fun c => factorSolve e t.kernel n f rd ((b.drop (n * c)).take n) else []
    let fo := factorOut f.m n t.band (low && t.uplo)
    let regs := f.regs ++ qregs
    let fl := regFlags regs f.neg
    let value := if regs.isEmpty then 0 else toBits32 e.h
    if f.bad || !((fo ++ f.taus ++ xs).all FV.isFin) then { istat := 4, flags := fl, regs := regs, value := value }
    else
      let tail := if t.kernel = 3 then f.piv.map (BitVec.ofNat 8) ++ List.replicate ((n + 3) / 4 * 4 - n) 0#8 else f32Bytes f.taus
      { istat := 1, flags := fl, regs := regs, value := value, outs := [(t.f, f32Bytes fo ++ tail)] ++ if t.solve then [(t.b, f32Bytes xs)] else [] }

/-- A triangular solve (R183). -/
def State.runTrs (s : State) (t : TriItem) (tau : Nat) : TriRes :=
  let n := t.n
  let a := s.matAt t.a n t.readsA t.trans
  let b := s.f32s t.b (n * t.nrhs)
  let ins := (List.range n).flatMap fun j => (List.range n).map fun i => a i j
  if !((ins ++ b).all FV.isFin) then { istat := 4 }
  else
    let d := (List.range n).map fun i => a i i
    let e : TriEnv := { acc64 := t.acc64, h := smallPivot tau d }
    let (rd, regs) := if t.unit then ([], []) else diagTest e d
    let diag := if t.unit then none else some rd
    let lower := t.uplo == t.trans
    let one (c : Nat) : List FV :=
      let col := (b.drop (n * c)).take n
      if lower then forwardSub e a n diag col else backwardSub e a n diag col
    let xs := (List.range t.nrhs).flatMap one
    let fl := regFlags regs false
    let value := if regs.isEmpty then 0 else toBits32 e.h
    if !(xs.all FV.isFin) then { istat := 4, flags := fl, regs := regs, value := value }
    else { istat := 1, flags := fl, regs := regs, value := value, outs := [(t.b, f32Bytes xs)] }

/-- A refinement step from `x0` (R184). -/
def State.runRefine (s : State) (t : TriItem) (x0 : List FV) (fl : Nat) : TriRes :=
  let n := t.n
  let a := s.matAt t.a n t.readsA false
  let b := s.f32s t.b n
  let tri (i j : Nat) : Bool := t.fk == 3 || if t.uplo then decide (i ≤ j) else decide (j ≤ i)
  let m := s.matAt t.e n tri (t.uplo && t.fk != 3)
  let ins := (List.range n).flatMap fun j => (List.range n).flatMap fun i => [a i j, m i j]
  if !((ins ++ b).all FV.isFin) then { istat := 4, flags := fl }
  else
    let piv := if t.fk = 3 then (s.bytes (t.e + 4 * n * n) n).map (·.toNat) else []
    let e : TriEnv := { acc64 := t.acc64, h := fzero }
    let r := (List.range n).map fun i => accNeg e (fat b i) ((List.range n).map (a i)) x0
    let c := factorSolve e t.fk n { m := m, piv := piv } [] r
    let x := (x0.zip c).map fun p => fadd p.1 p.2
    let mx := r.foldl (fun y v => fmax y v.abs) fzero
    let value := if r.all FV.isFin then toBits32 mx else (Config.residual (r.map toBits32)).toNat
    if !((r ++ c ++ x).all FV.isFin) then { istat := 4, flags := fl, iters := 1, value := value }
    else
      { istat := 1, flags := fl, iters := 1, value := value, outs := [(t.f, f32Bytes x)], sol := some (x.map toBits32) }

/-- A QP from `x0`, of which `sweeps` sweeps were complete when the batch was cut, none if it was not (R185, R190, R192): 2
DLMISS writes the last complete iterate, 6 ABORTED none; VALUE is h where a diagonal was regularised (R172, R178). -/
def State.runBox (s : State) (t : TriItem) (tau : Nat) (x0 : List FV) (fl : Nat) (cut : Option Nat) (sweeps : Nat) : TriRes :=
  let n := t.n
  let a := s.matAt t.a n t.readsA false
  let hm : FMat := fun i j => if t.readsA i j then a i j else if t.readsA j i then a j i else fzero
  let q := s.f32s t.b n
  let l := s.f32s t.e n
  let u := s.f32s (t.e + 4 * n) n
  let ins := (List.range n).flatMap fun j => (List.range n).map fun i => a i j
  if (l.zip u).any fun p => fltb p.2 p.1 then { istat := 3, flags := fl }
  else if !((ins ++ q ++ l ++ u).all FV.isFin) then { istat := 4, flags := fl }
  else
    let d := (List.range n).map fun i => hm i i
    let e : TriEnv := { acc64 := t.acc64, h := smallPivot tau d }
    let regs := (List.range n).filter fun i => fltb (fat d i) e.h
    let neg := d.any fun x => fltb x e.h && fltb x fzero
    let rinv := d.map fun x => fdiv (.fin false 1 0) (if fltb x e.h then fadd (fmax0 x) e.h else x)
    let start : BoxSt := { x := (x0.zip (l.zip u)).map (fun p => fclamp p.1 p.2.1 p.2.2), bad := !(rinv.all FV.isFin) }
    let lim := if cut.isSome then min sweeps t.itmax else t.itmax
    let (r, met) := if start.bad then (start, false) else boxRun e hm q l u rinv (ofBits32 t.tol) n lim start
    let fl := fl + regFlags regs neg
    let base : TriRes := { istat := 4, flags := fl, regs := regs, iters := r.it, value := if regs.isEmpty then toBits32 r.m else toBits32 e.h }
    let open_ := !met || cut.isSome
    let whole : TriRes := { base with flags := fl + (if open_ then 0x200 else 0), outs := [(t.f, f32Bytes r.x)], sol := some (r.x.map toBits32) }
    if r.bad then base
    else
      match cut with
      | none => { whole with istat := 1 }
      | some 2 => { whole with istat := 2 }
      | some _ => { base with istat := 6 }

/-- The start of an item with a slot: the words that x starts from, none for a cold start, and the flag that WARM sets (R187). -/
def TriSlot.warm (p : TriSlot) (t : TriItem) : List Nat × Nat :=
  if !t.warm || !p.valid then ([], 0)
  else if p.kernel = t.kernel ∧ p.order = t.n ∧ p.band = t.band ∧ p.pat = t.pat then (p.sol, 0x800)
  else ([], 0x400)

/-- The x that an item starts from: its slot's solution or 0 (R184, R185). -/
def TriStart.x (p : TriStart) : List FV := if p.sol.isEmpty then List.replicate p.item.n fzero else p.sol.map ofBits32

/-! ### Ending an item -/

/-- Write the outputs in order; false when a write fails (R174). -/
def writeOuts : List (Nat × List Byte) → State → State × Bool
  | [], s => (s, true)
  | (a, l) :: t, s =>
    if !s.rangeAnswers a l.length then (s, false)
    else
      let (u, ok) := s.writeMem a l
      if ok then writeOuts t u else (u, false)

/-- An item ends: outputs, slot, counts, status words (R170, R172, R175, R178, R186, R190). -/
def State.triItemEnd (s : State) (d i : Nat) (b : TriBatch) (t : TriItem) (r : TriRes) : State :=
  let (s, ok) := writeOuts r.outs s
  let ist := if ok then r.istat else 5
  let status := ist + r.flags
  let s := s.count (triReg d 0x20) 16 16 r.regs.length
  let s := if ist = 2 then s.count (triReg d 0x24) 0 16 else s
  let a := b.items + 64 * i + 48
  let words := toBytes 4 status ++ toBytes 4 (r.iters % 65536) ++ toBytes 4 r.value ++ toBytes 4 0
  let s := if s.rangeAnswers a 16 then (s.writeMem a words).1 else s
  let slot : TriSlot := { valid := true, kernel := t.kernel, order := t.n, band := t.band, pat := t.pat, sol := r.sol.getD [] }
  s.updTri d fun x =>
    { x with slots := if r.sol.isSome && ok then Table.set (fun _ => {}) x.slots t.slot slot else x.slots, queue := x.queue.map fun y => if y.run then { y with ended := y.ended.put i status, last := s.upNs } else y }

/-- Why a batch's items end early: 2 when its deadline has passed, 6 when it is aborted (R189, R190, R192). -/
def State.triCut (s : State) (b : TriBatch) : Option Nat :=
  let missed (k : Nat) : Bool := b.deadline != 0 && decide (b.deadline ≤ k)
  match b.abortAt with
  | some k => if missed k then some 2 else some 6
  | none => if missed s.mer.cycle then some 2 else none

/-- Whether two lists of ranges meet. -/
def rangesMeet (p q : List (Nat × Nat)) : Bool :=
  p.any fun x => q.any fun y => decide (x.1 < y.1 + y.2) && decide (y.1 < x.1 + x.2)

/-- The item as its table holds it. -/
def State.triItem (s : State) (b : TriBatch) (i : Nat) : TriItem := TriItem.ofBytes (s.bytes (b.items + 64 * i) 48)

/-- STATUS of an item that has ended, else 0. -/
def TriBatch.status (b : TriBatch) (i : Nat) : Nat := Table.get (fun _ => 0) b.ended i

/-- The items that have started and not ended. -/
def TriBatch.atWork (b : TriBatch) : List TriItem :=
  ((List.range b.started.length).zip b.started).filterMap fun x => if b.status x.1 = 0 then some x.2.item else none

/-- Whether the next item `t` of the batch may start: at most 4 at once, after the items that it depends on (R170), and not once
the batch is cut (R190, R192). -/
def State.triMay (s : State) (b : TriBatch) (t : TriItem) : Bool :=
  !b.refused && !b.late && decide (b.started.length < b.count) && (s.triCut b).isNone && decide (b.atWork.length < 4) &&
    b.atWork.all fun u =>
      !(s.triGood u && s.triGood t && ((t.isIter && u.isIter && u.slot == t.slot) || rangesMeet u.writes (t.reads ++ t.writes)))

/-- The running batch of a TRI. -/
def State.triBatch (s : State) (d : Nat) : Option TriBatch := (s.triOf d).queue.head?.bind fun b => if b.run then some b else none

/-- Start the next item of the running batch where it may start: it takes τ and its slot's solution as they stand, and a
mismatch of signatures is counted (R170, R178, R187). -/
def State.triStartNext (s : State) (d : Nat) : State :=
  match s.triBatch d with
  | none => s
  | some b =>
    let t := s.triItem b b.started.length
    if !s.triMay b t then s
    else
      let x := s.triOf d
      let (sol, fl) := if s.triGood t && t.isIter then (x.slot t.slot).warm t else ([], 0)
      let p : TriStart := { item := t, tau := x.tau, sol := sol, flags := fl }
      let u := s.updTri d fun x => { x with queue := x.queue.map fun y => if y.run then { y with started := y.started ++ [p] } else y }
      if fl = 0x400 then u.count (triReg d 0x20) 0 16 else u

/-- Start the items that may start, in item order; no more than 4 can at once (R170). -/
def State.triStartItems (s : State) (d : Nat) : State := (List.range 4).foldl (fun s _ => s.triStartNext d) s

/-- What a good started item computes from its operands (R179–R185); `sweeps` sweeps of a BOXQP were complete at the cut. -/
def State.triCompute (s : State) (p : TriStart) (cut : Option Nat) (sweeps : Nat) : TriRes :=
  match p.item.kernel with
  | 5 | 6 => s.runTrs p.item p.tau
  | 7 => s.runRefine p.item p.x p.flags
  | 8 => s.runBox p.item p.tau p.x p.flags cut sweeps
  | _ => s.runFact p.item p.tau

/-- A started item ends: the state after its reads, and its result (R174, R190, R192). -/
def State.triFinish (s : State) (b : TriBatch) (i : Nat) (p : TriStart) (cut : Option Nat) (sweeps : Nat) : State × TriRes :=
  let t := p.item
  match if s.rangeAnswers (b.items + 64 * i) 48 then s.readMem (b.items + 64 * i) 48 1 else (s, none) with
  | (s, none) => (s, { istat := 5, flags := p.flags })
  | (s, some _) =>
    if !s.triGood t then (s, { istat := 3 })
    else if cut.isSome && (t.kernel != 8 || sweeps == 0) then (s, { istat := cut.getD 2, flags := p.flags })
    else
      match s.triFetch t with
      | (s, false) => (s, { istat := 5, flags := p.flags })
      | (s, true) => (s, s.triCompute p cut sweeps)

/-- Whether an item ends in the row of kernel `k`; one whose KERNEL is not assigned ends in any (assumption log 49). -/
def TriItem.fits (t : TriItem) (k : Nat) : Bool := t.kernel == k || t.kernel == 0 || decide (9 ≤ t.kernel)

/-- Item `i`, of kernel `k`, ends: a started one with its result, one that has not started once its batch is cut (R170–R192). Then
the items that waited for it start. `sweeps` is the number of sweeps that a BOXQP had completed when its batch was cut. -/
def State.triRun (s : State) (d i k sweeps : Nat) : State :=
  match s.triBatch d with
  | none => s
  | some b =>
    let cut := s.triCut b
    if b.refused || decide (b.count ≤ i) || b.status i != 0 then s
    else
      match b.started[i]?, cut with
      | some p, _ =>
        if !p.item.fits k then s
        else
          let (u, r) := s.triFinish b i p cut sweeps
          (u.triItemEnd d i b p.item r).triStartItems d
      | none, some c =>
        let t := s.triItem b i
        if t.fits k then s.triItemEnd d i b t { istat := c } else s
      | none, none => s

/-! ### Batches -/

/-- A batch starts and its descriptor is checked (R169). -/
def State.triStart (s : State) (d : Nat) : State :=
  match (s.triOf d).queue with
  | [] => s
  | b :: rest =>
    if b.run || s.holds (.tri d) || !s.answers d then s
    else
      let put (s : State) (b : TriBatch) : State := s.updTri d fun x => { x with queue := { b with run := true, start := s.upNs, last := s.upNs } :: rest }
      match if s.rangeAnswers b.addr 32 then s.readMem b.addr 32 1 else (s, none) with
      | (s, none) => put s { b with refused := true }
      | (s, some l) =>
        let w := leAt l 0 4
        let n := fld w 0 8
        let items := leAt l 8 8
        let b : TriBatch := { b with evt := if bitN w 25 then some (fld w 16 9) else none }
        if n = 0 ∨ 128 < n ∨ fld w 8 8 ≠ 0 ∨ fld w 26 6 ≠ 0 ∨ leAt l 4 4 ≠ 0 ∨ leAt l 22 2 ≠ 0 ∨ items % 64 ≠ 0 ∨
            !s.sramRange items (64 * n) then put s { b with refused := true }
        else
          let b : TriBatch := { b with count := n, items := items, deadline := leAt l 16 6 }
          (put s { b with late := (s.triCut b).isSome }).triStartItems d

/-- A batch ends: the result, TRI_DONE and the event (R168, R171, R190). -/
def State.triEnd (s : State) (d : Nat) : State :=
  match s.triBatch d with
  | none => s
  | some b =>
    let st := (List.range b.count).map b.status
    if !b.refused && st.any (· == 0) then s
    else
      let bad := (List.range b.count).filter fun i => st.getD i 0 % 256 != 1
      let warn := (st.filter fun x => x % 256 == 1 && x / 256 % 256 &&& 0x17 != 0).length
      let miss := st.any fun x => x % 256 == 2
      let cls := if b.refused then 3 else if !bad.isEmpty then 2 else if 0 < warn then 1 else 0
      let w24 := if b.refused then 3 else cls + b01 miss * 4 + bad.length * 256 + bad.headD 0 * 65536 + warn * 2 ^ 24
      let w28 := b.ticket + min 65535 ((b.last - b.start) / 10) * 65536
      let s := if s.rangeAnswers (b.addr + 24) 8 then (s.writeMem (b.addr + 24) (toBytes 4 w24 ++ toBytes 4 w28)).1 else s
      let s := if !b.refused && miss then s.count (triReg d 0x24) 16 16 else s
      let s := s.updTri d fun x => { x with queue := x.queue.drop 1, doneTicket := b.ticket, doneClass := cls, doneValid := true }
      match b.evt with
      | some e => s.fireHeld (.tri d) e (b.ticket + d * 65536 + cls * 2 ^ 20)
      | none => s

/-! ### Commands and registers -/

/-- TRI_TAU's range (R194). -/
def tauOk (v : Nat) : Bool := decide (0x2B800000 ≤ v) && decide (v ≤ 0x3F000000)

/-- Issue a command: the state and the status (R194). -/
def State.triCommand (s : State) (d code : Nat) (v : W64) : State × Nat :=
  let v := v.toNat
  let range := match code with
    | 1 => v == 0
    | 2 => decide (v < 512) && fld v 7 1 == 0 && (!bitN v 8 || fld v 0 7 == 0)
    | _ => tauOk v
  let st := if code = 0 ∨ 3 < code then 5 else if !range then 6
    else if !s.answers d ∨ (code = 3 ∧ !s.inService d) then 8 else 0
  (if st = 0 then s.updTri d fun x => { x with cmds := x.cmds ++ [(code, v, s.mer.phase)] } else s, st)

/-- A command applies at a datum (R188, R192, R194). -/
def State.triApply (s : State) (d : Nat) (c : Nat × Nat × Nat) : State :=
  s.updTri d fun x =>
    match c.1 with
    | 1 => { x with queue := x.queue.map fun b => if b.abortAt.isNone then { b with abortAt := some s.mer.cycle } else b }
    | 2 => { x with slots := if bitN c.2.1 8 then Table.mapV {} (fun p => { p with valid := false }) x.slots else Table.set (fun _ => {}) x.slots (fld c.2.1 0 7) { x.slot (fld c.2.1 0 7) with valid := false } }
    | _ => { x with tau := c.2.1 }

/-- The commands of a sheet's TRI that entered at least 1 µs before the datum apply (R32); `lim` is the latest phase. -/
def State.triDatum (s : State) (lim d : Nat) : State :=
  let x := s.triOf d
  let due := x.cmds.filter fun c => decide (c.2.2 ≤ lim)
  let rest := (x.cmds.filter fun c => !decide (c.2.2 ≤ lim)).map fun c => (c.1, c.2.1, 0)
  due.foldl (fun s c => s.triApply d c) (s.updTri d fun y => { y with cmds := rest })

/-- TRI_STAT. -/
def State.triStat (s : State) (d : Nat) : Nat :=
  let x := s.triOf d
  let run := s.triBatch d
  x.queue.length + b01 run.isSome * 8 + b01 (s.holds (.tri d)) * 16 + b01 (x.queue.any fun b => b.abortAt.isSome) * 32 +
    (run.map (·.ticket)).getD 0 * 65536

/-- TRI_DONE. -/
def Tri.done (x : Tri) : Nat := x.doneTicket + x.doneClass * 65536 + b01 x.doneValid * 2 ^ 31

/-- A read code of ENGR (R195). -/
def State.triRead (s : State) (d code : Nat) : Option W64 :=
  let v (n : Nat) : Option W64 := some (BitVec.ofNat 64 n)
  match code with
  | 0 => v (s.triStat d)
  | 1 => v (s.triOf d).done
  | 2 => v (s.triOf d).tau
  | 3 => v (s.rd (triReg d 0x20)).toNat
  | 4 => v (s.rd (triReg d 0x24)).toNat
  | _ => none

/-- The registers of TRI that report (TRI_ID, TRI_STAT, TRI_DONE, TRI_TAU, TRI_CMDST, TRI_SLOTSIG, TRI_SLOTPAT). -/
def State.triRegRead (s : State) (d off : Nat) : Nat :=
  let x := s.triOf d
  let p := x.slot (s.rf (triReg d 0x28) 0 7)
  match off with
  | 0x00 => 16 + 14 * 32 + 128 * 1024 + 32 * 2 ^ 18 + 2 ^ 24
  | 0x04 => s.triStat d
  | 0x08 => x.done
  | 0x0C => x.tau
  | 0x1C => x.cmdSt
  | 0x2C => b01 p.valid + p.kernel * 2 + p.order * 32 + p.band * 2048
  | 0x30 => p.pat
  | _ => 0

/-- A write of TRI_CMD: the command with the value VALHI:VALLO (R196). -/
def State.triByReg (s : State) (d code : Nat) : State :=
  let v : W64 := s.rd (triReg d 0x18) ++ s.rd (triReg d 0x14)
  let (t, r) := s.triCommand d code v
  t.updTri d fun x => { x with cmdSt := r }

/-- A write of TRI_TAU applies at the next datum, as the command TAU does (TRI_TAU). -/
def State.triTauWrite (s : State) (d : Nat) (v : W32) : State :=
  if tauOk v.toNat then s.updTri d fun x => { x with cmds := x.cmds ++ [(3, v.toNat, s.mer.phase)] } else s

end Sys2Proof.Machine
end

