-- ==== Sys2Proof/Machine/TriCmd.lean ====
section
/-! DEFINITION. The commands of the Triangulation Unit: SOLVE, the batches and items, ABORT, SLOTCLR, TAU and the reads
(R73, R168–R196). -/

namespace Sys2Proof.Machine

/-! ### SOLVE -/

/-- The selector of SOLVE in the order of R73: the die, or the exception. -/
def State.solveSel (s : State) (sel : Nat) : Exc ⊕ Nat :=
  let d := sel % 256
  if 2 ^ 8 ≤ sel then .inl (excEng 4 sel)
  else if !(d == 0x0C || s.dieFitted d) then .inl (excBus sel)
  else if d = 0 ∨ d = 0x0C then .inl (excEng 1 sel)
  else .inr d

/-- Queue a batch: the ticket or the refusal (R73, R337). -/
def State.triQueue (s : State) (d addr : Nat) : State × W64 :=
  let x := s.triOf d
  if !s.inService d ∨ s.sys.mode = .shutdown then (s, refusal 8)
  else if 4 ≤ x.queue.length then (s, refusal 1)
  else
    let b : TriBatch := { ticket := x.ticket, addr := addr }
    (s.updTri d fun y => { y with queue := y.queue ++ [b], ticket := (y.ticket + 1) % 65536 }, BitVec.ofNat 64 x.ticket)

/-- The effect of SOLVE (R73). -/
def State.solve (s : State) (c : CoreId) (rd ra rb : Reg) : CRes :=
  match s.solveSel (s.reg c rb).toNat with
  | .inl e => .exc s e
  | .inr d =>
    let a := (s.reg c ra).toNat
    match s.cellCheck a 32 true with
    | some e => .exc s e
    | none =>
      match s.load c a 32 0 with
      | (t, none) => .exc t (excEcc a)
      | (t, some _) =>
        let (u, v) := t.triQueue d a
        .ok (u.put c rd v)

/-- SOLVE: hand a batch to a TRI (R73). -/
def execSolve (c : CoreId) (rd ra rb : Reg) (s : State) : Out := .next (runInstr c (fun t => t.solve c rd ra rb) s)

/-! ### Batches and items -/

/-- BATCH_START: TRI takes the next batch and checks its descriptor (R169). -/
def execBatchStart (die : Nat) (s : State) : Out := .next (if die != 0 && s.blockLive die then s.triStart die else s)

/-- An item of kernel `k` runs on a live TRI. -/
def State.triItemRow (s : State) (die item k sweeps : Nat) : State :=
  if die != 0 && s.blockLive die then s.triRun die item k sweeps else s

/-- CHOL (R179). -/
def execChol (die item : Nat) (s : State) : Out := .next (s.triItemRow die item 1 0)

/-- LDLT (R180). -/
def execLdlt (die item : Nat) (s : State) : Out := .next (s.triItemRow die item 2 0)

/-- LU (R181). -/
def execLu (die item : Nat) (s : State) : Out := .next (s.triItemRow die item 3 0)

/-- QR (R182). -/
def execQr (die item : Nat) (s : State) : Out := .next (s.triItemRow die item 4 0)

/-- TRSV (R183). -/
def execTrsv (die item : Nat) (s : State) : Out := .next (s.triItemRow die item 5 0)

/-- TRSM (R183). -/
def execTrsm (die item : Nat) (s : State) : Out := .next (s.triItemRow die item 6 0)

/-- REFINE (R184). -/
def execRefine (die item : Nat) (s : State) : Out := .next (s.triItemRow die item 7 0)

/-- BOXQP (R185, R190): `sweeps` counts the sweeps complete when the batch was cut, if it was. -/
def execBoxqp (die item sweeps : Nat) (s : State) : Out := .next (s.triItemRow die item 8 sweeps)

/-- BATCH_END: the last item has ended; result, TRI_DONE and event (R168, R171). -/
def execBatchEnd (die : Nat) (s : State) : Out := .next (if die != 0 && s.blockLive die then s.triEnd die else s)

/-! ### Commands -/

/-- A command to TRI by ENGW or by TRI_CMD (R194, R196). -/
def triCmd (src : EngSrc) (code : Nat) (s : State) : State :=
  match src with
  | .engw c rd ra rb => runInstr c (fun t => t.engw c 3 rd ra rb fun d _ v u => u.triCommand d code v) s
  | .reg d _ => if d != 0 && s.blockLive d then s.triByReg d code else s

/-- ABORT (R192). -/
def execAbort (src : EngSrc) (s : State) : Out := .next (triCmd src 1 s)

/-- SLOTCLR (R188). -/
def execSlotclr (src : EngSrc) (s : State) : Out := .next (triCmd src 2 s)

/-- TAU (R178, R194). -/
def execTau (src : EngSrc) (s : State) : Out := .next (triCmd src 3 s)

/-! ### Reads -/

/-- ENGR with eng = 3 (R72, R195). -/
def triEngr (c : CoreId) (rd rb : Reg) (code : Nat) (s : State) : State :=
  runInstr c (fun t => t.engr c 3 rd rb fun d _ u => u.triRead d code) s

/-- ENGR: TRI_STAT (R195). -/
def execTriReadStat (c : CoreId) (rd rb : Reg) (s : State) : Out := .next (triEngr c rd rb 0 s)

/-- ENGR: TRI_DONE (R195). -/
def execTriReadDone (c : CoreId) (rd rb : Reg) (s : State) : Out := .next (triEngr c rd rb 1 s)

/-- ENGR: the TAU in force (R195). -/
def execTriReadTau (c : CoreId) (rd rb : Reg) (s : State) : Out := .next (triEngr c rd rb 2 s)

/-- ENGR: TRI_CNT (R195). -/
def execTriReadCnt (c : CoreId) (rd rb : Reg) (s : State) : Out := .next (triEngr c rd rb 3 s)

/-- ENGR: TRI_MISS (R195). -/
def execTriReadMiss (c : CoreId) (rd rb : Reg) (s : State) : Out := .next (triEngr c rd rb 4 s)

end Sys2Proof.Machine
end

