-- ==== Sys2Proof/Machine/TrvDie.lean ====
section
/-! DEFINITION. Traverse on a die: acceptance of commands and the advance of every axis at a datum (R70, R107–R112, R129,
R143, R334, R337). -/

namespace Sys2Proof.Machine

/-- A register of a Traverse axis; die 0 is TRH (R144). -/
def trvReg (d n off : Nat) : Nat := rg d (if d = 0 then 0x0D else 0) (0x1000 + 0x40 * n + off)

/-- Axis contexts of a die's engine. -/
def trvAxes (d : Nat) : Nat := if d = 0 then 16 else 24

/-- The arm whose image names an axis, less 1 (R16, R17). -/
def State.armOf (s : State) (d n : Nat) : Option Nat :=
  if d = 0 then none
  else ((List.range 3).map fun c => 3 * (d - 1) + c).find? fun k => (s.ctm.arm k).img.any fun i => i.joints.any fun j => j.axis == n

/-- The axis belongs to an arm that is not in RUN (R334). -/
def State.axisLocked (s : State) (d n : Nat) : Bool := (s.armOf d n).any fun k => (s.ctm.arm k).sst != 0

/-- Whether compat mode is in force (R6). -/
def State.compat (s : State) : Bool := !s.sys.strapCompat || s.sys.legacy

/-- Whether the cell mode takes ENABLE (R337). -/
def State.modeEnable (s : State) : Bool := s.sys.mode == .integrate || s.sys.mode == .run || s.sys.mode == .degraded
/-- Whether the cell mode takes the motion commands (R337). -/
def State.modeMotion (s : State) : Bool := s.sys.mode == .run || s.sys.mode == .degraded

/-! ### Acceptance (R70, R110) -/

/-- The codes of R110. -/
def trvCodes : List Nat :=
  (List.range 6).map (· + 1) ++ (List.range 14).map (· + 0x10) ++ (List.range 9).map (· + 0x20) ++ (List.range 6).map (· + 0x30) ++
    (List.range 7).map (· + 0x40)

/-- Whether a LIM_CFG field names a source as R133 lays it out. -/
def limOk (f : Nat) : Bool :=
  let t := fld f 18 2
  t != 3 && (t != 1 || (decide (fld f 5 12 < 32) && fld f 0 5 == 0))

/-- Whether the value of a command lies in its accepted range (R110, R121, R129, R133, R138). -/
def State.trvRange (s : State) (d n code : Nat) (v : W64) : Bool :=
  let a := s.trvAx d n
  let x := v.toNat
  let w32 := decide (x < 2 ^ 32)
  let lo := a.posv 0x1C
  let hi := a.posv 0x1D
  match code with
  | 0x01 | 0x02 | 0x03 | 0x04 | 0x05 | 0x35 | 0x46 => x == 0
  | 0x06 => decide (1 ≤ x) && decide (x ≤ 6)
  | 0x10 => decide (hi ≤ lo) || (decide (lo ≤ v.toInt) && decide (v.toInt ≤ hi))
  | 0x11 | 0x13 | 0x18 => w32
  | 0x12 | 0x14 | 0x15 | 0x16 | 0x17 | 0x19 | 0x41 | 0x42 => w32 && x != 0
  | 0x1A => decide (-(2 ^ 31) ≤ v.toInt) && decide (v.toInt < 2 ^ 31)
  | 0x1B | 0x1C | 0x1D | 0x25 | 0x32 | 0x43 => true
  | 0x20 =>
    fld x 1 3 == 0 && fld x 7 9 == 0 &&
      (if d = 0 then decide (fld x 4 3 ≤ 1) && decide (1 ≤ fld x 32 32) && decide (fld x 32 32 ≤ 2 ^ 24)
       else (fld x 4 3 == 0 || decide (3 ≤ fld x 4 3)) && fld x 32 32 == 0)
  | 0x21 => fld x 60 4 == 0 && limOk (fld x 0 20) && limOk (fld x 20 20) && limOk (fld x 40 20)
  | 0x22 => decide (x ≤ 10000)
  | 0x23 => decide (1 ≤ x) && decide (x ≤ 1000)
  | 0x24 => fld x 26 6 == 0 && fld x 24 2 != 3 && (fld x 16 8 != 0 || fld x 24 2 == 0)
  | 0x26 => decide (x < 2 ^ 13)
  | 0x27 => decide (1 ≤ x) && decide (x ≤ 2 ^ 24)
  | 0x28 => x % 32 == 0 && (sramDie x).any s.dieFitted
  | 0x30 =>
    fld x 2 2 == 0 && fld x 17 47 == 0 && fld x 0 2 != 3 && (fld x 0 2 != 0 || decide (fld x 4 12 < 16)) &&
      (fld x 0 2 != 2 || decide (fld x 4 12 < trvAxes d))
  | 0x31 => fld x 32 32 != 0
  | 0x33 => fld x 32 32 != 0 && (fld (a.num' 0x34) 0 16 == 0 || fld x 32 32 == a.num' 0x31 / 2 ^ 32)
  | 0x34 => decide (x < 2 ^ 18) && decide (fld x 0 16 ≤ 4096) && fld x 16 2 != 3
  | 0x40 =>
    decide (x < 2 ^ 7) && decide (fld x 0 3 ≤ 5) && (fld x 4 3 == 0 || (d != 0 && decide (3 ≤ fld x 4 3)))
  | 0x44 | 0x45 => decide (x < 2 ^ 63)
  | _ => false

/-- The commands that R334 locks and R337 calls motion commands: MODE 2–6, HOME_START, PATH_COMMIT. -/
def trvMotion (code x : Nat) : Bool := (code == 6 && x != 1) || code == 0x46 || code == 0x28

/-- Issue a command to a Traverse axis: the state and the status (R70, R109, R334, R337). -/
def State.trvCommand (s : State) (d n code : Nat) (v : W64) : State × Nat :=
  let x := v.toNat
  let halt := code = 2 ∨ code = 3 ∨ code = 4
  if !trvCodes.contains code then (s, 5)
  else if !s.trvRange d n code v then (s, 6)
  else if (code == 1 || trvMotion code x) && s.axisLocked d n then (s, 7)
  else if d ≠ 0 ∧ !(s.inService d || (decide halt && s.answers d)) then (s, 8)
  else if (code = 1 ∧ !s.modeEnable) ∨ (trvMotion code x ∧ !s.modeMotion) then (s, 8)
  else (s.updTrvAx d n fun a => { a with cmds := a.cmds ++ [⟨code, v, s.mer.phase, false⟩] }, 0)

/-! ### The datum -/

/-- Fire an event of an axis (R143). -/
def State.trvEvent (s : State) (d n code : Nat) : State :=
  s.fireEng (.trv d n) (trvReg d n 0x28) code (code * 65536 + d * 256 + n)

/-- Read bytes of SRAM as of a plan record, with what the read does to the memory (R124, R315). -/
def State.touch (s : State) (a n : Nat) : State × Option (List Byte) :=
  if s.sramRange a n && s.rangeAnswers a n then s.readMem a n 1 else (s, none)

/-- The axis that an axis follows as its virtual master in GEAR (R129). -/
def TrvAx.virtual (a : TrvAx) : Option Nat :=
  if a.st == .gear && fld (a.num' 0x30) 0 2 == 2 then some (fld (a.num' 0x30) 4 12) else none

/-- Whether axis `n` in GEAR with TYPE 2 and SRC `k` would make a chain: itself, a follower, or followed (R129; assumption log
127). -/
def State.gearChain (s : State) (d n k : Nat) : Bool :=
  k == n || (s.trvAx d k).virtual.isSome || (List.range (trvAxes d)).any fun j => j != n && (s.trvAx d j).virtual == some n

/-- What an axis sees at a datum whose cycle counter has just advanced, after a cycle of `told` ns. -/
def State.trvEnv (s : State) (d n : Nat) (plan : Bool) (told : Nat) (axisP : Nat → Int) : TrvEnv :=
  { T := s.mer.cycleLen, told := told, plan := plan, planN := s.mer.planN, hub := d == 0, die := d, axis := n, compat := s.compat,
    locked := s.axisLocked d n, draining := d != 0 && !s.inService d, enOk := s.modeEnable, moveOk := s.modeMotion, gpio := s.sys.gpioIn,
    enc := fun k => Table.get (fun _ => {}) s.enc k, flowW := fun f i => s.flowWord f i, posW := fun f => s.flowWord f (s.gaz f).posw,
    flowAge := fun f => s.flowAge ((s.mer.cycle + 2 ^ 48 - 1) % 2 ^ 48) f, sleIn := fun i => (s.sleInput d n i).1.toInt,
    sleOff := d == 0 || (s.sleAx d n).st == .off, sleFault := d != 0 && (s.sleAx d n).declared, read := fun a n => (s.touch a n).2,
    axisP := axisP, chained := s.gearChain d n, held := s.holds (.trv d n) }

/-- Put an axis and what its work brought into the state: flags, lost steps, events. -/
def State.trvPut (s : State) (d n : Nat) (w : TrvW) : State :=
  let s := s.setTrvAx d n w.ax
  let s := if w.flags = 0 then s else s.wr (trvReg d n 0x14) (s.rd (trvReg d n 0x14) ||| BitVec.ofNat 32 w.flags)
  let s := if w.lost = 0 then s else s.count (trvReg d n 0x24) 16 16 w.lost
  w.evs.foldl (fun s e => s.trvEvent d n e) s

/-- The read of a committed plan record, for its effect on the memory (R125, R315). -/
def State.touchPlan (s : State) (d n : Nat) (plan : Bool) : State :=
  match plan, (s.trvAx d n).commit with
  | true, some r =>
    let (s, h) := s.touch r 16
    match h.bind (planKnots d n) with
    | some k => (s.touch (r + 16) (16 * k)).1
    | none => s
  | _, _ => s

/-- The advance of one axis after its commands, with the steps of a TRH axis (R115–R142). -/
def State.trvAdvance (s : State) (d n : Nat) (plan : Bool) (told : Nat) (axisP : Nat → Int) (w : TrvW) : State :=
  (s.touchPlan d n plan).trvPut d n (w.finish (s.trvEnv d n plan told axisP))

/-- The step channel that a datum takes for a TRH axis, written at least 1 µs before it (R32, TRH_STPn_CFG). -/
def State.stpOf (s : State) (n : Nat) : W32 := s.par (rg 0 0x0D (0x2000 + 4 * n))

/-- Begin the datum of each axis of a list: inputs and commands (R32, R107). -/
def trvBegin (d lim : Nat) (plan : Bool) (told : Nat) : List Nat → State → State × List (Nat × TrvW)
  | [], s => (s, [])
  | n :: t, s =>
    let e := s.trvEnv d n plan told fun k => (s.trvAx d k).p
    let a := s.trvAx d n
    let a := if d = 0 then { a with stpCfg := s.stpOf n } else a
    let w := TrvW.begin { ax := a } e lim
    let (u, l) := trvBegin d lim plan told t (s.setTrvAx d n w.ax)
    (u, (n, w) :: l)

/-- The Traverse share of a datum on a die: commands, then the axes, virtual masters before their followers (R30, R129). -/
def State.trvDatum (s : State) (lim d : Nat) (plan : Bool) (told : Nat) : State :=
  if !s.answers d then s
  else
    let (s, ws) := trvBegin d lim plan told (List.range (trvAxes d)) s
    let s := (ws.filter fun x => x.2.ax.virtual.isNone).foldl (fun s x => s.trvAdvance d x.1 plan told (fun _ => 0) x.2) s
    let t := s
    let s := (ws.filter fun x => x.2.ax.virtual.isSome).foldl (fun s x => s.trvAdvance d x.1 plan told (fun k => (t.trvAx d k).p) x.2) s
    if d = 0 then s
    else s.updSle d fun x => { x with ax := Table.mapV {} (fun (a : SleAx) => { a with declared := false }) x.ax }

/-- DISABLE to every Traverse axis of a die that is not in OFF, by the hub itself (R336, R338). -/
def State.disableAll (s : State) (d : Nat) : State :=
  (List.range (trvAxes d)).foldl (fun s n =>
    if (s.trvAx d n).st = .off then s
    else s.updTrvAx d n fun a => { a with cmds := a.cmds ++ [⟨2, 0, 0, true⟩] }) s

/-- Whether every axis of a die is in OFF. -/
def State.axesOff (s : State) (d : Nat) : Bool := (List.range (trvAxes d)).all fun n => (s.trvAx d n).st == .off

/-- Whether any Traverse axis is in motion (R23). -/
def State.anyMoving (s : State) : Bool := s.trv.any fun kv => kv.2.v != 0

end Sys2Proof.Machine
end

