-- ==== Sys2Proof/Machine/Modes.lean ====
section
/-! DEFINITION. Sheet service states and the cell mode (R333–R338), with the sheet commands of Surveyor as they apply at a
datum. -/

namespace Sys2Proof.Machine

/-- An SFY register. -/
def sfyReg (off : Nat) : Nat := rg 0 0x0A off

/-- Change the cell's own state. -/
def State.updSys (s : State) (f : Sys → Sys) : State := { s with sys := f s.sys }

/-- A fresh free value, modulo `m`, for a field that the spec does not state (assumption log 2). -/
def State.freshWord (s : State) (m : Nat) : State × Nat := ({ s with freeCtr := s.freeCtr + 1 }, Config.freeWord s.freeCtr % m)

/-- Fire an SFY event (R381): 1 COMMAND, 2 SENSOR, 3 RESET, 4 SHEET. -/
def State.sfyEvent (s : State) (code obj res : Nat) : State :=
  s.fireMasked (sfyReg 0x84) code (code * 65536 + obj % 256 * 256 + res % 256)

/-- The instant is a datum: no Meridian clock has passed since it. -/
def State.atDatum (s : State) : Bool := decide (s.mer.phase < s.mer.inc)

/-! ### Sheets (R338) -/

/-- A sheet enters a service state: the log and event SHEET. -/
def State.sheetTo (s : State) (d : Nat) (st : SheetSt) : State :=
  let old := (s.sheet d).st
  ((s.setSheet d { st := st }).log 0x0200 1 0 0x0A d st.code old.code).sfyEvent 4 d st.code

/-- RETIRE applies to a sheet IN_SERVICE: DISABLE to its axes, the station closed, its DMA channels stopped (R103, R329,
R338). -/
def State.startDrain (s : State) (d : Nat) : State :=
  let s := (s.sheetTo d .draining).disableAll d
  let s := s.closeStation d
  ((List.range 16).foldl (fun s ch => s.dmaDrain d ch) s).settled

/-- A sheet enters READMIT: its batch slots become not valid (R188, R338). -/
def State.startReadmit (s : State) (d : Nat) : State := (s.sheetTo d .readmit).updTri d fun x => { x with slots := [] }

/-- A sheet command applies at a datum (R335, R338): 1 RETIRE, 2 SURVEY, 3 READMIT. -/
def State.sheetApply (s : State) (r : Nat × Nat) : State :=
  let d := r.2
  let x := s.sheet d
  match r.1, x.st with
  | 1, .inService => s.startDrain d
  | 1, .draining => s.setSheet d { x with pend := false }
  | 2, .retired => s.sheetTo d .survey
  | 3, .retired => s.startReadmit d
  | 3, .draining => s.setSheet d { x with pend := true }
  | _, _ => s

/-- Whether a channel is IDLE or HALTED. -/
def DmaCh.quiet (x : DmaCh) : Bool := x.st == .idle || x.st == .halted

/-- Whether an item stands in a sheet's station or runs on it. -/
def State.itemsOn (s : State) (d : Nat) : Bool :=
  s.wdx.items.any fun x => match x.2.st with
    | .station k => k == d
    | .running k _ => k == d
    | _ => false

/-- The drain of a sheet is complete (R338). -/
def State.drained (s : State) (d : Nat) : Bool :=
  (s.sheet d).st == .draining && s.axesOff d && (s.triOf d).queue.isEmpty && ((List.range 16).all fun ch => (s.ch d ch).quiet) && !s.itemsOn d

/-- A completed drain: the sheet enters RETIRED or READMIT, and the items that no core may run are STRANDED (R103, R338). -/
def State.endDrain (s : State) (d : Nat) : State :=
  if s.drained d then (if (s.sheet d).pend then s.startReadmit d else s.sheetTo d .retired).strand else s

/-- Reset everything of a sheet: registers, engines, cores, channels and memory (R380). -/
def State.wipeSheet (s : State) (d : Nat) : State :=
  let base := 0x10000000 + (d - 1) * 0x01000000
  let inSheet (a : Nat) : Bool := decide (base ≤ a) && decide (a < base + 0x01000000)
  let s := s.wipeRegs fun r => r / 2 ^ 24 == d
  let s : State := { s with mem := s.mem.wipe inSheet, ecc := s.ecc.wipe fun w => inSheet (32 * w), memDie := s.memDie.drop d }
  let s : State := { s with trv := s.trv.wipe fun k => k / 32 == d, sle := s.sle.drop d, tri := s.tri.drop d }
  { s with dma := s.dma.wipe (fun k => k / 16 == d), cores := s.cores.wipe fun k => k / 16 == d }

/-- The cores of a die leave reset now, from which CCYC counts (R42). -/
def State.releaseCores (s : State) (d : Nat) : State :=
  (List.range (coresOf d)).foldl (fun s i => s.updCore ⟨d, i⟩ fun x => { x with relClk := s.mer.clocks }) s

/-- A sheet passes readmission: it has been written to zero and reset, and is put in service (R380). -/
def State.putInService (s : State) (d : Nat) : State :=
  let s := s.wipeSheet d
  (s.setMd d { s.md d with initDone := true }).releaseCores d

/-- What readmission checks and a survey bring at the next datum (R338, R379, R380). -/
def State.sheetEnds (s : State) (d : Nat) : State :=
  let x := s.sheet d
  match x.st, x.checked, x.surveyed with
  | .readmit, some 0, _ => (s.releaseCores d).sheetTo d .inService
  | .readmit, some _, _ => s.sheetTo d .retired
  | .survey, _, true => s.sheetTo d .retired
  | _, _, _ => s

/-- The sheet-service step of a datum (R335). -/
def State.sheetDatum (s : State) : State :=
  let reqs := s.sfy.sheetReqs
  let s : State := { s with sfy := { s.sfy with sheetReqs := [] } }
  let s := reqs.foldl (fun s r => s.sheetApply r) s
  let s := s.sheetList.foldl (fun s d => s.sheetEnds d) s
  s.sheetList.foldl (fun s d => s.endDrain d) s

/-- DRAIN_COMPLETE at a datum: the sheet leaves DRAINING (R335, R338). -/
def execDrainComplete (die : Nat) (s : State) : Out := .next (if s.blockLive 0 && s.sheetFitted die && s.atDatum then s.endDrain die else s)

/-! ### The cell mode (R336) -/

/-- A channel has no link on any port it uses. -/
def State.chanDown (s : State) (chB : Bool) : Bool :=
  let used := [false, true].filter fun p => s.portMode chB p != 0
  !used.isEmpty && used.all fun p => !(s.port chB p).link

/-- Form the DG bits (R336). -/
def State.dgUpdate (s : State) : State :=
  s.updSys fun y =>
    { y with dgSheet := s.sheetList.any (fun d => !s.inService d), dgChan := s.chanDown false || s.chanDown true, dgFeed := !(s.feedOk false && s.feedOk true), dgPartner := s.rdn.paired && !(s.rdn.pstate == 1 && s.rdn.everKept && !s.rdn.plost) }

/-- Whether a DG bit is 1. -/
def Sys.degraded (y : Sys) : Bool := y.dgSheet || y.dgChan || y.dgFeed || y.dgPartner

/-- The redundancy state counts as ACTIVE. -/
def State.rdnActive (s : State) : Bool := !s.rdn.paired || s.rdn.st == .active

/-- The conditions of the INTEGRATE row. -/
def State.mayRun (s : State) : Bool := s.bus.st == .active && s.ctm.cell.isSome && s.rdnActive

/-- Enter a cell mode. -/
def State.cellTo (s : State) (m : CellMode) : State := s.updSys fun y => { y with mode := m }

/-- RUN, or DEGRADED if any DG bit is 1. -/
def State.cellRun (s : State) : State := s.cellTo (if s.sys.degraded then .degraded else .run)

/-- DISABLE to every Traverse axis not in OFF, on every die that answers. -/
def State.disableCell (s : State) : State := (0 :: s.sheetList.filter s.answers).foldl (fun s d => s.disableAll d) s

/-- The entry into SHUTDOWN. -/
def State.shutDown (s : State) : State :=
  let s := (s.updSys fun y => { y with mode := .shutdown, pendRun := false, shutDone := false }).disableCell
  s.chList.foldl (fun s k => if s.answers k.1 ∧ !(s.ch k.1 k.2).quiet then s.dmaHalt k.1 k.2 else s) s

/-- The shut-down is complete (R338). -/
def State.shutOver (s : State) : Bool :=
  s.sys.mode == .shutdown && !s.sys.shutDone && ((0 :: s.sheetList.filter s.answers).all fun d => s.axesOff d) &&
    (s.sheetList.all fun d => !s.answers d || (s.triOf d).queue.isEmpty) && s.chList.all fun k => !s.answers k.1 || (s.ch k.1 k.2).quiet

/-- A completed shut-down: EN falls; with PENDING_RUN the cell goes to INTEGRATE and EN rises at the next datum (R336). -/
def State.endShut (s : State) : State :=
  if !s.shutOver then s
  else
    let s := s.busEn false
    if s.sys.pendRun then s.updSys fun y => { y with mode := .integrate, pendRun := false, enNext := true }
    else s.updSys fun y => { y with shutDone := true }

/-- Take the commands of SYS_CELL that wait: SHUT, and RESUME if SHUT is not with it. -/
def State.takeCell (s : State) : State × Bool × Bool :=
  (s.updSys fun y => { y with shutReq := false, resumeReq := false }, s.sys.shutReq, s.sys.resumeReq && !s.sys.shutReq)

/-- The cell-mode step of a datum (R335, R336). -/
def State.cellDatum (s : State) : State :=
  let s := if s.sys.enNext then (s.updSys fun y => { y with enNext := false }).busEn true else s
  let (s, shut, resume) := s.dgUpdate.takeCell
  let lost := s.bus.st != .active || !s.rdnActive
  match s.sys.mode with
  | .boot => if s.sfy.done && s.rb (vba 0x100) 0 then s.cellTo .integrate else s
  | .shutdown =>
    let s := if shut then s.updSys fun y => { y with pendRun := false } else s
    let s := if resume && !s.sys.shutDone then s.updSys fun y => { y with pendRun := true } else s
    if s.shutOver then s.endShut
    else if resume && s.sys.shutDone then (s.updSys fun y => { y with mode := .integrate, shutDone := false }).busEn true
    else s
  | .integrate => if shut then s.shutDown else if s.mayRun then s.cellRun else s
  | .safeHold => if shut then s.shutDown else if resume && s.mayRun then s.cellRun else s
  | _ => if shut then s.shutDown else if lost then (s.cellTo .safeHold).disableCell else s.cellRun

/-- A request for SHUTDOWN, refused in BOOT (R337). -/
def State.askShut (s : State) : State := if s.sys.mode != .boot then s.updSys fun y => { y with shutReq := true, resumeReq := false } else s

/-- A request for RUN (R336). -/
def State.askResume (s : State) : State := if s.sys.shutReq then s else s.updSys fun y => { y with resumeReq := true }

/-- SHUT: SYS_CELL.SHUT written with 1 applies at the next datum; it is refused in BOOT (R336, R337). -/
def execShut (s : State) : Out := .next (if s.blockLive 0 then s.askShut else s)

/-- RESUME: SYS_CELL.RESUME written with 1 applies at the next datum (R336, R337). -/
def execResume (s : State) : Out := .next (if s.blockLive 0 then s.askResume else s)

/-- SHUTDOWN_COMPLETE at a datum (R335, R336, R338). -/
def execShutdownComplete (s : State) : Out := .next (if s.blockLive 0 && s.atDatum then s.endShut else s)

/-! ### SYS (chapter 01) -/

/-- A write of SYS_COMPAT: ignored while the strap is low, refused and logged while an axis moves (R23). -/
def State.compatWrite (s : State) (v : Bool) : State :=
  if !s.sys.strapCompat ∨ v = s.rb (rg 0 0 0x04) 0 then s
  else if s.anyMoving then s.log 0x0021 2 0 0 0x00000004 (b01 v) 0
  else (s.setRf (rg 0 0 0x04) 0 1 (b01 v)).updSys fun y => { y with compatNext := some v }

/-- SYS_COMPAT_WRITE (R23). -/
def execSysCompatWrite (v : Bool) (s : State) : Out := .next (if s.powered then s.compatWrite v else s)

/-- SYS_GPIOSET: set bits of SYS_GPIOOUT (R24). -/
def execSysGpioset (m : W32) (s : State) : Out := .next (if s.powered then s.wr (rg 0 0 0x24) (s.rd (rg 0 0 0x24) ||| m) else s)

/-- SYS_GPIOCLR: clear bits of SYS_GPIOOUT (R24). -/
def execSysGpioclr (m : W32) (s : State) : Out := .next (if s.powered then s.wr (rg 0 0 0x24) (s.rd (rg 0 0 0x24) &&& ~~~m) else s)

/-- The SYS values that apply at a datum: outputs and directions after the sample, TRV_LEGACY (R24, SYS_COMPAT). -/
def State.sysDatum (s : State) : State :=
  s.updSys fun y => { y with gpioOut := s.rd (rg 0 0 0x24), gpioDir := s.rd (rg 0 0 0x20), legacy := y.compatNext.getD y.legacy, compatNext := none }

/-- The bits of a SYS register that hardware keeps (01, 13). -/
def State.sysRead (s : State) (off : Nat) : Nat :=
  let y := s.sys
  match off with
  | 0x00 => y.member + (2 ^ sheetCount y.member - 1) * 256 + y.stepping * 65536 + 2 ^ 20 + b01 y.strapCompat * 2 ^ 24
  | 0x04 => b01 (!y.strapCompat)
  | 0x10 => y.mode.code + b01 y.pendRun * 8 + b01 y.shutDone * 16 + b01 y.dgSheet * 256 + b01 y.dgChan * 512 + b01 y.dgFeed * 1024 + b01 y.dgPartner * 2048
  | 0x30 => y.gpioIn.toNat
  | _ => 0

end Sys2Proof.Machine
end

