-- ==== Sys2Proof/Machine/BootImg.lean ====
section
/-! DEFINITION. The boot flashes: status sectors, the checks of an image and the choice between the two (R367–R370). -/

namespace Sys2Proof.Machine

/-- Change Surveyor. -/
def State.updSfy (s : State) (f : Sfy → Sfy) : State := { s with sfy := f s.sfy }

/-- Milliseconds for which WRST_N has been low in the present low period (R374). -/
def State.lowMs (s : State) : Nat := (s.upNs - s.sfy.lowAt) / 1000000

/-! ### Flash (R367) -/

/-- A flash, A or B. -/
def State.flash (s : State) (b : Bool) : Flash := if b then s.sfy.flashB else s.sfy.flashA

/-- Bytes of a flash. -/
def Flash.read (f : Flash) (o n : Nat) : List Byte := (List.range n).map fun i => Table.get flashDefault f.bytes (o + i)

/-- Put bytes into a flash. -/
def putFlash (t : Table Byte) (o : Nat) : List Byte → Table Byte
  | [] => t
  | b :: l => putFlash (Table.set flashDefault t o b) (o + 1) l

/-- Write bytes of a flash. -/
def State.flashPut (s : State) (b : Bool) (o : Nat) (l : List Byte) : State :=
  let f : Flash := { bytes := putFlash (s.flash b).bytes o l }
  s.updSfy fun y => if b then { y with flashB := f } else { y with flashA := f }

/-- A byte of the status sector. -/
def State.flashStat (s : State) (b : Bool) (o : Nat) : Nat := leAt ((s.flash b).read o 1) 0 1

/-- The state of a flash (R367): 0 TRIAL, 1 GOOD, 2 BAD. -/
def State.flashState (s : State) (b : Bool) : Nat :=
  let x := s.flashStat b 0
  if x = 0xFF then 0 else if x = 0x0F then 1 else 2

/-- Bits of TRIALS that are cleared: the trials used (R367). -/
def State.trialsUsed (s : State) (b : Bool) : Nat := ((List.range 3).filter fun i => !bitN (s.flashStat b 1) i).length

/-- The state of a flash that SFY_BOOT reports: 3 for an image that is not valid. -/
def State.reportFlash (s : State) (b : Bool) (st seq : Nat) : State :=
  s.updSfy fun y => if b then { y with stateB := st, seqB := seq } else { y with stateA := st, seqA := seq }

/-- SEQNO of the image of a flash as last checked. -/
def State.flashSeq (s : State) (b : Bool) : Nat := if b then s.sfy.seqB else s.sfy.seqA

/-- Mark a flash BAD (R367, R368). -/
def State.markBad' (s : State) (b : Bool) : State := s.flashPut b 0 [0#8]

/-- Clear the next TRIALS bit of a flash (R367, R370). -/
def State.useTrial (s : State) (b : Bool) : State :=
  let x := s.flashStat b 1
  match (List.range 3).find? fun i => bitN x i with
  | some i => s.flashPut b 1 [BitVec.ofNat 8 (x - 2 ^ i)]
  | none => s

/-! ### Images (R368, R369) -/

/-- A section of a boot image. -/
structure BSect where
  typ : Nat
  dest : Nat
  data : List Byte

/-- Walk `n` sections from offset `o` to the signature at `e`. -/
def bootSects (l : List Byte) (e : Nat) : Nat → Nat → Option (List BSect)
  | 0, o => if o = e then some [] else none
  | n + 1, o =>
    let len := leAt l (o + 4) 4
    let next := o + 16 + ceilDiv len 16 * 16
    if e < next ∨ leAt l (o + 1) 3 ≠ 0 ∨ ((l.drop (o + 16 + len)).take (next - (o + 16 + len))).any (· != 0#8) then none
    else (bootSects l e n next).map fun t => { typ := leAt l o 1, dest := leAt l (o + 8) 8, data := (l.drop (o + 16)).take len } :: t

/-- What R369 lays down for a section. -/
def BSect.ok (x : BSect) : Bool :=
  let n := x.data.length
  match x.typ with
  | 1 => x.dest == 0 && decide (n ≤ 448 * 1024)
  | 2 => n == 0 || ((sramDie x.dest).isSome && sramDie x.dest == sramDie (x.dest + n - 1))
  | 3 | 4 => hubRange x.dest n && x.dest % 256 == 0
  | 5 => n == 16 && leAt x.data 0 4 &&& 0x00C0C000 == 0 && leAt x.data 8 8 == 0
  | 6 => n % 32 == 0 && decide (32 ≤ n) && decide (n ≤ 2048)
  | _ => false

/-- The bytes of the image in a flash, none where LEN is out of range. -/
def State.bootImage (s : State) (b : Bool) : Option (List Byte) :=
  let n := leAt ((s.flash b).read 0x10000 12) 8 4
  if n < 96 ∨ 16711680 < n ∨ n % 16 ≠ 0 then none else some ((s.flash b).read 0x10000 n)

/-- The sections of an image with a correct layout. -/
def bootLayout (l : List Byte) : Option (List BSect) :=
  let w := leAt l 4 4
  if leAt l 0 4 ≠ 0x544F4F42 ∨ w % 65536 ≠ 1 ∨ 8 ≤ w / 65536 ∨ (l.drop 20).take 12 ≠ List.replicate 12 0#8 then none
  else
    match bootSects l (l.length - 64) (leAt l 16 4) 32 with
    | none => none
    | some ss => if ss.all BSect.ok && (ss.filter (·.typ == 1)).length == 1 && (ss.filter (·.typ == 5)).length == 1 then some ss else none

/-- The checks of R368 on the image of a flash: 0 valid, else the result they fail with: 9 FORMAT, 6 SEQNO, 5 SIG
(assumption log 75). -/
def State.bootCheck (s : State) (b : Bool) : Nat :=
  match s.bootImage b with
  | none => 9
  | some l =>
    if (bootLayout l).isNone ∨ !bitN (leAt l 4 4) (15 + s.sys.member) then 9
    else if leAt l 12 4 < s.sfy.minSeq then 6
    else if (s.topKey 0).any fun k => ecdsaOk k (l.drop (l.length - 64)) (sha256 (l.take (l.length - 64))) then 0
    else 5

/-- The sections of the image in use, none while no image runs. -/
def State.sectsInUse (s : State) : List BSect :=
  if !s.sfy.booted then []
  else
    match s.bootImage s.sfy.useB with
    | none => []
    | some l => (bootLayout l).getD []

/-- Check a flash: a failed check, or a TRIAL image without trials left, marks it BAD; a valid one fills in SEQNO (R367, R368,
R370). Answers the failure of the check. -/
def State.scanFlash (s : State) (b : Bool) : State × Nat :=
  let r := s.bootCheck b
  if r ≠ 0 then ((s.markBad' b).reportFlash b 3 0, r)
  else
    let seq := leAt ((s.flash b).read 0x1000C 4) 0 4
    let s := s.flashPut b 4 (toBytes 4 seq)
    let s := if s.flashState b = 0 ∧ s.trialsUsed b = 3 then s.markBad' b else s
    (s.reportFlash b (s.flashState b) seq, 0)

/-- The flash that R370 selects. -/
def State.pickFlash (s : State) : Option Bool :=
  let st (b : Bool) : Nat := if b then s.sfy.stateB else s.sfy.stateA
  let trial (b : Bool) : Bool := st b == 0 && !(st (!b) == 1 && decide (s.flashSeq b ≤ s.flashSeq (!b)))
  let best (f : Bool → Bool) : Option Bool :=
    if f true && (!f false || decide (s.flashSeq false < s.flashSeq true)) then some true else if f false then some false else none
  (best trial).or (best fun b => st b == 1)

/-- Run an image: a TRIAL image uses one trial (R370). -/
def State.runImage (s : State) (b : Bool) : State :=
  let s := if s.flashState b = 0 then s.useTrial b else s
  s.updSfy fun y => { y with useB := b, booted := true, trials := s.trialsUsed b }

/-- Surveyor selects an image and starts its firmware, or stays in its ROM (R370, R371). -/
def State.selectImage (s : State) : State :=
  let (s, _) := s.scanFlash false
  let (s, _) := s.scanFlash true
  match s.pickFlash with
  | some b =>
    let s := s.runImage b
    s.log 0x0001 1 0 0x0A (b01 b) (s.flashSeq b) 1
  | none =>
    let (s, b) := s.freshWord 2
    let (s, r) := s.freshWord (2 ^ 32)
    (s.updSfy fun y => { y with booted := false }).log 0x0002 4 0 0x0A b r 0

end Sys2Proof.Machine
end

