-- ==== Sys2Proof/Machine/Crt.lean ====
section
/-! DEFINITION. The Cartouche's weighing: records, conversions, static and transfer weighing and the mailbox (R231–R248). -/

namespace Sys2Proof.Machine

/-- A CRT register. -/
def crtReg (off : Nat) : Nat := rg 0 0x09 off

/-- Change the Cartouche. -/
def State.updCrt (s : State) (f : Crt → Crt) : State := { s with crt := f s.crt }

/-- A weighing channel. -/
def State.crtCh (s : State) (c : Nat) : CrtCh := Table.get (fun _ => {}) s.crt.chs c

/-- Change a weighing channel. -/
def State.updCh' (s : State) (c : Nat) (f : CrtCh → CrtCh) : State :=
  s.updCrt fun x => { x with chs := Table.set (fun _ => {}) x.chs c (f (s.crtCh c)) }

/-- The Cartouche runs (R234). -/
def State.crtUp (s : State) : Bool := s.powered && !s.sys.wrst && !s.crt.down

/-- One d in the unit of masses. -/
def oneD : Int := 2 ^ 32

/-! ### Benchmark records (R249, R250) -/

/-- A record of the legal store. -/
def State.bench (s : State) (i : Nat) : List Byte := Table.get (fun _ => []) s.crt.store.recs i

/-- A 32-bit word of a channel's record. -/
def State.bw (s : State) (c off : Nat) : Nat := leAt (s.bench c) off 4

/-- LCMASK. -/
def State.lcmask (s : State) (c : Nat) : Nat := fld (s.bw c 0) 0 8
/-- CHOP. -/
def State.chop (s : State) (c : Nat) : Nat := fld (s.bw c 0) 19 3
/-- 2^AVG. -/
def State.avgN (s : State) (c : Nat) : Nat := 2 ^ min (fld (s.bw c 0) 24 8) 8
/-- Arm number, 0 for none. -/
def State.crtArm (s : State) (c : Nat) : Nat := fld (s.bw c 4) 8 5
/-- MAX in 2^-32 d. -/
def State.maxQ (s : State) (c : Nat) : Int := s.bw c 16 * oneD
/-- STABD in 2^-32 d, default 1 d. -/
def State.stabD (s : State) (c : Nat) : Int := (if fld (s.bw c 28) 0 16 = 0 then 1 else fld (s.bw c 28) 0 16 : Nat) * oneD
/-- STABT in ns, default 1,000 ms. -/
def State.stabT (s : State) (c : Nat) : Nat := (if fld (s.bw c 28) 16 16 = 0 then 1000 else fld (s.bw c 28) 16 16) * 1000000
/-- gain_i, Q2.30. -/
def State.gain (s : State) (c i : Nat) : Int := sxt 32 (s.bw c (32 + 4 * i))
/-- The sum of gain × zero over a channel's inputs. -/
def State.zeroSum (s : State) (c : Nat) : Int :=
  ((List.range 8).filter fun i => bitN (s.lcmask c) i).foldl (fun a i => a + s.gain c i * sxt 32 (s.bw c (64 + 4 * i))) 0

/-- A binary32 word as mantissa and exponent; none for a NaN or an infinity. -/
def f32Val (w : Nat) : Option (Int × Int) :=
  let f := fld w 0 23
  let sg (m : Nat) : Int := if bitN w 31 then -(m : Int) else m
  match fld w 23 8 with
  | 255 => none
  | 0 => some (sg f, -149)
  | x => some (sg (2 ^ 23 + f), (x : Int) - 150)

/-- num × 2^e ÷ den in a direction of rounding that the spec leaves open. -/
def scaleDiv (num e : Int) (den : Nat) : Int := if 0 ≤ e then fixDiv (num * 2 ^ e.toNat) den else fixDiv num (den * 2 ^ (-e).toNat)

/-- num ÷ den for a signed den that is not 0. -/
def divSigned (num den : Int) : Int := if den < 0 then fixDiv (-num) den.natAbs else fixDiv num den.natAbs

/-- The mean mass of values that sum to `v` (in 2^-31 counts), in 2^-32 d; a fresh free value where there is none. -/
def State.massOf (s : State) (c : Nat) (v : Int) (n : Nat) : State × Int :=
  match n, f32Val (s.bw c 96) with
  | k + 1, some (m, e) => (s, scaleDiv (v * m) (e - 23) (k + 1))
  | _, _ => ({ s with freeCtr := s.freeCtr + 1 }, Config.freeMass s.freeCtr)

/-! ### The mailbox (R248) -/

/-- The content of a mailbox write, but for SEQ and STATE. -/
structure MailRec where
  stable : Bool := false
  czero : Bool := false
  result : Nat := 0
  legal : Bool := false
  ovr : Bool := false
  net : Bool := false
  under : Bool := false
  underMin : Bool := false
  zeroWin : Bool := false
  weight : Int := 0
  tare : Int := 0
  nsamp : Nat := 0
  time : Nat := 0
  tag : Nat := 0

/-- The words of a record. -/
def State.mailWords (s : State) (c : Nat) (r : MailRec) : List W32 :=
  [b01 r.stable * 2 ^ 18 + b01 r.czero * 2 ^ 19 + r.result * 2 ^ 20 + b01 r.legal * 2 ^ 24 + b01 r.ovr * 2 ^ 25 + b01 r.net * 2 ^ 26 +
      b01 r.under * 2 ^ 27 + b01 r.underMin * 2 ^ 28 + b01 r.zeroWin * 2 ^ 29,
    wrapN 32 r.weight, wrapN 32 r.tare, leAt (s.bench c) 12 1 + r.nsamp * 65536, r.time % 1000000000, r.time / 1000000000 % 2 ^ 32,
    r.time / 1000000000 / 2 ^ 32 % 65536 + r.tag * 65536, s.crt.store.evcnt].map fun (n : Nat) => BitVec.ofNat 32 n

/-- Write a mailbox: SEQ goes up and the code fires (R248, R255): 1 RESULT, 2 UPDATE. -/
def State.mailPut (s : State) (c code : Nat) (ws : List W32) : State :=
  let x := s.crtCh c
  let q := (x.seq + 1) % 65536
  let w0 : W32 := ws.getD 0 0 + BitVec.ofNat 32 (q + x.st.code * 65536)
  (s.updCh' c fun x => { x with seq := q, mail := w0 :: ws.drop 1 }).fireMasked (crtReg 0x14) code (code * 65536 + c * 256 + q % 256)

/-! ### Static weighing (R239, R240) -/

/-- The reading is stable: every filtered value of the last STABT lies within STABD of the newest, and no conversion in it is
marked (R239). -/
def State.crtStable (s : State) (c : Nat) : Bool :=
  let x := s.crtCh c
  match x.filt with
  | [] => false
  | f :: t =>
    x.since.any (fun a => decide (a + s.stabT c ≤ f.at_)) && t.all (fun g => decide ((g.v - f.v).natAbs ≤ (s.stabD c).toNat)) &&
      x.badAt.all fun b => decide (b + s.stabT c < f.at_)

/-- A conversion marked OVR or SENSE lies in the last STABT. -/
def State.crtBad (s : State) (c : Nat) : Bool := (s.crtCh c).badAt.any fun b => decide (s.nowNs < b + s.stabT c)

/-- The filtered value before the zero, none before 2^AVG samples. -/
def State.reading (s : State) (c : Nat) : Option Int := (s.crtCh c).filt.head?.map (·.v)

/-- The initial zero of a restart, tried once, with the first reading: beyond ±10 % of MAX only a ZERO command sets the zero (R240). -/
def State.initialZero (s : State) (c : Nat) : State :=
  match s.reading c with
  | some f =>
    if (s.crtCh c).zeroTried then s
    else s.updCh' c fun x => if !x.zeroSet && decide ((f.natAbs * 10 : Nat) ≤ s.maxQ c) then { x with zero := f, zeroSet := true, zeroTried := true } else { x with zeroTried := true }
  | none => s

/-- A zero moved by `step`, never beyond ±`lim` from the calibration zero; one that lies beyond already only moves back (R240). -/
def trackTo (lim z step : Int) : Int :=
  if (z.natAbs : Int) ≤ lim then clampI (-lim) lim (z + step) else if (z + step).natAbs < z.natAbs then z + step else z

/-- Zero tracking (R240). -/
def State.trackZero (s : State) (c : Nat) : State :=
  match s.reading c with
  | none => s
  | some f =>
    let x := s.crtCh c
    let g := f - x.zero
    if !x.zeroSet || !s.crtStable c || decide (oneD < 2 * (g.natAbs : Int)) then s
    else
      let most := min (g.natAbs : Int) (oneD / 100)
      let step := most * (Config.trackShare s.freeCtr % 1001 : Nat) / 1000
      let z := trackTo (s.maxQ c / 25) x.zero (if g < 0 then -step else step)
      ({ s with freeCtr := s.freeCtr + 1 }).updCh' c fun x => { x with zero := z }

/-- Whether the condition of a static command holds (R240): 3 ZERO, 4 TARE, 5 TAREVAL, 6 CLRTARE. -/
def State.crtCond (s : State) (k : CrtCmd) : Bool :=
  let x := s.crtCh k.ch
  match k.code, s.reading k.ch with
  | 3, some f => s.crtStable k.ch && decide ((f.natAbs * 50 : Nat) ≤ s.maxQ k.ch)
  | 4, some f => s.crtStable k.ch && decide (0 < f - x.zero) && decide (f - x.zero ≤ s.maxQ k.ch)
  | 5, _ => decide (0 < k.val) && decide (k.val * oneD ≤ s.maxQ k.ch)
  | 6, _ => true
  | _, _ => false

/-- The effect of a static command (R240). -/
def State.crtEffect (s : State) (k : CrtCmd) : State :=
  let f := (s.reading k.ch).getD 0
  s.updCh' k.ch fun x =>
    match k.code with
    | 3 => { x with zero := f, zeroSet := true }
    | 4 => { x with tare := roundHalfAway (f - x.zero) (2 ^ 32), net := true }
    | 5 => { x with tare := k.val, net := true }
    | _ => { x with tare := 0, net := false }

/-- A static command whose condition has not held within 2 s is refused (R240): RANGE where the reading was stable or the value is
entered, else NOTSTABLE. -/
def State.crtRefuse (s : State) (k : CrtCmd) : State :=
  s.updCrt fun x => { x with cmd := none, cmdSt := if k.code = 5 ∨ (k.code ≤ 4 ∧ s.crtStable k.ch) then 5 else 4 }

/-- The 2 s of a static command are over. -/
def State.crtLate (s : State) (k : CrtCmd) : Bool := decide (k.since + 2000000000 ≤ s.upNs)

/-- A static command that waits takes effect at this update if its condition holds, within 2 s (R240). -/
def State.crtTake (s : State) (c : Nat) : State :=
  match s.crt.cmd with
  | some k =>
    if k.ch = c ∧ 3 ≤ k.code then
      if s.crtLate k then s.crtRefuse k
      else if s.crtCond k then (s.crtEffect k).updCrt fun x => { x with cmd := none, cmdSt := 0 } else s
    else s
  | none => s

/-- The static record of a channel (R239, R248). -/
def State.staticRec (s : State) (c : Nat) : State × MailRec :=
  let x := s.crtCh c
  let (t, f) := match s.reading c with
    | some f => (s, f)
    | none => ({ s with freeCtr := s.freeCtr + 1 }, Config.freeMass s.freeCtr)
  let (t, at_) := match x.filt with
    | g :: _ => (t, g.at_)
    | [] => t.freshWord (2 ^ 78)
  let g := f - x.zero
  let known := (s.reading c).isSome
  let ovr := if known && !x.zeroSet then decide (0 < f) else decide (s.maxQ c + 9 * oneD < g)
  let under := if known && !x.zeroSet then !decide (0 < f) else decide (g < -20 * oneD)
  let stable := s.crtStable c
  let legal := !s.crt.store.unsealed && stable && !ovr && !under && !s.crtBad c && x.zeroSet
  (t, { stable := stable, czero := decide (4 * (g.natAbs : Int) ≤ oneD), legal := legal, ovr := ovr, net := x.net, under := under,
        weight := if ovr || under then 0 else roundHalfAway g (2 ^ 32) - x.tare, tare := x.tare, nsamp := s.avgN c, time := at_ })

/-- Write the static record. -/
def State.staticMail (s : State) (c : Nat) : State :=
  let (t, r) := s.staticRec c
  t.mailPut c 2 (t.mailWords c r)

/-- STATIC_UPDATE: every 20 ms (R239, R240). -/
def execStaticUpdate (ch : Fin 8) (s : State) : Out :=
  let c := ch.val
  .next (if s.crtUp && (s.crtCh c).st == .static then ((((s.initialZero c).trackZero c).crtTake c)).staticMail c else s)

/-- What the mailbox of a channel without a transfer result holds: RESULT 0 and MG; the spec states no time (R248). -/
def State.noResult (s : State) (c : Nat) : State × List W32 :=
  let (t, time) := s.freshWord (2 ^ 78)
  (t, t.mailWords c { tare := roundHalfAway (s.crtCh c).mg (2 ^ 32), time := time })

/-- The words of a transfer result as they are issued: no result is marked legal while the seal is UNSEALED, and only a channel in
TRANSFER or WINDOW has a legal one (R248, R254). -/
def CrtCh.issue (x : CrtCh) (open' : Bool) (ws : List W32) : List W32 :=
  match ws with
  | [] => []
  | w :: t => (if open' || x.st == .off then w &&& ~~~(1#32 <<< 24) else w) :: t

/-- A channel enters a state; the mailbox is written at the change (R238, R248). -/
def State.crtEnter (s : State) (c : Nat) (st : CrtSt) : State :=
  let t := s.updCh' c fun x =>
    if st = .static then { x with st := st, samples := [], filt := [], since := none } else { x with st := st }
  match st with
  | .static => t.staticMail c
  | _ =>
    if (t.crtCh c).last.isEmpty then
      let (u, ws) := t.noResult c
      u.mailPut c 1 ws
    else t.mailPut c 1 ((t.crtCh c).issue t.crt.store.unsealed (t.crtCh c).last |>.take 7 |>.append [BitVec.ofNat 32 t.crt.store.evcnt])

/-! ### Conversions (R235–R237) -/

/-- The channel that an input belongs to. -/
def State.chanOf (s : State) (i : Nat) : Option Nat := (List.range 8).find? fun c => (s.crtCh c).st != .off && bitN (s.lcmask c) i

/-- A window takes a value whose time-stamp lies in it. -/
def CrtWin.holds (w : CrtWin) (at_ : Nat) : Bool := w.t0.any (fun a => decide (a ≤ at_)) && w.t1.all fun b => decide (at_ < b)

/-- A channel value reaches the filter or the window. -/
def State.emit (s : State) (c : Nat) (p : CrtSample) : State :=
  let x := s.crtCh c
  match x.st, x.win with
  | .static, _ =>
    let n := s.avgN c
    let l := (p :: x.samples).take n
    if l.length < n then s.updCh' c fun x => { x with samples := l }
    else
      let (s, m) := s.massOf c ((l.map (·.v)).foldl (· + ·) 0) n
      let old := x.filt.filter fun f => decide (p.at_ ≤ f.at_ + s.stabT c)
      s.updCh' c fun x => { x with samples := l, filt := { p with v := m } :: old, since := some (x.since.getD p.at_) }
  | .window, some w => if w.holds p.at_ then s.updCh' c fun x => { x with win := some { w with got := p :: w.got } } else s
  | _, _ => s

/-- Every input of a channel has delivered: the sum of gain × reading passes the chopping (R236, R237). -/
def State.chanSet (s : State) (c : Nat) (p : CrtSample) : State :=
  let x := s.crtCh c
  let z := s.zeroSum c
  if s.chop c = 0 then s.emit c { p with v := 2 * p.v - 2 * z }
  else
    let t := s.updCh' c fun x => { x with sinceEdge := x.sinceEdge + 1 }
    if x.sinceEdge < 4 then t
    else if !s.crt.exc then t.updCh' c fun x => { x with half := x.half ++ [p] }
    else
      match x.half[x.sinceEdge - 4]? with
      | none => t
      | some n =>
        let v := n.v - p.v - 2 * z
        (t.emit c { n with v := v }).emit c { p with v := v }

/-- Mark a bad conversion of a channel. -/
def State.markBad (s : State) (c at_ : Nat) (ovr : Bool) : State :=
  let t := s.updCh' c fun x => { x with badAt := some at_, ovrAt := if ovr then some s.nowNs else x.ovrAt, win := x.win.map fun w => if w.holds at_ then { w with bad := true } else w }
  if ovr then t.count (crtReg (0x100 + 4 * c)) 16 8 else t

/-- CONVERSION: a conversion of an input completes, `lag` ns after the centre of its impulse response (R235–R237). -/
def execConversion (input : Fin 8) (reading : Int) (ovr senseLow : Bool) (lag : Nat) (s : State) : Out :=
  let i := input.val
  let y := Table.get (fun _ => ({} : CrtIn)) s.crt.ins i
  let low := if senseLow then min 10 (y.low + 1) else 0
  let bad := ovr || low == 10
  let at_ := ((s.nowNs : Int) - lag + clampI (-1000) 1000 (Config.convErr s.freeCtr)).toNat
  .next (if !s.crtUp then s
    else
      let s : State := { s with freeCtr := s.freeCtr + 1 }
      let put (s : State) (w : Option CrtSample) : State := s.updCrt fun x => { x with ins := Table.set (fun _ => {}) x.ins i { wait := w, low := low } }
      match s.chanOf i with
      | none => put s none
      | some c =>
        let t := put s (some { v := s.gain c i * reading, at_ := at_, bad := bad })
        let t := if bad then t.markBad c at_ ovr else t
        let mine := (List.range 8).filter fun k => bitN (s.lcmask c) k
        let got := mine.map fun k => (Table.get (fun _ => ({} : CrtIn)) t.crt.ins k).wait
        if got.all Option.isSome then
          let t := t.updCrt fun x => { x with ins := Table.mapV {} (fun (z : CrtIn) => z) (x.ins.map fun kv => (kv.1, if mine.contains kv.1 then { kv.2 with wait := none } else kv.2)) }
          t.chanSet c { v := (got.map fun o => (o.map (·.v)).getD 0).foldl (· + ·) 0, at_ := at_, bad := bad }
        else t)

/-- An edge of EXC_CHOP, which reverses the excitation of every channel: each that chops starts its discard anew, and pairs a reversed
half-period with the one before it (R236). -/
def State.chopEdge (s : State) : State :=
  s.updCrt fun y => { y with
    exc := !y.exc, chs := Table.mapV {} (fun (x : CrtCh) => { x with sinceEdge := 0, half := if y.exc then [] else x.half }) y.chs }

/-- CHOP_EDGE: after P channel values of a channel EXC_CHOP reverses the excitation (R236). -/
def execChopEdge (ch : Fin 8) (s : State) : Out :=
  let c := ch.val
  let x := s.crtCh c
  .next (if s.crtUp && x.st != .off && s.chop c != 0 && decide (4 * 2 ^ s.chop c ≤ x.sinceEdge) then s.chopEdge else s)

/-! ### Commands (R238, R240) -/

/-- Whether a channel's record allows a state. -/
def State.allows (s : State) (c : Nat) (st : CrtSt) : Bool := bitN (s.bw c 0) (if st = .static then 8 else 9)

/-- Why a MODE command is refused, 0 if it is not: 3 BUSY in WINDOW, 2 STATE (R238, R247). -/
def State.modeRefuse' (s : State) (c code : Nat) : Nat :=
  let x := s.crtCh c
  let want := if code = 1 then CrtSt.static else CrtSt.transfer
  if x.st = .window then 3 else if x.st = .off ∨ x.st = want ∨ !s.allows c want then 2 else 0

/-- A write of CRT_CMD (R238, R240). -/
def State.crtCommand (s : State) (c code val : Nat) : State :=
  let x := s.crtCh c
  let res (r : Nat) : State := s.updCrt fun y => { y with cmdSt := r }
  let pend : State := s.updCrt fun y => { y with cmdSt := 1, cmd := some { code := code, ch := c, val := val, since := s.upNs } }
  if code = 0 ∨ 7 ≤ code then s
  else if s.crt.cmd.isSome then res 3
  else if code ≤ 2 then (if s.modeRefuse' c code = 0 then pend else res (s.modeRefuse' c code))
  else if x.st ≠ .static then res 2
  else pend

/-- MODE STATIC (R238). -/
def execModeStatic (ch : Fin 8) (s : State) : Out := .next (if s.crtUp then s.crtCommand ch.val 1 0 else s)

/-- MODE TRANSFER (R238). -/
def execModeTransfer (ch : Fin 8) (s : State) : Out := .next (if s.crtUp then s.crtCommand ch.val 2 0 else s)

/-- ZERO (R240). -/
def execZero (ch : Fin 8) (s : State) : Out := .next (if s.crtUp then s.crtCommand ch.val 3 0 else s)

/-- TARE (R240). -/
def execTare (ch : Fin 8) (s : State) : Out := .next (if s.crtUp then s.crtCommand ch.val 4 0 else s)

/-- TAREVAL (R240). -/
def execTareval (ch : Fin 8) (v : BitVec 24) (s : State) : Out := .next (if s.crtUp then s.crtCommand ch.val 5 v.toNat else s)

/-- CLRTARE (R240). -/
def execClrtare (ch : Fin 8) (s : State) : Out := .next (if s.crtUp then s.crtCommand ch.val 6 0 else s)

/-- NOTSTABLE: a static command whose condition has not held within 2 s is refused (R240). -/
def execNotstable (ch : Fin 8) (s : State) : Out :=
  .next (match s.crt.cmd with
    | some k =>
      if s.crtUp && k.ch == ch.val && decide (3 ≤ k.code) && s.crtLate k then s.crtRefuse k else s
    | none => s)

/-! ### Transfer weighing (R242–R247) -/

/-- The joints of a channel's chain (R242, R249, R250). -/
def State.chain (s : State) (c : Nat) : List JointRec :=
  (List.range (min (fld (s.bw c 124) 0 4) 8)).map fun i =>
    let l := if i < 6 then (s.bench c).drop (152 + 56 * i) else (s.bench (8 + c)).drop (8 + 56 * (i - 6))
    readJoint (l.take 56) 0

/-- The sheet of a channel's arm. -/
def State.chainDie (s : State) (c : Nat) : Nat := (s.crtArm c + 2) / 3

/-- π in 2^-120. -/
def piFine : Nat := 4175892906503776358826876457663557747

/-- Terms of the sine series at x² in 2^-120. -/
def sinTermsFine (xx : Nat) : Nat → Nat → Nat → Int
  | 0, _, _ => 0
  | n + 1, k, t => (t : Int) - sinTermsFine xx n (k + 2) (t * xx / 2 ^ 120 / ((k + 1) * (k + 2)))

/-- Sine in 2^-120 of r / 2^32 of a turn in the first quadrant. -/
def sinQuad (r : Nat) : Int :=
  let x := r * piFine / 2 ^ 31
  sinTermsFine (x * x / 2 ^ 120) 20 1 x

/-- Sine of a binary angle (2^32 to the turn) in 2^-120. -/
def sinFine (a : Nat) : Int :=
  let r := a % 2 ^ 30
  match a % 2 ^ 32 / 2 ^ 30 with
  | 0 => sinQuad r
  | 1 => sinQuad (2 ^ 30 - r)
  | 2 => -(sinQuad r)
  | _ => -(sinQuad (2 ^ 30 - r))

/-- The frame of a joint from the frame before it (R228, R243). -/
def Frame.jointFine (f : Frame) (j : JointRec) (p : Int) : Frame :=
  let t := List.zipWith (· + ·) f.t (matVec f.r j.tr)
  let r := matMul f.r j.rot
  if j.prism then
    { e := f.e + 62, r := r.map (· * 2 ^ 32), t := List.zipWith (fun x y => x * 2 ^ 62 + y) t (matVec r [0, 0, p * j.scale]) }
  else
    let a := wrapN 32 p
    let c := sinFine (a + 2 ^ 30)
    let sn := sinFine a
    { e := f.e + 150, r := matMul r [c, -sn, 0, sn, c, 0, 0, 0, 2 ^ 120], t := t.map (· * 2 ^ 150) }

/-- The last link's frame. -/
def lastFrame : Frame → List JointRec → List Int → Frame
  | f, [], _ => f
  | f, j :: t, p => lastFrame (f.jointFine j (p.headD 0)) t (p.drop 1)

/-- Position of c over 2^e and direction n over 2^(e+30), from a set-point vector (R243). -/
def State.loadPoint (s : State) (c : Nat) (p : List Int) : Nat × List Int × List Int :=
  let f := lastFrame Frame.cell (s.chain c) p
  (f.e, List.zipWith (· + ·) f.t (matVec f.r (vec3 (s.bench c) 128)), matVec f.r (vec3 (s.bench c) 140))

/-- The planned specific force in 2^-20 µm/s² (R243): exact but for an error within 16 units in the last place of a binary64
position, which the order of the binary64 operations leaves open. -/
def State.planForce (s : State) (c : Nat) (next now prev : List Int) : Int :=
  let (e, x1, _) := s.loadPoint c next
  let (_, x0, n) := s.loadPoint c now
  let (_, xm, _) := s.loadPoint c prev
  let T := s.mer.cycleLen
  let g : Int := s.bw c 24
  let acc (i : Nat) : Int := (comp x1 i - 2 * comp x0 i + comp xm i) * 1000000000000000000
  let grav (i : Nat) : Int := if i = 2 then g * (T * T : Nat) * 2 ^ e else 0
  let dot := (List.range 3).foldl (fun a i => a + (-(grav i) - acc i) * comp n i) 0
  let reach := ((x0 ++ x1 ++ xm).map Int.natAbs).foldl max 0 / 2 ^ e + 1
  let bound : Int := 4 * reach * 1000000000000000000 / (2 ^ 28 * (T * T) + 1) + 1
  dot * 2 ^ 20 / ((T * T : Nat) * 2 ^ (2 * e + 30)) + clampI (-bound) bound (Config.forceErr s.freeCtr)

/-- What the Cartouche kept of an axis at the datum `i` before the present one: its set-point, and whether it was in a moving state or
HOLD on a sheet in service (R232, R243, R245). -/
def State.pastAx (s : State) (i d axis : Nat) : Int × Bool := Table.get (fun _ => (0, false)) (s.crt.past.getD i []) (32 * d + axis)

/-- The set-point vector of a channel's chain that was issued at the datum `i` before the present one (R243). -/
def State.pastChain (s : State) (c i : Nat) : List Int := (s.chain c).map fun j => (s.pastAx i (s.chainDie c) j.axis).1

/-- The PLAN condition of R245 at the datum `i` before the present one. -/
def State.planHolds (s : State) (c i : Nat) : Bool := (s.chain c).all fun j => (s.pastAx i (s.chainDie c) j.axis).2

/-- The Cartouche takes the set-points that a datum issues (R232, R243). -/
def State.crtPast (s : State) : State :=
  let now : Table (Int × Bool) := s.trv.map fun kv => (kv.1, (kv.2.p, s.inService (kv.1 / 32) && (kv.2.st.moving || kv.2.st == .hold)))
  s.updCrt fun x => { x with past := (now.filter (fun kv => kv.2 != (0, false)) :: x.past).take 3 }

/-- What a window notes at datum `k` (R243, R245). -/
def State.winNote (s : State) (c k : Nat) (w : CrtWin) : CrtWin :=
  let arm := s.crtArm c
  let w : CrtWin := if w.s ≤ k + 2 ∧ k ≤ w.s + w.l ∧ !s.planHolds c 0 then { w with plan := true } else w
  if k < w.s ∨ w.s + w.l < k then w
  else
    let w : CrtWin := { w with safety := w.safety || (arm != 0 && (s.ctm.arm (arm - 1)).sst != 0), unsealed := w.unsealed || s.crt.store.unsealed }
    let f := fld (s.bw c 112) 0 12
    let acc := if s.flowAge ((k + 2 ^ 48 - 1) % 2 ^ 48) f = 0 then [sxt 32 (s.flowWord f (fld (s.bw c 112) 12 3))] else []
    { w with
      forces := s.planForce c (s.pastChain c 0) (s.pastChain c 1) (s.pastChain c 2) :: w.forces, accs := acc ++ w.accs,
      t0 := if k = w.s then some s.nowNs else w.t0, t1 := if k = w.s + w.l then some s.nowNs else w.t1 }

/-- A channel's share of a datum: a mode change, checked again against the state that the channel has by then, and the window (R238,
R243, R245). -/
def State.crtChDatum (s : State) (c : Nat) : State :=
  let s := match s.crt.cmd with
    | some k => if k.ch = c ∧ k.code ≤ 2 then
        let r := s.modeRefuse' c k.code
        let t := s.updCrt fun x => { x with cmd := none, cmdSt := r }
        if r = 0 then t.crtEnter c (if k.code = 1 then .static else .transfer) else t
      else s
    | none => s
  if (s.crtCh c).st = .off then s
  else
    let s := s.updCh' c fun x => { x with win := x.win.map fun w => s.winNote c s.mer.cycle w }
    { s with freeCtr := s.freeCtr + 1 }

/-- The Cartouche's share of a datum, after the set-points of the datum are issued. -/
def State.crtDatum (s : State) : State :=
  let s := s.crtPast
  if s.crtUp then (List.range 8).foldl (fun s c => s.crtChDatum c) s else s

/-- Why a window request is refused, 0 if it is not (R244): 1 BUSY, 2 STATE, 3 LATE, 4 RANGE, 5 RATE. -/
def State.winRefuse (s : State) (c S l : Nat) : Nat :=
  let x := s.crtCh c
  let T := s.mer.cycleLen
  if x.st = .window then 1
  else if x.st ≠ .transfer then 2
  else if S ≤ s.mer.cycle ∨ (S = s.mer.cycle + 1 ∧ s.mer.target < s.mer.phase + 1000 * unitNs) then 3
  else if l * T < 120000000 ∨ 4096 < l then 4
  else if x.lastS.any (fun p => decide ((S - p) * T * s.bw c 120 < 60000000000)) then 5
  else 0

/-- A write of CRT_WCTL.GO (R244). -/
def State.windowGo (s : State) : State :=
  let w := (s.rd (crtReg 0x30)).toNat
  let c := fld w 0 3
  let l := if fld w 4 12 = 0 then 4096 else fld w 4 12
  let S := s.rf (crtReg 0x34) 0 32 + s.rf (crtReg 0x38) 0 16 * 2 ^ 32
  let r := s.winRefuse c S l
  let s := s.updCrt fun x => { x with wst := r }
  if r ≠ 0 then s
  else
    let seen := (List.range 2).any fun i => decide (S ≤ s.mer.cycle + 2 - i) && !s.planHolds c i
    let win : CrtWin := { s := S, l := l, tag := s.rf (crtReg 0x3C) 16 16, zero := bitN w 3, plan := seen }
    (s.updCh' c fun x => { x with win := some win, lastS := some S }).crtEnter c .window

/-- WINDOW_REQUEST (R244). -/
def execWindowRequest (s : State) : Out := .next (if s.crtUp then s.windowGo else s)

/-- A sum of integers. -/
def sumI (l : List Int) : Int := l.foldl (· + ·) 0

/-- The first condition of R245 that fails before the mass is computed, 1 if none does. -/
def State.winResult (s : State) (c : Nat) (w : CrtWin) : Nat :=
  let n := w.forces.length
  let e := sumI w.forces
  let evar : Int := s.bw c 108 * 2 ^ 20
  let etol : Int := s.bw c 104 * 2 ^ 20
  let far : Bool := match f32Val (s.bw c 116) with
    | some (m, x) => decide (etol < ((scaleDiv (m * sumI w.accs * 2 ^ 20) x w.accs.length - fixDiv e n).natAbs : Int))
    | none => true
  if w.safety then 2
  else if w.plan then 3
  else if w.forces.any (fun f => decide (evar * n < ((f * n - e).natAbs : Int))) then 4
  else if w.accs.length * 10 < 9 * (w.l + 1) ∨ far then 5
  else if w.bad then 6
  else 1

/-- M_s × G_LOC ÷ ē_p in 2^-32 d, a fresh free value where ē_p is 0 (R245). -/
def State.winMass (s : State) (c : Nat) (w : CrtWin) : State × Int :=
  let (t, ms) := s.massOf c (sumI (w.got.map (·.v))) w.got.length
  let ep := fixDiv (sumI w.forces) w.forces.length
  if ep = 0 then ({ t with freeCtr := t.freeCtr + 1 }, Config.freeMass t.freeCtr) else (t, divSigned (ms * s.bw c 24 * 2 ^ 20) ep)

/-- The window of a channel ends (R245, R246): result, mailbox and event. -/
def State.windowEnd (s : State) (c : Nat) (w : CrtWin) : State :=
  let x := s.crtCh c
  let r0 := s.winResult c w
  let (t, full) := s.winMass c w
  let (t, nw) := if w.got.length < 65536 then (t, w.got.length) else t.freshWord 65536
  let m := full - x.mg
  let bm : Int := s.bw c 100 * oneD
  let r1 := if r0 ≠ 1 then r0 else if s.maxQ c + 9 * oneD < m then 7 else if m < -20 * oneD then 8 else 1
  let r := if r1 = 1 ∧ w.zero ∧ s.maxQ c < 25 * ((full - bm).natAbs : Int) then 9 else r1
  let mg := if r = 1 ∧ w.zero then full else x.mg
  let wt := if r = 1 ∧ !w.zero then roundHalfAway m (2 ^ 32) else 0
  let rec_ : MailRec :=
    { result := r, legal := r == 1 && !w.unsealed && !s.crt.store.unsealed, ovr := r == 7, net := r == 1 && !w.zero, under := r == 8, underMin := r == 1 && !w.zero && decide (wt < (s.bw c 20 : Int)),
      zeroWin := w.zero, weight := wt, tare := roundHalfAway mg (2 ^ 32), nsamp := nw, time := (w.t0.getD 0 + w.t1.getD 0) / 2, tag := w.tag }
  let ws := t.mailWords c rec_
  (t.updCh' c fun x => { x with mg := mg, win := none, last := ws }).crtEnter c .transfer

/-- WINDOW_END: at datum S + L + 2 (R245). -/
def execWindowEnd (ch : Fin 8) (s : State) : Out :=
  let x := s.crtCh ch.val
  .next (match x.win with
    | some w => if s.crtUp && x.st == .window && decide (w.s + w.l + 2 ≤ s.mer.cycle) then s.windowEnd ch.val w else s
    | none => s)

end Sys2Proof.Machine
end

