-- ==== Sys2Proof/Machine/CrtLegal.lean ====
section
/-! DEFINITION. The legal side of the Cartouche: Benchmark records, audit trail, event counter, seal and legal requests, the
restart, and the CRT registers (R234, R249–R255). -/

namespace Sys2Proof.Machine

/-- Change the legal store. -/
def State.updStore (s : State) (f : CrtStore → CrtStore) : State := s.updCrt fun x => { x with store := f x.store }

/-! ### Restart and Benchmark records (R234, R237, R249, R250) -/

/-- A record holds the CRC-32C of its bytes 0–507 (R249). -/
def recCrcOk (l : List Byte) : Bool := l.length == 512 && crcOf (l.take 508) == leAt l 508 4

/-- The joint count of a channel's record. -/
def State.jointCount (s : State) (c : Nat) : Nat := fld (s.bw c 124) 0 4

/-- The continuation record of a channel agrees with its channel record (R250). -/
def State.contOk (s : State) (c : Nat) : Bool :=
  let l := s.bench (8 + c)
  s.jointCount c ≤ 6 || (recCrcOk l && leAt l 0 1 == c && leAt l 1 1 == 1 && fld (leAt l 4 4) 0 2 + 6 == s.jointCount c)

/-- A channel has a valid Benchmark record. -/
def State.hasRec (s : State) (c : Nat) : Bool := !(s.bench c).isEmpty && bitN (s.bw c 0) 10

/-- The state that a channel's record names (R234, R238): with both kinds allowed, STATIC (assumption log 60). -/
def State.recState (s : State) (c : Nat) : CrtSt :=
  if !s.hasRec c then .off else if bitN (s.bw c 0) 8 then .static else if bitN (s.bw c 0) 9 then .transfer else .off

/-- EXC_CHOP is held low while no running channel chops (R236). -/
def State.chopRest (s : State) : State :=
  if (List.range 8).any fun c => (s.crtCh c).st != .off && s.chop c != 0 then s else s.updCrt fun x => { x with exc := false }

/-- Start a channel anew from its record: a failed check holds it in OFF (R234, R246, R250). A rewrite keeps the last transfer result, and
the state where the record still allows it (R247, R248; assumption log 71). -/
def State.startCh (s : State) (c : Nat) (fail restart : Bool) : State :=
  let x := s.crtCh c
  let bad := fail || (s.hasRec c && !(recCrcOk (s.bench c) && s.contOk c))
  let st := if bad then CrtSt.off else if !restart && x.st != .off && s.hasRec c && s.allows c x.st then x.st else s.recState c
  let y : CrtCh := { fail := bad, st := if st = x.st then st else .off, seq := x.seq, mail := x.mail, lastS := x.lastS, mg := s.bw c 100 * oneD, last := if restart then [] else x.last }
  let t := s.updCh' c fun _ => y
  (if st = x.st then t else t.crtEnter c st).chopRest

/-- An entry of the audit trail (R251). An entry that counts increments the legal event counter; past the top of the counter
its value is free, and the counter stays spent. -/
def State.trailAdd (s : State) (kind obj seq old new : Nat) : State :=
  let (t, n) := if kind = 7 then (s, s.crt.store.evcnt) else if s.crt.store.evcnt + 1 < 2 ^ 32 then (s, s.crt.store.evcnt + 1) else s.freshWord (2 ^ 32)
  let e : TrailE := { cnt := n, ns := t.ns, sec := t.mer.sec, kind := kind, obj := obj % 65536, seq := seq % 65536, old := old, new := new }
  t.updStore fun x => { x with evcnt := n, trail := x.trail ++ [e], spent := x.spent || decide (kind ≠ 7 ∧ 2 ^ 32 - 1 ≤ s.crt.store.evcnt + 1) }

/-- An entry whose object and contents the spec does not state. -/
def State.trailFree (s : State) (kind : Nat) (seq : Option Nat) : State :=
  let (s, obj) := s.freshWord 65536
  let (s, q) := match seq with
    | some q => (s, q)
    | none => s.freshWord 65536
  let (s, old) := s.freshWord (2 ^ 32)
  let (s, new) := s.freshWord (2 ^ 32)
  s.trailAdd kind obj q old new

/-- A change of the seal: the state and event SEAL, whose SEQ byte the spec does not state (R254, R255). A window that has begun and not
ended its datums was not sealed throughout (R245). -/
def State.sealTo (s : State) (opened : Bool) : State :=
  let s := s.updStore fun x => { x with unsealed := opened }
  let s := if opened then s.updCrt fun x => { x with chs := x.chs.map fun kv => (kv.1, { kv.2 with win := kv.2.win.map fun w => { w with unsealed := w.unsealed || (w.t0.isSome && w.t1.isNone) } }) } else s
  let (s, b) := s.freshWord 256
  s.fireMasked (crtReg 0x14) 3 (3 * 65536 + 255 * 256 + b)

/-- The records that fail their own check at a restart (R234). -/
def State.badRecs (s : State) : List Nat := (List.range 16).filter fun i => !(s.bench i).isEmpty && !recCrcOk (s.bench i)

/-- The channels whose record does not agree with its continuation record, which are held in OFF each by itself (R250). -/
def State.badPairs (s : State) : List Nat := (List.range 8).filter fun c => s.hasRec c && !s.contOk c

/-- The Cartouche restarts (R233, R234). A failed check of the program or of a record holds every channel in OFF; a pair that does not
agree holds its channel (R250). Each failure is logged. -/
def State.crtRestart (s : State) : State :=
  let s := s.updCrt fun x => { x with down := false, held := none }
  let progBad := crcOf s.crt.store.program != s.crt.store.swcrc
  let s := if progBad then
      let (t, i) := s.freshWord 16
      t.log 0x0801 4 0 0x09 i 0 0
    else s
  let bad := s.badRecs
  let s := (bad ++ (s.badPairs.map (· + 8)).filter fun i => !bad.contains i).foldl (fun s i => s.log 0x0801 4 0 0x09 i 0 0) s
  let s := if s.crt.store.unsealed then (s.trailFree 6 none).sealTo false else s
  let s := (List.range 8).foldl (fun s c => s.startCh c (progBad || !bad.isEmpty) true) s
  s.log 0x0800 1 0 0x09 0 s.crt.store.swid s.crt.store.swcrc

/-- CARTOUCHE_RESTART: after a reset or a program change (R234, R254). -/
def execCartoucheRestart (s : State) : Out := .next (if s.powered && !s.sys.wrst && s.crt.down then s.crtRestart else s)

/-! ### Legal requests (R232, R252–R254) -/

/-- Entries of the audit trail that are free (R251). -/
def State.trailFreeN (s : State) : Nat := 1024 - s.crt.store.trail.length

/-- Set CRT_LST.RESULT. -/
def State.lstTo (s : State) (r : Nat) : State := s.updCrt fun x => { x with lst := r }

/-- A signature failed: a KEYREF entry while at least 2 entries are free, else a count (R252, R253). -/
def State.keyRef (s : State) (seq : Nat) : State :=
  if 2 ≤ s.trailFreeN then s.trailFree 8 (some seq) else s.updCrt fun x => { x with keyLost := min 255 (x.keyLost + 1) }

/-- The request reader: the 16 bytes at CRT_LADDR, then LEN bytes; none where LEN or the range is outside its limits or the
bytes cannot be read (R232). -/
def State.legalRead (s : State) : State × Option (List Byte) :=
  let a := s.rf (crtReg 0x20) 0 32 * 256
  if !hubRange a 16 then (s, none)
  else
    match s.readMem a 16 1 with
    | (t, none) => (t, none)
    | (t, some h) =>
      let n := leAt h 8 4
      if n < 96 ∨ 524384 < n ∨ !hubRange a n then (t, none) else t.readMem a n 1

/-- The layout of a legal request (R253). -/
def legalFormat (l : List Byte) : Bool :=
  let kind := leAt l 4 1
  let n := leAt l 8 4
  leAt l 0 4 == 0x54524143 && (kind == 1 || kind == 3 || kind == 4 || kind == 5) && leAt l 6 2 == 0 &&
    (if kind = 3 then decide (leAt l 5 1 < 16) else leAt l 5 1 == 0) && (kind == 5 || leAt l 24 4 == 0) && leAt l 28 4 == 0 &&
    (if kind = 3 then n == 608 else kind == 4 || n == 96)

/-- A Benchmark record is refused (R237, R241, R249, R250). -/
def State.recRefused (s : State) (i : Nat) (l : List Byte) : Bool :=
  if 8 ≤ i then !(recCrcOk l && leAt l 0 1 == i - 8 && leAt l 1 1 == 1)
  else
    let cls := fld (leAt l 4 4) 0 4
    let most := leAt l 16 4
    let collides := (List.range 8).any fun c => c != i && s.hasRec c && (leAt l 0 1 &&& s.lcmask c) != 0
    !recCrcOk l || (cls == 1 && decide (20000 < most)) || (cls == 2 && decide (6000 < most)) ||
      ((cls == 2 || cls == 3) && decide (leAt l 20 4 < 20)) || collides

/-- A window that a rewritten record ends with result ABORTED (R247). -/
def State.abortWin (s : State) (c : Nat) : State :=
  let x := s.crtCh c
  match x.win with
  | none => s
  | some w =>
    let (t, time) := s.freshWord (2 ^ 78)
    let ws := t.mailWords c { result := 10, zeroWin := w.zero, tare := roundHalfAway x.mg (2 ^ 32), nsamp := w.got.length % 65536, time := time, tag := w.tag }
    (t.updCh' c fun x => { x with win := none, last := ws }).crtEnter c .transfer

/-- An accepted BENCHMARK request (R249–R251). -/
def State.putRecord (s : State) (i seq : Nat) (l : List Byte) : State :=
  let c := i % 8
  let (s, old) := if (s.bench i).isEmpty then s.freshWord (2 ^ 32) else (s, leAt (s.bench i) 508 4)
  let hit := decide (i < 8) || decide (6 < s.jointCount c)
  let s := if hit then s.abortWin c else s
  let s := (s.trailAdd 4 i seq old (leAt l 508 4)).updStore fun x => { x with recs := Table.set (fun _ => []) x.recs i l }
  if hit then s.startCh c false false else s

/-- An accepted PROGRAM request: the image waits in the request buffer (R254). -/
def State.holdProgram (s : State) (seq : Nat) (p : List Byte) : State :=
  let crc := crcOf p
  (s.trailAdd 5 (Config.programVersion crc) seq s.crt.store.swcrc crc).updCrt fun x => { x with held := some p }

/-- TRAIL_ACK frees every entry up to the counter value it names, oldest first (R252). -/
def freeUpTo (n : Nat) (l : List TrailE) : List TrailE := l.dropWhile fun e => decide (e.cnt ≤ n)

/-- Start the session timer (R254). -/
def State.startTimer (s : State) : State := s.updCrt fun x => { x with timer := s.upNs }

/-- A request whose signature holds: STATE, TRAILFULL, REFUSED, or its effect (R249, R252, R254). -/
def State.legalEffect (s : State) (l : List Byte) : State :=
  let seq := leAt l 12 4
  let pay := (l.take (l.length - 64)).drop 32
  let opened := s.crt.store.unsealed
  let acc (s : State) : State := (s.updStore fun x => { x with seqno := seq }).lstTo 1
  match leAt l 4 1 with
  | 1 =>
    if opened then s.lstTo 6 else if s.trailFreeN < 2 then s.lstTo 7
    else acc ((s.trailFree 1 (some seq)).startTimer.sealTo true)
  | 3 =>
    if !opened then s.lstTo 6 else if s.trailFreeN < 2 then s.lstTo 7
    else if s.recRefused (leAt l 5 1) pay then s.lstTo 10
    else acc (s.putRecord (leAt l 5 1) seq pay).startTimer
  | 4 =>
    if !opened then s.lstTo 6 else if s.trailFreeN < 2 then s.lstTo 7
    else acc (s.holdProgram seq pay).startTimer
  | _ =>
    let left := freeUpTo (leAt l 24 4) s.crt.store.trail
    if 1024 < left.length + (if opened then 2 else 1) then s.lstTo 7
    else acc ((s.updStore fun x => { x with trail := left }).trailFree 7 (some seq))

/-- CRT_LCTL.GO: the request at CRT_LADDR is read into the request buffer and checked there (R232, R252–R254). -/
def State.legalGo (s : State) : State :=
  match s.legalRead with
  | (s, none) => s.lstTo 4
  | (s, some l) =>
    let kind := leAt l 4 1
    let seq := leAt l 12 4
    let s := if kind = 4 then s.updCrt fun x => { x with held := none } else s
    if !legalFormat l then s.lstTo 4
    else if leAt l 16 4 ≠ s.sys.uid0 ∨ leAt l 20 4 ≠ s.sys.uid1 then s.lstTo 9
    else if seq ≤ s.crt.store.seqno then s.lstTo 5
    else if (s.crt.store.spent ∨ s.crt.store.evcnt = 2 ^ 32 - 1) ∧ kind ≠ 5 then s.lstTo 8
    else if !((s.topKey 3).any fun k => ecdsaOk k (l.drop (l.length - 64)) (sha256 (l.take (l.length - 64)))) then (s.keyRef seq).lstTo 3
    else s.legalEffect l

/-- A legal request of a kind stands at CRT_LADDR. -/
def State.legalKind (s : State) (k : Nat) : Bool := s.crtUp && s.byte (s.rf (crtReg 0x20) 0 32 * 256 + 4) == BitVec.ofNat 8 k

/-- UNSEAL: a request of that kind is submitted (R253, R254). -/
def execUnseal (s : State) : Out := .next (if s.legalKind 1 then s.legalGo else s)

/-- BENCHMARK (R249, R250, R253). -/
def execBenchmark (s : State) : Out := .next (if s.legalKind 3 then s.legalGo else s)

/-- PROGRAM (R253, R254). -/
def execProgram (s : State) : Out := .next (if s.legalKind 4 then s.legalGo else s)

/-- TRAIL_ACK (R252, R253). -/
def execTrailAck (s : State) : Out := .next (if s.legalKind 5 then s.legalGo else s)

/-- The session closes by RESEAL (2) or TIMEOUT (3): the entry, the seal, and the change to a held program, after which the
Cartouche restarts (R254). -/
def State.closeSession (s : State) (kind : Nat) : State :=
  let s := (s.trailFree kind none).sealTo false
  match s.crt.held with
  | none => s
  | some p =>
    let crc := crcOf p
    s.updCrt fun x =>
      { x with held := none, down := true, exc := false, chs := Table.mapV {} (fun (y : CrtCh) => { seq := y.seq, ovrAt := y.ovrAt }) x.chs, ins := [], cmd := none, cmdSt := 0, store := { x.store with program := p, swid := Config.programVersion crc % 2 ^ 32, swcrc := crc } }

/-- CRT_LCTL.RESEAL written with 1 (R254). -/
def State.reseal (s : State) : State := if s.crt.store.unsealed then s.closeSession 2 else s

/-- RESEAL (R254). -/
def execReseal (s : State) : Out := .next (if s.crtUp then s.reseal else s)

/-- The session timer, 60 min in ns (R254). -/
def sessionNs : Nat := 3600000000000

/-- TIMEOUT: the session timer has expired (R254). -/
def execTimeout (s : State) : Out :=
  .next (if s.crtUp && s.crt.store.unsealed && decide (s.crt.timer + sessionNs ≤ s.upNs) then s.closeSession 3 else s)

/-! ### Registers (R255) -/

/-- The words of an audit-trail entry (R251). -/
def TrailE.words (e : TrailE) : List Nat :=
  let b := [e.cnt, e.ns, e.sec % 2 ^ 32, e.sec / 2 ^ 32 % 65536 + e.kind * 65536, e.obj + e.seq * 65536, e.old, e.new]
  b ++ [crcOf (b.flatMap (toBytes 4))]

/-- The entry that CRT_TRSEL selects; all 0 beyond TRUSED. -/
def State.trailSel (s : State) : List Nat :=
  match s.crt.store.trail[s.rf (crtReg 0x48) 0 10]? with
  | some e => e.words
  | none => []

/-- CRT_CHn_STAT but for OVRCNT. -/
def State.crtChStat (s : State) (c : Nat) : Nat :=
  let x := s.crtCh c
  let ins := (List.range 8).filter fun i => bitN (s.lcmask c) i
  let sense := x.st != .off && ins.any fun i => (Table.get (fun _ => ({} : CrtIn)) s.crt.ins i).low == 10
  let f := if x.fail then 1 else if sense then 2 else if x.ovrAt.any fun a => decide (s.nowNs < a + 20000000) then 3 else 0
  x.st.code + f * 256

/-- The words of a mailbox; STATE reads OFF while the Cartouche is down (R234, R248). LEGAL reads 1 only while the seal is SEALED (R248,
R254; assumption log 66). -/
def State.mailbox (s : State) (c : Nat) : List W32 :=
  if s.crtUp then (s.crtCh c).issue s.crt.store.unsealed (s.crtCh c).mail else []

/-- The bits of a CRT register that hardware keeps. TMOMIN rounds in a direction that the spec leaves open. -/
def State.crtRead (s : State) (off : Nat) : Nat :=
  let x := s.crt
  let n := x.store.trail.length
  match off with
  | 0x00 => 8 + 2 ^ 16
  | 0x04 =>
    let left : Int := (sessionNs - (s.upNs - x.timer) : Nat)
    b01 (x.store.unsealed && s.crtUp) + n * 4 + b01 (n == 1024) * 2 ^ 13 + x.keyLost * 2 ^ 16 + (if x.store.unsealed && s.crtUp then (fixDiv left 60000000000).toNat % 256 else 0) * 2 ^ 24
  | 0x08 => x.store.evcnt
  | 0x0C => x.store.swid
  | 0x10 => x.store.swcrc
  | 0x28 => x.lst
  | 0x3C => x.wst
  | 0x44 => x.cmdSt
  | _ => if 0x100 ≤ off ∧ off < 0x120 then s.crtChStat ((off - 0x100) / 4) else 0

end Sys2Proof.Machine
end

