-- ==== Sys2Proof/Machine/HostPort.lean ====
section
/-! DEFINITION. The host ports: link, filter, time-stamps, one-step insertion, pass-through and heartbeats (R304–R310). -/

namespace Sys2Proof.Machine

/-- A register of HNA or HNB. -/
def hn (portB : Bool) (off : Nat) : Nat := rg 0 (if portB then 6 else 5) off

/-- The host ports run: power is good and WRST_N is high (R310). -/
def State.hostUp (s : State) (b : Bool) : Bool := s.powered && !s.sys.wrst && (s.host b).on

/-! ### Link -/

/-- EN of HNx_CTL (R310). -/
def State.hostEn (s : State) (b on : Bool) : State :=
  let s := s.setRf (hn b 0x04) 0 1 (b01 on)
  let h := s.host b
  s.setHost b { h with on := on && !s.sys.wrst, link := h.link && on }

/-- HOST_PORT_ENABLE (R310). -/
def execHostPortEnable (portB on : Bool) (s : State) : Out := .next (if s.powered then s.hostEn portB on else s)

/-- A host port gains or loses link (R310). -/
def State.hostLink (s : State) (b up speedOk : Bool) : State :=
  if !s.hostUp b then s
  else
    let s := s.setHost b { s.host b with link := up && speedOk }
    if up && !speedOk then s.setRf (hn b 0x08) 1 1 1 else s

/-- LINK_CHANGE: a bus or host port gains or loses link (R256, R310). -/
def execLinkChange (chB port host up speedOk : Bool) (s : State) : Out :=
  .next (if host then s.hostLink port up speedOk else s.busLink chB port up speedOk)

/-! ### PTP messages -/

/-- A number from big-endian bytes at an offset. -/
def beAt (l : List Byte) (o n : Nat) : Nat := ofBytesBE ((l.drop o).take n)

/-- Big-endian bytes of a number. -/
def toBytesBE (n v : Nat) : List Byte := (toBytes n v).reverse

/-- Where the Ethernet payload begins: after one VLAN tag if there is one. -/
def payloadAt (l : List Byte) : Nat := if beAt l 12 2 = 0x8100 then 18 else 14

/-- Offset of a PTP event message in a frame, under the ENCAP of the port (R304); only Sync and Delay_Req. -/
def ptpAt (encap : Bool) (l : List Byte) : Option Nat :=
  let p := payloadAt l
  let typ := beAt l (p - 2) 2
  let ihl := leAt l p 1 % 16 * 4
  let o := if encap then p + ihl + 8 else p
  let there := if encap then typ == 0x0800 && leAt l p 1 / 16 == 4 && leAt l (p + 9) 1 == 17 && beAt l (p + ihl + 2) 2 == 319
    else typ == 0x88F7
  if there && decide (o + 44 ≤ l.length) && decide (leAt l o 1 % 16 ≤ 1) then some o else none

/-- ENCAP in force. -/
def HostSt.encap (h : HostSt) : Bool := h.tscfg.getLsbD 3

/-- The Meridian time (2^-16 ns) at which a frame crossed the PHY's medium, from the instant at which it reached the XN (R302). -/
def HostSt.rxAt (h : HostSt) (ts : Nat) : Nat := ts - 65536 * fld h.tscfg.toNat 8 8

/-- The Meridian time at which a frame crosses the PHY's medium, from the instant at which it leaves the XN (R302; the sign is that
of the definition of the time-stamp, assumption log 120). -/
def HostSt.txAt (h : HostSt) (ts : Nat) : Nat := ts + 65536 * fld h.tscfg.toNat 16 8

/-- A time-stamp FIFO entry for a message at offset `o` (R305). -/
def State.tsEntry (s : State) (h : HostSt) (l : List Byte) (o ts : Nat) : TsEntry :=
  let (sec, ns, _) := split16 (if h.tscfg.getLsbD 4 then s.ptp ts else ts)
  { seqId := beAt l (o + 30) 2, msgType := leAt l o 1 % 16, domain := leAt l (o + 4) 1, ns := ns, sec := sec }

/-- Count in an 8-bit field of HNx_TSCNT. -/
def State.tsCount (s : State) (b : Bool) (lo : Nat) : State := s.count (hn b 0x130) lo 8

/-- Enter a received time-stamp (R305). -/
def State.rxStamp (s : State) (b : Bool) (l : List Byte) (ts : Nat) : State :=
  let h := s.host b
  match if h.tscfg.getLsbD 0 then ptpAt h.encap l else none with
  | none => s
  | some o => if h.rxTs.length < 16 then s.setHost b { h with rxTs := h.rxTs ++ [s.tsEntry h l o ts] } else s.tsCount b 0

/-- Enter the departure time of a sent Delay_Req (R305). -/
def State.txStamp (s : State) (b : Bool) (l : List Byte) (ts : Nat) : State :=
  let h := s.host b
  match ptpAt h.encap l with
  | none => s
  | some o =>
    if leAt l o 1 % 16 ≠ 1 then s
    else if h.txTs.length < 16 then s.setHost b { h with txTs := h.txTs ++ [s.tsEntry h l o ts] } else s.tsCount b 8

/-- Whether a message that the XN sends is two-step, which leaves without insertion (R304). -/
def twoStep (l : List Byte) (o : Nat) : Bool := bitN (leAt l (o + 6) 1) 1

/-- The UDP checksum is set to 0 (R306). -/
def noChecksum (encap : Bool) (l : List Byte) (o : Nat) : List Byte := if encap then putAt l (o - 2) [0#8, 0#8] else l

/-- Increase correctionField. -/
def addCorrection (l : List Byte) (o : Nat) (c : Int) : List Byte :=
  putAt l (o + 8) (toBytesBE 8 (wrapN 64 ((beAt l (o + 8) 8 : Int) + c)))

/-- One-step insertion at departure `ts` (R306). -/
def State.oneStep (s : State) (h : HostSt) (l : List Byte) (ts : Nat) : List Byte :=
  match if h.tscfg.getLsbD 1 then ptpAt h.encap l else none with
  | none => l
  | some o =>
    if twoStep l o then l
    else
      let (sec, ns, frac) := split16 (s.ptp ts)
      noChecksum h.encap (addCorrection (putAt l (o + 34) (toBytesBE 6 sec ++ toBytesBE 4 ns)) o frac) o

/-- The residence of a passed-through message in PTP time (R307). -/
def State.residence (s : State) (ingress egress : Nat) : Int :=
  let r : Int := (egress : Int) - ingress
  Int.tdiv (r * (2 ^ 40 + sxt 32 s.mer.bindRate.toNat)) (2 ^ 40)

/-- One's complement sum of big-endian 16-bit words. -/
def sum16 : List Byte → Nat
  | [] => 0
  | [a] => a.toNat * 256
  | a :: b :: t =>
    let x := a.toNat * 256 + b.toNat + sum16 t
    x % 65536 + x / 65536

/-- The UDP checksum of a message at offset `o` computed over the written bytes (R303); one that was 0 stays 0. -/
def udpFix (l : List Byte) (o : Nat) : List Byte :=
  if beAt l (o - 2) 2 = 0 then l
  else
    let p := payloadAt l
    let n := beAt l (o - 4) 2
    let x := putAt l (o - 2) [0#8, 0#8]
    let c := 65535 - sum16 (slice x (p + 12) 8 ++ toBytesBE 2 17 ++ toBytesBE 2 n ++ slice x (o - 8) n)
    putAt l (o - 2) (toBytesBE 2 (if c = 0 then 65535 else c))

/-- A passed-through frame at its departure (R307): each Sync and Delay_Req is corrected, its two-step flag ignored (R305). -/
def State.passed (s : State) (h : HostSt) (l : List Byte) (ingress egress : Nat) : List Byte :=
  match ptpAt h.encap l with
  | none => l
  | some o =>
    let x := addCorrection l o (s.residence ingress egress)
    if h.encap then udpFix x o else x

/-! ### Reception -/

/-- The address in a pair of registers. -/
def State.macOf (s : State) (b : Bool) (off : Nat) : Nat := s.rf (hn b (off + 4)) 0 16 * 2 ^ 32 + (s.rd (hn b off)).toNat

/-- The receive filter (R310). -/
def State.hostKeeps (s : State) (b : Bool) (l : List Byte) : Bool :=
  let d := beAt l 0 6
  let group := bitN (leAt l 0 1) 0
  let mac := s.macOf b 0x0C
  let named := (List.range 8).any fun m => s.rb (hn b (0x24 + 8 * m)) 31 && s.macOf b (0x20 + 8 * m) == d
  let ctl (i : Nat) : Bool := s.rb (hn b 0x04) i
  (group || mac != 0) && (d == mac || (d == 2 ^ 48 - 1 && ctl 3) || named || (group && ctl 2) || ctl 1)

/-- Whether a frame is a heartbeat on the partner port (R310). -/
def State.isBeat (s : State) (b : Bool) (l : List Byte) : Bool :=
  s.rdn.paired && s.rdn.portB == b && beAt l 12 2 == 0x88B6 && beAt l 0 6 == 0x03564200000C

/-- Pass a frame through to the other port (R307): one is held per direction, a further one is dropped and counted. -/
def State.passThrough (s : State) (b : Bool) (l : List Byte) (ts : Nat) : State :=
  let h := s.host (!b)
  if !s.hostA.tscfg.getLsbD 2 || !h.on || !h.link then s
  else if h.held.isSome then s.tsCount false 16
  else s.setHost (!b) { h with held := some (l, ts) }

/-- Deliver a kept frame to the receive FIFO (R310). -/
def State.hostDeliver (s : State) (b : Bool) (rx : HostRx) : State :=
  if !s.hostKeeps b rx.bytes then s
  else
    let s := s.rxStamp b rx.bytes ((s.host b).rxAt rx.ts)
    let h := s.host b
    if fifoBytes h.rx + rx.bytes.length ≤ 16384 then (s.setHost b { h with rx := h.rx ++ [rx.bytes] }).count (hn b 0x64) 0 16
    else s.count (hn b 0x60) 0 16

/-- HOST_FRAME_RECEIVE (R305, R307, R310). -/
def execHostFrameReceive (portB : Bool) (rx : HostRx) (s : State) : Out :=
  .next (let n := rx.bytes.length + 4
    if !s.hostUp portB || !(s.host portB).link then s
    else if !rx.fcsOk || decide (n < 64) || decide (1522 < n) then s.count (hn portB 0x60) 16 16
    else
      let s := s.passThrough portB rx.bytes ((s.host portB).rxAt rx.ts)
      if s.isBeat portB rx.bytes then s.beatIn (rx.bytes.drop 14) else s.hostDeliver portB rx)

/-! ### Transmission -/

/-- A heartbeat at its departure: TSTAMP and CRC (R303, R349). -/
def beatAt (l : List Byte) (ns sec : Nat) : List Byte :=
  let x := putAt l 30 (toBytes 4 ns ++ toBytes 6 sec)
  putAt x 74 (toBytes 4 (crcOf ((x.drop 14).take 60)))

/-- HOST_FRAME_TRANSMIT: the next frame leaves, `frac` 2^-16 ns after the present instant: a heartbeat, else a passed-through
frame, else the oldest of the FIFO; the FCS is computed over the bytes written and appended (R303, R305, R306, R307, R310). -/
def execHostFrameTransmit (portB : Bool) (frac : BitVec 16) (s : State) : Out :=
  .next (let h := s.host portB
    let ts := h.txAt (s.now16 + frac.toNat)
    let wire (l : List Byte) : List Byte := l ++ fcsOf l
    if !s.hostUp portB || !h.link then s
    else
      match h.beat, h.held, h.tx with
      | some l, _, _ => s.setHost portB { h with beat := none, sent := wire (beatAt l (ts / 65536 % 1000000000) (ts / 65536 / 1000000000)) }
      | none, some (l, t0), _ =>
        (s.setHost portB { h with held := none, sent := wire (s.passed h l t0 ts) }).txStamp portB l ts
      | none, none, l :: rest =>
        let s := s.setHost portB { h with tx := rest, sent := wire (s.oneStep h l ts) }
        (s.txStamp portB l ts).count (hn portB 0x64) 16 16
      | none, none, [] => s)

/-! ### Time-stamp FIFOs -/

/-- The four words of a FIFO entry; zeros when the FIFO was empty. -/
def tsWords : Option TsEntry → List W32
  | none => [0, 0, 0, 0]
  | some e =>
    [BitVec.ofNat 32 (e.seqId + e.msgType * 65536 + e.domain * 2 ^ 20 + 2 ^ 31), BitVec.ofNat 32 e.ns, BitVec.ofNat 32 e.sec,
      BitVec.ofNat 32 (e.sec / 2 ^ 32)]

/-- Capture words at a register and those above it (R13). -/
def State.capWords (s : State) (r : Nat) : List W32 → State
  | [] => s
  | w :: t => (s.setCap r w).capWords (r + 4) t

/-- A read of word 0 of the receive FIFO: captures and removes the oldest entry (R305). -/
def State.readRxTs (s : State) (b : Bool) : W32 × State :=
  let h := s.host b
  let ws := tsWords h.rxTs.head?
  (ws.headD 0, (s.setHost b { h with rxTs := h.rxTs.drop 1 }).capWords (hn b 0x110) ws)

/-- The same of the transmit FIFO. -/
def State.readTxTs (s : State) (b : Bool) : W32 × State :=
  let h := s.host b
  let ws := tsWords h.txTs.head?
  (ws.headD 0, (s.setHost b { h with txTs := h.txTs.drop 1 }).capWords (hn b 0x120) ws)

/-- Answer a register read to the external master. -/
def answerRead (x : W32 × State) : State := { x.2 with busData := x.1 }

/-- RXTS_READ (R305). -/
def execRxtsRead (portB : Bool) (s : State) : Out := .next (if s.powered then answerRead (s.readRxTs portB) else s)

/-- TXTS_READ (R305). -/
def execTxtsRead (portB : Bool) (s : State) : Out := .next (if s.powered then answerRead (s.readTxTs portB) else s)

/-- HNx_TSCFG in force from the datum. -/
def State.hostDatum (s : State) : State :=
  let s := s.setHost false { s.hostA with tscfg := s.rd (hn false 0x100) }
  s.setHost true { s.hostB with tscfg := s.rd (hn true 0x100) }

end Sys2Proof.Machine
end

