-- ==== Sys2Proof/Machine/Boot.lean ====
section
/-! DEFINITION. Power-on reset, warm reset and boot (R301, R317, R344, R371–R374, R387). -/

namespace Sys2Proof.Machine

/-! ### Power-on reset -/

/-- Everything resets but what is not volatile: fuses, flashes, the Cartouche's stores, what stands at the safe input pins, and what is
fixed in the package
(R301, R344, R358, R364, R376). -/
def State.powerReset (s : State) (porst internal : Bool) (cause : Nat) : State :=
  let f := s.sfy
  { ({} : State) with
    pending := s.pending, busData := s.busData, freeCtr := s.freeCtr
    sys := { member := s.sys.member, stepping := s.sys.stepping, uid0 := s.sys.uid0, uid1 := s.sys.uid1, strapCompat := s.sys.strapCompat, priSel := s.sys.priSel, porst := porst, internal := internal, orOk := s.sys.orOk }
    ctm := { pins := s.ctm.pins, off := s.ctm.off }
    crt := { store := s.crt.store }
    sfy := { flashA := f.flashA, flashB := f.flashB, minSeq := f.minSeq, raises := f.raises, keys := f.keys, lastSeq := f.lastSeq, lastRst := cause } }

/-- PORST_N_LOW (R301, R317, R344). -/
def execPorstNLow (s : State) : Out := .next (s.powerReset true s.sys.internal 1)

/-- The internal reset is asserted; its hold begins (R344). -/
def State.internalReset (s : State) : State :=
  if s.sys.internal then s.updSys fun y => { y with orOk := 0 } else (s.powerReset s.sys.porst true 3).updSys fun y => { y with orOk := 0 }

/-- INTERNAL_RESET (R344, R390). -/
def execInternalReset (s : State) : Out := .next s.internalReset

/-! ### Boot steps 3 to 9 (R371) -/

/-- CONFIG applies (R369): VBA_CTL, RDN_CFG and MER_CYCLE are written, and the redundancy state is that of power-on. -/
def State.applyConfig (s : State) (l : List Byte) : State :=
  let w := leAt l 0 4
  let node := fld w 0 8
  let partner := fld w 24 8
  let s := if 1 ≤ node ∧ node ≤ 250 then s.setRf (vba 0x100) 8 8 node else s
  let s := s.setRf (vba 0x100) 16 3 (fld w 8 3)
  let s := if 1 ≤ partner ∧ partner ≤ 250 then s.setRf (rdnReg 0x00) 8 8 partner else s
  let s := s.wr (merR 0x20) (plainWrite (merR 0x20) (s.rd (merR 0x20)) (BitVec.ofNat 32 (leAt l 4 4)))
  let paired := bitN w 12
  { s with rdn := { s.rdn with paired := paired, portB := bitN w 13, actOut := false, holdDone := false, st := if paired then .standby else .active }, sfy := { s.sfy with config := l } }

/-- Surveyor readmits a sheet at boot; `failed` is the check that failed, 0 for none (R371, R380). -/
def State.bootAdmit (s : State) (d failed : Nat) : State :=
  let s := s.startReadmit d
  if failed = 0 then (s.putInService d).sheetTo d .inService else (s.log 0x0202 3 0 0x0A d failed 0).sheetTo d .retired

/-- A CODE section is copied; one for a sheet that is not in service is skipped, with an entry for a fitted sheet (R369). -/
def State.copySect (s : State) (x : BSect) : State :=
  match sramDie x.dest with
  | none => s
  | some d =>
    if s.inService d then (s.writeMem x.dest x.data).1
    else if s.sheetFitted d then
      let (s, v) := s.freshWord (2 ^ 32)
      s.log 0x0021 2 0 0x0A (x.dest % 2 ^ 32) v 0
    else s

/-- An image that is refused at boot is logged with its address (R371; the code is the model's choice, assumption log 77). -/
def State.logRefused (s : State) (x : BSect) (r : Nat) : State := s.log 0x0021 2 0 0x0A x.dest r 0

/-- A GRATICULE section is copied and loaded through VBA_GADDR (R369, R371). -/
def State.bootGraticule (s : State) (x : BSect) : State :=
  let s := ((s.writeMem x.dest x.data).1.wr (vba 0x110) (BitVec.ofNat 32 (x.dest / 256))).loadGraticule
  if s.bus.gres = 1 then s else s.logRefused x s.bus.gres

/-- A SAFETY section is copied and loaded through CTM; the channels agree (R229, R369, R371). -/
def State.bootSafety (s : State) (x : BSect) : State :=
  let s := (s.writeMem x.dest x.data).1.wr (ctmReg 0x04) (BitVec.ofNat 32 (x.dest / 256))
  let s := ((s.updCtm fun c => { c with load := some ⟨0, none, none⟩, checking := true, ldAddr := x.dest }).loadCheck true).imageEffect
  if s.ctm.result = 1 then s else s.logRefused x s.ctm.result

/-- An ENTRY descriptor is posted; a refusal is logged (R371). -/
def State.bootPost (s : State) (l : List Byte) : State :=
  let refused (s : State) : State :=
    let (s, a) := s.freshWord (2 ^ 32)
    let (s, b) := s.freshWord (2 ^ 32)
    s.log 0x0100 3 0 1 0 a b
  match Desc.ofBytes l, s.wdx.freeSlot with
  | some d, some n => if !s.affinityOk d || s.listFull d.prio then refused s else s.arrive n d
  | _, _ => refused s

/-- The descriptors of an ENTRY section. -/
def BSect.descs (x : BSect) : List (List Byte) := (List.range (x.data.length / 32)).map fun i => (x.data.drop (32 * i)).take 32

/-- Steps 3 to 9 of R371, the SAFETY sections at power-on only (R372). -/
def State.bootSteps (s : State) (fails : List (Nat × Nat)) (safety : Bool) : State :=
  let ss := s.sectsInUse
  let of (t : Nat) : List BSect := ss.filter fun x => x.typ == t
  match of 5 with
  | [] => s
  | c :: _ =>
    let s := s.applyConfig c.data
    let w := leAt c.data 0 4
    let ds := s.sheetList.filter fun d => bitN w (15 + d)
    let s := ds.foldl (fun s d => s.bootAdmit d (((fails.find? fun x => x.1 == d).map (·.2)).getD 0)) s
    let s := (of 2).foldl (fun s x => s.copySect x) s
    let s := (of 3).foldl (fun s x => s.bootGraticule x) s
    let s := if safety then (of 4).foldl (fun s x => s.bootSafety x) s else s
    let s := (of 6).foldl (fun s x => x.descs.foldl (fun s l => s.bootPost l) s) s
    let s := s.updSfy fun y => { y with done := true }
    if bitN w 11 && ((of 3).isEmpty || s.bus.gres == 1) then s.busEn true else s

/-- The internal reset still holds: the voltage has not been above 10.0 V for 10 ms (R344). -/
def State.held (s : State) : Bool := s.sys.internal && decide (s.sys.orOk < 200)

/-- BOOT: PORST_N, or the internal reset, is released (R5, R317, R344, R345, R370, R371). -/
def execBoot (compat priSel : Bool) (fails : List (Nat × Nat)) (s : State) : Out :=
  .next (if s.powered || s.held then s
    else
      let s := s.updSys fun y => { y with porst := false, internal := false, strapCompat := compat, priSel := priSel }
      let s := s.setMd 0 { s.md 0 with initDone := true }
      let s := s.sheetList.foldl (fun s d => s.setMd d { s.md d with initDone := true }) s
      (s.releaseCores 0).selectImage.bootSteps fails true)

/-! ### Warm reset (R372–R374, R387) -/

/-- The registers that WRST_N leaves unchanged: SYS, MER, the MEM counters of the hub, SFY, PWR, RDN, CTM, and HNx_CTL, HNx_MAC
and the MC entries (R24, R301, R310, R315, R358, chapter 12, chapter 14). -/
def warmKeeps (r : Nat) : Bool :=
  let o := fld r 0 16
  decide (r / 2 ^ 24 = 0) &&
    match fld r 16 8 with
    | 0x00 | 0x02 | 0x0A | 0x0B | 0x0C | 0x0F => true
    | 0x05 | 0x06 => o == 4 || o == 0x0C || o == 0x10 || (decide (0x20 ≤ o) && decide (o < 0x60))
    | 0x08 => o == 8 || o == 0x0C || o == 0x10
    | _ => false

/-- A host port stops and its FIFOs empty (R310); the link stays. -/
def HostSt.warm (h : HostSt) : HostSt := { link := h.link }

/-- A hub core is reset; its local memory holds what the spec leaves undefined (R42, R54). -/
def State.warmCore (s : State) (i : Nat) : State :=
  let s := s.setCore ⟨0, i⟩ { lmEpoch := some s.freeCtr }
  { s with freeCtr := s.freeCtr + 1 }

/-- The Contour die under WRST_N: every arm in STO, the processor channel held, a load that runs lost (R225). -/
def State.warmContour (s : State) : State :=
  let s := if s.ctm.load.isSome then
      let (s, r) := s.freshWord 12
      s.updCtm fun c => { c with load := none, checking := false, result := r }
    else s
  (s.updCtm fun c => { c with wrst := true, procHeld := true, proc := none, procUsed := false }).allSto 21

/-- Everything that WRST_N holds in reset (R234, R295, R310, R372, R373). The last applied rate becomes the base rate, which
MER_RATE takes at the next datum (R298, R301). -/
def State.warmHold (s : State) : State :=
  let s := s.wipeRegs fun r => !warmKeeps r
  let s := if s.mer.bus then s.updMer fun m => { m with rho := m.rate * 1000000000 } else s
  let s : State := { s with wdx := {}, dma := [], trv := [], enc := [], sle := [], tri := [], cores := [], hostA := s.hostA.warm, hostB := s.hostB.warm, bus := { afterWrst := true } }
  let s := s.sheetList.foldl (fun s d => (s.wipeSheet d).setSheet d {}) s
  let s := s.setMd 0 { initDone := (s.md 0).initDone, scrub := (s.md 0).scrub }
  let s := (List.range 4).foldl (fun s i => s.warmCore i) s
  let s := s.updCrt fun x => { store := x.store }
  let s := if s.sfy.surv.isSome then
      let (s, r) := s.freshWord 13
      s.updSfy fun y => { y with surv := none, result := r }
    else s
  let s := s.updSfy fun y => { y with done := false, sheetReqs := [], lastRst := 2 }
  s.updSys fun y => { y with mode := .boot, pendRun := false, shutDone := false, shutReq := false, resumeReq := false, enNext := false }

/-- RDN under WRST_N: a paired unit enters STANDBY with ACT_OUT low (R346). -/
def State.warmRdn (s : State) : State :=
  let s := if s.rdn.paired then s.rdnEnter .standby else s
  { s with rdn := { s.rdn with actOut := false, holdDone := false } }

/-- An edge of WRST_N that the mask hides is logged (R374). -/
def State.maskedEdge (s : State) (low : Bool) : State :=
  if low then
    let (s, v) := s.freshWord (2 ^ 32)
    (s.updSfy fun y => { y with wrstPin := true, lowAt := s.upNs }).log 0x0010 1 0 0x0A 0 v 1
  else
    let ms := s.lowMs
    (s.updSfy fun y => { y with wrstPin := false, heldMs := ms, stuck := false }).log 0x0010 1 0 0x0A 0 ms 1

/-- WRST_N_LOW: WRST_N is taken low (R372–R374). -/
def execWrstNLow (s : State) : Out :=
  .next (if !s.powered || s.sfy.wrstPin then s
    else if s.sfy.masked then s.maskedEdge true
    else
      let s := s.updSfy fun y => { y with wrstPin := true, lowAt := s.upNs }
      let s := s.warmHold.warmContour.warmRdn
      s.updSys fun y => { y with wrst := true })

/-- The processor channel takes its copies again, and resumes when their CRCs agree (R225). -/
def State.procResume (s : State) : State :=
  let good := !s.ctm.cellBad && s.ctm.arms.all fun kv => !kv.2.imgBad
  s.updCtm fun c => { c with wrst := false, procHeld := !good, halted := c.halted && !good }

/-- The release of R372: boot steps 3 to 9 from the image in use, without the SAFETY sections; the ports restart. -/
def State.warmRelease (s : State) (fails : List (Nat × Nat)) : State :=
  let s := (s.updSys fun y => { y with wrst := false }).procResume
  let s := (s.log 0x0010 1 0 0x0A 0 s.lowMs (b01 s.sfy.masked)).releaseCores 0
  let s : State := { s with hostA := { s.hostA with on := s.rb (rg 0 5 4) 0 }, hostB := { s.hostB with on := s.rb (rg 0 6 4) 0 } }
  s.bootSteps fails false

/-- WRST_N_RELEASE: WRST_N is taken high (R372–R374). -/
def execWrstNRelease (fails : List (Nat × Nat)) (s : State) : Out :=
  .next (if !s.powered || !s.sfy.wrstPin then s
    else if s.sfy.masked then s.maskedEdge false
    else
      let ms := s.lowMs
      (s.updSfy fun y => { y with wrstPin := false, heldMs := ms, stuck := false }).warmRelease fails)

/-- RESET_STUCK: WRST_N has been taken low for 10 s (R374). -/
def execResetStuck (s : State) : Out :=
  let ms := s.lowMs
  .next (if s.powered && s.sys.wrst && !s.sfy.stuck && decide (10000 ≤ ms) then
      let s := (s.updSfy fun y => { y with stuck := true }).log 0x0012 4 0 0x0A 0 ms 0
      let (s, o) := s.freshWord 256
      let (s, r) := s.freshWord 256
      s.sfyEvent 3 o r
    else s)

end Sys2Proof.Machine
end

