-- ==== Sys2Proof/Machine/CoreAlu.lean ====
section
/-! DEFINITION. Integer, multiply, divide, immediate, branch and system instructions of Brorok (R45–R47, chapter 02). -/

namespace Sys2Proof.Machine

/-- ADD (R45). -/
def execAdd (c : CoreId) (rd ra rb : Reg) (s : State) : Out :=
  .next (runInstr c (fun t => .ok (t.put c rd (t.reg c ra + t.reg c rb))) s)

/-- SUB (R45). -/
def execSub (c : CoreId) (rd ra rb : Reg) (s : State) : Out :=
  .next (runInstr c (fun t => .ok (t.put c rd (t.reg c ra - t.reg c rb))) s)

/-- AND (R45). -/
def execAnd (c : CoreId) (rd ra rb : Reg) (s : State) : Out :=
  .next (runInstr c (fun t => .ok (t.put c rd (t.reg c ra &&& t.reg c rb))) s)

/-- OR (R45). -/
def execOr (c : CoreId) (rd ra rb : Reg) (s : State) : Out :=
  .next (runInstr c (fun t => .ok (t.put c rd (t.reg c ra ||| t.reg c rb))) s)

/-- XOR (R45). -/
def execXor (c : CoreId) (rd ra rb : Reg) (s : State) : Out :=
  .next (runInstr c (fun t => .ok (t.put c rd (t.reg c ra ^^^ t.reg c rb))) s)

/-- NOR (R45). -/
def execNor (c : CoreId) (rd ra rb : Reg) (s : State) : Out :=
  .next (runInstr c (fun t => .ok (t.put c rd (~~~(t.reg c ra ||| t.reg c rb)))) s)

/-- SLT (R45). -/
def execSlt (c : CoreId) (rd ra rb : Reg) (s : State) : Out :=
  .next (runInstr c (fun t => .ok (t.put c rd (aluSlt (t.reg c ra) (t.reg c rb)))) s)

/-- SLTU (R45). -/
def execSltu (c : CoreId) (rd ra rb : Reg) (s : State) : Out :=
  .next (runInstr c (fun t => .ok (t.put c rd (aluSltu (t.reg c ra) (t.reg c rb)))) s)

/-- SLL (R45). -/
def execSll (c : CoreId) (rd ra rb : Reg) (s : State) : Out :=
  .next (runInstr c (fun t => .ok (t.put c rd (aluSll (t.reg c ra) (t.reg c rb)))) s)

/-- SRL (R45). -/
def execSrl (c : CoreId) (rd ra rb : Reg) (s : State) : Out :=
  .next (runInstr c (fun t => .ok (t.put c rd (aluSrl (t.reg c ra) (t.reg c rb)))) s)

/-- SRA (R45). -/
def execSra (c : CoreId) (rd ra rb : Reg) (s : State) : Out :=
  .next (runInstr c (fun t => .ok (t.put c rd (aluSra (t.reg c ra) (t.reg c rb)))) s)

/-- SLLI (R45). -/
def execSlli (c : CoreId) (rd ra : Reg) (sh : BitVec 6) (s : State) : Out :=
  .next (runInstr c (fun t => .ok (t.put c rd (t.reg c ra <<< sh.toNat))) s)

/-- SRLI (R45). -/
def execSrli (c : CoreId) (rd ra : Reg) (sh : BitVec 6) (s : State) : Out :=
  .next (runInstr c (fun t => .ok (t.put c rd (t.reg c ra >>> sh.toNat))) s)

/-- SRAI (R45). -/
def execSrai (c : CoreId) (rd ra : Reg) (sh : BitVec 6) (s : State) : Out :=
  .next (runInstr c (fun t => .ok (t.put c rd ((t.reg c ra).sshiftRight sh.toNat))) s)

/-- ADDS (R45). -/
def execAdds (c : CoreId) (rd ra rb : Reg) (s : State) : Out :=
  .next (runInstr c (fun t => .ok (t.putSat c rd (aluAdds (t.reg c ra) (t.reg c rb)))) s)

/-- SUBS (R45). -/
def execSubs (c : CoreId) (rd ra rb : Reg) (s : State) : Out :=
  .next (runInstr c (fun t => .ok (t.putSat c rd (aluSubs (t.reg c ra) (t.reg c rb)))) s)

/-- MIN (R45). -/
def execMin (c : CoreId) (rd ra rb : Reg) (s : State) : Out :=
  .next (runInstr c (fun t => .ok (t.put c rd (aluMin (t.reg c ra) (t.reg c rb)))) s)

/-- MAX (R45). -/
def execMax (c : CoreId) (rd ra rb : Reg) (s : State) : Out :=
  .next (runInstr c (fun t => .ok (t.put c rd (aluMax (t.reg c ra) (t.reg c rb)))) s)

/-- MINU (R45). -/
def execMinu (c : CoreId) (rd ra rb : Reg) (s : State) : Out :=
  .next (runInstr c (fun t => .ok (t.put c rd (aluMinu (t.reg c ra) (t.reg c rb)))) s)

/-- MAXU (R45). -/
def execMaxu (c : CoreId) (rd ra rb : Reg) (s : State) : Out :=
  .next (runInstr c (fun t => .ok (t.put c rd (aluMaxu (t.reg c ra) (t.reg c rb)))) s)

/-- CLZ (R45). -/
def execClz (c : CoreId) (rd ra : Reg) (s : State) : Out :=
  .next (runInstr c (fun t => .ok (t.put c rd (aluClz (t.reg c ra)))) s)

/-- POPC (R45). -/
def execPopc (c : CoreId) (rd ra : Reg) (s : State) : Out :=
  .next (runInstr c (fun t => .ok (t.put c rd (aluPopc (t.reg c ra)))) s)

/-- MUL (R46). -/
def execMul (c : CoreId) (rd ra rb : Reg) (s : State) : Out :=
  .next (runInstr c (fun t => .ok (t.put c rd (t.reg c ra * t.reg c rb))) s)

/-- MULH (R46). -/
def execMulh (c : CoreId) (rd ra rb : Reg) (s : State) : Out :=
  .next (runInstr c (fun t => .ok (t.put c rd (aluMulh (t.reg c ra) (t.reg c rb)))) s)

/-- MULHU (R46). -/
def execMulhu (c : CoreId) (rd ra rb : Reg) (s : State) : Out :=
  .next (runInstr c (fun t => .ok (t.put c rd (aluMulhu (t.reg c ra) (t.reg c rb)))) s)

/-- MULS (R46). -/
def execMuls (c : CoreId) (rd ra rb : Reg) (s : State) : Out :=
  .next (runInstr c (fun t => .ok (t.putSat c rd (aluMuls (t.reg c ra) (t.reg c rb)))) s)

/-- DIV (R46). -/
def execDiv (c : CoreId) (rd ra rb : Reg) (s : State) : Out :=
  .next (runInstr c (fun t => .ok (t.putSat c rd (aluDiv (t.reg c ra) (t.reg c rb)))) s)

/-- DIVU (R46). -/
def execDivu (c : CoreId) (rd ra rb : Reg) (s : State) : Out :=
  .next (runInstr c (fun t => .ok (t.putSat c rd (aluDivu (t.reg c ra) (t.reg c rb)))) s)

/-- REM (R46). -/
def execRem (c : CoreId) (rd ra rb : Reg) (s : State) : Out :=
  .next (runInstr c (fun t => .ok (t.putSat c rd (aluRem (t.reg c ra) (t.reg c rb)))) s)

/-- REMU (R46). -/
def execRemu (c : CoreId) (rd ra rb : Reg) (s : State) : Out :=
  .next (runInstr c (fun t => .ok (t.putSat c rd (aluRemu (t.reg c ra) (t.reg c rb)))) s)

/-- ADDI (R47). -/
def execAddi (c : CoreId) (rd ra : Reg) (imm : BitVec 16) (s : State) : Out :=
  .next (runInstr c (fun t => .ok (t.put c rd (aluImm 0x04 (t.reg c ra) imm))) s)

/-- ANDI (R47). -/
def execAndi (c : CoreId) (rd ra : Reg) (imm : BitVec 16) (s : State) : Out :=
  .next (runInstr c (fun t => .ok (t.put c rd (aluImm 0x05 (t.reg c ra) imm))) s)

/-- ORI (R47). -/
def execOri (c : CoreId) (rd ra : Reg) (imm : BitVec 16) (s : State) : Out :=
  .next (runInstr c (fun t => .ok (t.put c rd (aluImm 0x06 (t.reg c ra) imm))) s)

/-- XORI (R47). -/
def execXori (c : CoreId) (rd ra : Reg) (imm : BitVec 16) (s : State) : Out :=
  .next (runInstr c (fun t => .ok (t.put c rd (aluImm 0x07 (t.reg c ra) imm))) s)

/-- SLTI (R47). -/
def execSlti (c : CoreId) (rd ra : Reg) (imm : BitVec 16) (s : State) : Out :=
  .next (runInstr c (fun t => .ok (t.put c rd (aluImm 0x08 (t.reg c ra) imm))) s)

/-- SLTIU (R47). -/
def execSltiu (c : CoreId) (rd ra : Reg) (imm : BitVec 16) (s : State) : Out :=
  .next (runInstr c (fun t => .ok (t.put c rd (aluImm 0x09 (t.reg c ra) imm))) s)

/-- LUI (R47). -/
def execLui (c : CoreId) (rd : Reg) (imm : BitVec 16) (s : State) : Out :=
  .next (runInstr c (fun t => .ok (t.put c rd (aluImm 0x0A 0 imm))) s)

/-- ORH (R47). -/
def execOrh (c : CoreId) (rd ra : Reg) (imm : BitVec 16) (s : State) : Out :=
  .next (runInstr c (fun t => .ok (t.put c rd (aluImm 0x0B (t.reg c ra) imm))) s)

/-- ORT (R47). -/
def execOrt (c : CoreId) (rd ra : Reg) (imm : BitVec 16) (s : State) : Out :=
  .next (runInstr c (fun t => .ok (t.put c rd (aluImm 0x0C (t.reg c ra) imm))) s)

/-- A jump: a target that is not a multiple of 4 raises ALIGN with FETCH = 1 (chapter 02, Branches and jumps). -/
def State.jump (s : State) (c : CoreId) (target : Nat) : CRes :=
  if target % 4 = 0 then .ok (s.updCore c fun x => { x with pc := target }) else .exc s { excAlign target with fetch := true }

/-- pc + 4 × sext(off). -/
def relTarget (pc : Nat) (off : Int) : Nat := wrapN 64 ((pc : Int) + 4 * off)

/-- A conditional branch: to the target or to the next word (R43, R44). -/
def State.branch (s : State) (c : CoreId) (op : Nat) (ra rb : Reg) (off : BitVec 16) : CRes :=
  if branchTaken op (s.reg c ra) (s.reg c rb) then s.jump c (relTarget (s.core c).pc off.toInt) else .ok (s.pc4 c)

/-- BEQ (R43, chapter 02). -/
def execBeq (c : CoreId) (ra rb : Reg) (off : BitVec 16) (s : State) : Out :=
  .next (runInstr c (fun t => t.branch c 0x20 ra rb off) s)

/-- BNE (R43, chapter 02). -/
def execBne (c : CoreId) (ra rb : Reg) (off : BitVec 16) (s : State) : Out :=
  .next (runInstr c (fun t => t.branch c 0x21 ra rb off) s)

/-- BLT (R43, chapter 02). -/
def execBlt (c : CoreId) (ra rb : Reg) (off : BitVec 16) (s : State) : Out :=
  .next (runInstr c (fun t => t.branch c 0x22 ra rb off) s)

/-- BGE (R43, chapter 02). -/
def execBge (c : CoreId) (ra rb : Reg) (off : BitVec 16) (s : State) : Out :=
  .next (runInstr c (fun t => t.branch c 0x23 ra rb off) s)

/-- BLTU (R43, chapter 02). -/
def execBltu (c : CoreId) (ra rb : Reg) (off : BitVec 16) (s : State) : Out :=
  .next (runInstr c (fun t => t.branch c 0x24 ra rb off) s)

/-- BGEU (R43, chapter 02). -/
def execBgeu (c : CoreId) (ra rb : Reg) (off : BitVec 16) (s : State) : Out :=
  .next (runInstr c (fun t => t.branch c 0x25 ra rb off) s)

/-- J (R43, chapter 02). -/
def execJ (c : CoreId) (off : BitVec 26) (s : State) : Out :=
  .next (runInstr c (fun t => t.jump c (relTarget (t.core c).pc off.toInt)) s)

/-- Write a link register with the address of the next word. -/
def State.link (s : State) (c : CoreId) (r : Reg) : State := s.updCore c fun x => x.setReg r (BitVec.ofNat 64 (x.pc + 4))

/-- A jump that links: nothing is written when the target raises ALIGN (R56). -/
def State.jumpLink (s : State) (c : CoreId) (r : Reg) (target : Nat) : CRes :=
  if target % 4 = 0 then (s.link c r).jump c target else s.jump c target

/-- JAL (R43, chapter 02). -/
def execJal (c : CoreId) (off : BitVec 26) (s : State) : Out :=
  .next (runInstr c (fun t => t.jumpLink c 1 (relTarget (t.core c).pc off.toInt)) s)

/-- JR (chapter 02). -/
def execJr (c : CoreId) (ra : Reg) (s : State) : Out :=
  .next (runInstr c (fun t => t.jump c (t.reg c ra).toNat) s)

/-- JALR (chapter 02). -/
def execJalr (c : CoreId) (rd ra : Reg) (s : State) : Out :=
  .next (runInstr c (fun t => t.jumpLink c rd (t.reg c ra).toNat) s)

end Sys2Proof.Machine
end

