-- ==== Sys2Proof/Machine/Surveyor.lean ====
section
/-! DEFINITION. Surveyor's commands: sheets, images, flash, keys, the reset mask, sensors, and its registers (R359–R381). -/

namespace Sys2Proof.Machine

/-! ### Commands (R381) -/

/-- SFY_CMDST.BUSY. -/
def State.sfyBusy (s : State) : Bool := s.sfyRestarting || s.sfy.surv.isSome

/-- A command ends: the result and event COMMAND, whose object the spec does not state. -/
def State.sfyEnd (s : State) (r : Nat) : State :=
  let s := s.updSfy fun y => { y with result := r }
  let (s, o) := s.freshWord 256
  s.sfyEvent 1 o r

/-- ARG0[7:0]. -/
def State.sfyDie (s : State) : Nat := s.rf (sfyReg 0x24) 0 8

/-- The cell mode refuses RETIRE and READMIT (R337). -/
def State.sheetModeRefuses (s : State) : Bool := s.sys.mode == .boot || s.sys.mode == .shutdown

/-- A sheet command is accepted and applies at the next datum (R335, R338). -/
def State.sheetReq (s : State) (code : Nat) : State := (s.updSfy fun y => { y with sheetReqs := y.sheetReqs ++ [(code, s.sfyDie)] }).sfyEnd 1

/-- RETIRE (R338, R381). -/
def State.sfyRetire (s : State) : State :=
  let x := s.sheet s.sfyDie
  if !s.sheetFitted s.sfyDie then s.sfyEnd 4
  else if s.sheetModeRefuses then s.sfyEnd 3
  else if x.st = .inService ∨ (x.st = .draining ∧ x.pend) then s.sheetReq 1
  else s.sfyEnd 3

/-- READMIT (R338, R381). -/
def State.sfyReadmit (s : State) : State :=
  let x := s.sheet s.sfyDie
  if !s.sheetFitted s.sfyDie then s.sfyEnd 4
  else if s.sheetModeRefuses then s.sfyEnd 3
  else if x.st = .retired ∨ x.st = .draining then s.sheetReq 3
  else s.sfyEnd 3

/-- SURVEY: runs until SURVEY_END (R338, R379). -/
def State.sfySurvey (s : State) : State :=
  let d := s.sfyDie
  if !s.sheetFitted d then s.sfyEnd 4
  else if (s.sheet d).st ≠ .retired then s.sfyEnd 3
  else s.updSfy fun y => { y with result := 0, surv := some (d, s.rf (sfyReg 0x28) 0 4), sheetReqs := y.sheetReqs ++ [(2, d)] }

/-- CONFIRM: the image in use becomes GOOD, which clears bits of its STATE (R367); with ARG0[0] MINSEQ rises to its SEQNO, at most 255 times (R376). -/
def State.sfyConfirm (s : State) : State :=
  let b := s.sfy.useB
  let q := s.flashSeq b
  let s := s.flashPut b 0 [BitVec.ofNat 8 (s.flashStat b 0 &&& 0x0F)]
  let s := s.reportFlash b (s.flashState b) q
  let s := s.updSfy fun y => { y with confirmBy := none }
  let s := if s.rb (sfyReg 0x24) 0 ∧ s.sfy.minSeq < q ∧ s.sfy.raises < 255 then s.updSfy fun y => { y with minSeq := q, raises := y.raises + 1 } else s
  (s.log 0x0004 1 0 0x0A (b01 b) q s.sfy.minSeq).sfyEnd 1

/-- Start a restart from a flash: its entries wait in the hardware queue (R361, R376). -/
def State.sfyRestartTo (s : State) (b rollback : Bool) : State :=
  { s with sfy := { s.sfy with busy := .restart b rollback, confirmBy := none }, fb := { s.fb with dropped := 0 } }

/-- SFYSWITCH to the other flash; from the ROM, to the flash that R370 selects (R370, R376). -/
def State.sfySwitch (s : State) : State :=
  if s.sfy.booted then
    let b := !s.sfy.useB
    match s.scanFlash b with
    | (s, 0) =>
      if s.flashState b = 2 then s.sfyEnd 3
      else (if s.flashState b = 0 then s.useTrial b else s).sfyRestartTo b false
    | (s, r) => s.sfyEnd r
  else
    let (s, r) := s.scanFlash false
    let (s, _) := s.scanFlash true
    match s.pickFlash with
    | some b => (if s.flashState b = 0 then s.useTrial b else s).sfyRestartTo b false
    | none => s.sfyEnd (if r = 0 then 3 else r)

/-- Fresh free bytes (assumption log 2). -/
def State.freeBytes (s : State) (n : Nat) : State × List Byte :=
  ({ s with freeCtr := s.freeCtr + n }, (List.range n).map fun i => BitVec.ofNat 8 (Config.freeWord (s.freeCtr + i)))

/-- The flash takes bytes, erased as needed: the rest of a last sector that had to be erased is free, and so is all of it when
the write fails (R367, R375). -/
def State.flashProgram (s : State) (b : Bool) (o : Nat) (l : List Byte) (good : Bool) : State :=
  let f := s.flash b
  let n := l.length
  let whole := ceilDiv n 4096 * 4096
  let erase := (List.zipWith (fun (a c : Byte) => a &&& c != c) (f.read o n) l).any id
  let (s, rest) := if !good then s.freeBytes whole else if erase then s.freeBytes (whole - n) else (s, f.read (o + n) (whole - n))
  let s := s.flashPut b o (if good then l ++ rest else rest)
  if 0x10000 < o + whole then
    (s.flashPut b 0 (0xFF#8 :: 0xFF#8 :: 0xFF#8 :: 0xFF#8 :: toBytes 4 0 ++ List.replicate 4088 0xFF#8)).reportFlash b 0 0
  else s

/-- FLASHWR (R375). -/
def State.sfyFlashwr (s : State) (good : Bool) : State :=
  let a0 := (s.rd (sfyReg 0x24)).toNat
  let src := (s.rd (sfyReg 0x28)).toNat
  let n := (s.rd (sfyReg 0x3C)).toNat
  let b := bitN a0 0
  let o := a0 / 4096 * 4096
  if n < 256 ∨ 1048576 < n ∨ n % 256 ≠ 0 ∨ !hubRange src n ∨ 0x1000000 < o + n then s.sfyEnd 4
  else if s.sfy.booted && b == s.sfy.useB then s.sfyEnd 11
  else
    match s.readMem src n 1 with
    | (s, none) => s.sfyEnd 10
    | (s, some l) => (s.flashProgram b o l good).sfyEnd (if good then 1 else 10)

/-- A command that runs at once unless Surveyor restarts (ignored) or is BUSY (R376, R381). `rom` says whether it is one of those
that Surveyor answers in its ROM (R370). -/
def State.sfyRun (s : State) (rom : Bool) (f : State → State) : State :=
  if !s.powered || s.sfyRestarting || (!rom && !s.sfy.booted) then s
  else if s.sfyBusy then s.sfyEnd 2
  else f s

/-- RETIRE (R338, R381). -/
def execRetire (s : State) : Out := .next (s.sfyRun false State.sfyRetire)

/-- SURVEY (R338, R379). -/
def execSurvey (s : State) : Out := .next (s.sfyRun false State.sfySurvey)

/-- READMIT (R338, R380). -/
def execReadmit (s : State) : Out := .next (s.sfyRun false State.sfyReadmit)

/-- CONFIRM (R376). -/
def execConfirm (s : State) : Out := .next (s.sfyRun false State.sfyConfirm)

/-- SFYSWITCH (R376). -/
def execSfyswitch (s : State) : Out := .next (s.sfyRun true State.sfySwitch)

/-- FLASHWR; `verifyOk` is the outcome of the flash (R375). -/
def execFlashwr (verifyOk : Bool) (s : State) : Out := .next (s.sfyRun true fun s => s.sfyFlashwr verifyOk)

/-- SURVEY_END: the failure mask of the tests that were named; the sheet returns to RETIRED at the next datum (R338, R379). -/
def execSurveyEnd (mask : BitVec 4) (s : State) : Out :=
  .next (match s.sfy.surv with
    | some (d, tests) =>
      if s.powered && (s.sheet d).st == .survey then
        let m := mask.toNat &&& tests
        let s := (s.updSfy fun y => { y with surv := none, survFail := m, survDie := d }).setSheet d { s.sheet d with surveyed := true }
        (s.log 0x0201 (if m = 0 then 1 else 3) 0 0x0A d m tests).sfyEnd 1
      else s
    | none => s)

/-- READMISSION_CHECKS: the checks of a sheet in READMIT end, `failed` naming the check that failed; the sheet changes state at
the next datum (R338, R380). -/
def execReadmissionChecks (die failed : Nat) (s : State) : Out :=
  let x := s.sheet die
  .next (if s.powered && s.sheetFitted die && x.st == .readmit && x.checked.isNone && decide (failed ≤ 5) then
      if failed = 0 then (s.putInService die).setSheet die { x with checked := some 0 }
      else (s.setSheet die { x with checked := some failed }).log 0x0202 3 0 0x0A die failed 0
    else s)

/-- SFY_RESTART: the firmware's restart is complete; the queued entries join the Field Book (R361, R376). -/
def execSfyRestart (s : State) : Out :=
  .next (match s.sfy.busy with
    | .restart b rollback =>
      if !s.powered then s
      else
        let dropped := s.fb.dropped
        let fb := s.fb.queue.foldl (fun (f : FieldBook) e => f.push e) { s.fb with queue := [], dropped := 0 }
        let s : State := { s with fb := fb, sfy := { s.sfy with busy := .none, useB := b, booted := true, trials := s.trialsUsed b, confirmBy := if rollback then none else some (s.upNs + 60000000000) } }
        let s := s.log 0x0005 1 0 0x0A (b01 b) (s.flashSeq b) dropped
        if rollback then s else s.sfyEnd 1
    | .none => s)

/-- ROLLBACK: no CONFIRM within 60 s (R376). -/
def execRollback (s : State) : Out :=
  .next (match s.sfy.confirmBy with
    | some t =>
      if s.powered && !s.sfyRestarting && decide (t ≤ s.upNs) then
        let b := s.sfy.useB
        let q := s.flashSeq b
        ((((s.markBad' b).reportFlash b 2 q).log 0x0003 3 0 0x0A (b01 b) q 0)).sfyRestartTo (!b) true
      else s
    | none => s)

/-! ### Signed commands (R364–R366) -/

/-- The bytes of a signed record: the mailbox reads hub SRAM at SFY_CADDR (R366). -/
def State.signedBytes (s : State) : SignedSrc → State × Option (List Byte)
  | .port l => (s, some l)
  | .console l => (s, some l)
  | .mailbox =>
    let a := (s.rd (sfyReg 0x30)).toNat * 256
    if !hubRange a 96 then (s, none)
    else
      match s.readMem a 16 1 with
      | (t, none) => (t, none)
      | (t, some h) =>
        let n := leAt h 8 4
        if n ≠ 96 ∧ n ≠ 160 ∨ !hubRange a n then (t, none) else t.readMem a n 1

/-- The layout of a signed record of a kind (R366). -/
def signedFormat (kind : Nat) (l : List Byte) : Bool :=
  let n := leAt l 8 4
  leAt l 0 4 == 0x444D4353 && leAt l 4 1 == kind && leAt l 6 2 == 0 && (if kind = 2 then decide (leAt l 5 1 < 4) else leAt l 5 1 == 0) &&
    n == (if kind = 2 then 160 else 96) && decide (n ≤ l.length) && leAt l 24 8 == 0

/-- A signed record fails a check: the AUTHFAIL entry (R366). -/
def State.authFail (s : State) (kind r seq : Nat) : State := (s.log 0x0007 2 0 0x0A kind r seq).sfyEnd r

/-- The source is the console. -/
def isConsole : SignedSrc → Bool
  | .console _ => true
  | _ => false

/-- The checks of R366 in their order, and then `f` on the record; an unsigned KEYENROL of a blank role passes on the console
alone (R365). -/
def State.signed (s : State) (src : SignedSrc) (kind : Nat) (f : List Byte → Bool → State → State) : State :=
  match s.signedBytes src with
  | (s, none) =>
    let (s, q) := s.freshWord (2 ^ 32)
    s.authFail kind 9 q
  | (s, some l0) =>
    let l := l0.take (leAt l0 8 4)
    let seq := leAt l 12 4
    let role := if kind = 2 then leAt l 5 1 else 1
    let sig := l.drop (l.length - 64)
    if !signedFormat kind l0 then s.authFail kind 9 seq
    else if leAt l 16 4 ≠ s.sys.uid0 ∨ leAt l 20 4 ≠ s.sys.uid1 then s.authFail kind 7 seq
    else
      match s.topKey role with
      | none => if kind = 2 ∧ isConsole src ∧ sig.all (· == 0#8) then f l false s else s.authFail kind 5 seq
      | some k =>
        if s.sfy.lastSeq.any (fun x => x.1 == role && decide (seq ≤ x.2)) then s.authFail kind 6 seq
        else if !ecdsaOk k sig (sha256 (l.take (l.length - 64))) then s.authFail kind 5 seq
        else f l true s

/-- Note the SEQNO accepted for a role (R366). -/
def State.tookSeq (s : State) (role seq : Nat) : State := s.updSfy fun y => { y with lastSeq := (y.lastSeq.drop role).put role seq }

/-- An accepted KEYENROL (R364, R365). -/
def State.enrol (l : List Byte) (signed : Bool) (s : State) : State :=
  let role := leAt l 5 1
  let ks := Table.get (fun _ => ([] : List (List Byte))) s.sfy.keys role
  if 4 ≤ ks.length then s.sfyEnd 8
  else
    let s := if signed then s.tookSeq role (leAt l 12 4) else s
    let s := s.updSfy fun y => { y with keys := Table.set (fun _ => []) y.keys role (ks ++ [(l.drop 32).take 64]) }
    (s.log 0x0006 1 0 0x0A role ks.length 0).sfyEnd 1

/-- KEYENROL (R365, R366). -/
def State.keyenrol (s : State) (src : SignedSrc) : State := s.signed src 2 State.enrol

/-- Surveyor answers on the port or the console that a record came by, with the SFY_CMDST value (R366). -/
def State.sfyAnswer (s : State) (src : SignedSrc) : State :=
  if src = .mailbox then s else s.updSfy fun y => { y with answer := some (isConsole src, y.result + b01 s.sfyBusy * 16) }

/-- A signed record is taken as a command, and answered where it came by the port or the console (R366, R370, R381). -/
def State.sfySigned (s : State) (src : SignedSrc) (rom : Bool) (f : State → State) : State :=
  if !s.powered || s.sfyRestarting || (!rom && !s.sfy.booted) then s else (s.sfyRun rom f).sfyAnswer src

/-- KEYENROL (R365, R366); in its ROM Surveyor takes it from the port and the console only (R370). -/
def execKeyenrol (src : SignedSrc) (s : State) : Out := .next (s.sfySigned src (src != .mailbox) fun s => s.keyenrol src)

/-- An accepted RESET_MASK: WRST_N is ignored from now on; while it is low the release runs at once (R374). -/
def State.maskReset (fails : List (Nat × Nat)) (l : List Byte) (s : State) : State :=
  let seq := leAt l 12 4
  let s := (s.tookSeq 1 seq).updSfy fun y => { y with masked := true }
  let s := (s.log 0x0013 2 0 0x0A 0 seq (b01 (!s.sfy.wrstPin))).sfyEnd 1
  if s.sys.wrst then s.warmRelease fails else s

/-- RESET_MASK (R366, R374). -/
def State.resetMask (s : State) (src : SignedSrc) (fails : List (Nat × Nat)) : State := s.signed src 1 fun l _ s => State.maskReset fails l s

/-- RESET_MASK (R366, R374). -/
def execResetMask (src : SignedSrc) (fails : List (Nat × Nat)) (s : State) : Out := .next (s.sfySigned src false fun s => s.resetMask src fails)

/-- Outcomes of the readmission of every fitted sheet that a register write gives no operand for: free. -/
def State.freeFails (s : State) : State × List (Nat × Nat) :=
  ({ s with freeCtr := s.freeCtr + 6 }, s.sheetList.map fun d => (d, Config.freeWord (s.freeCtr + d) % 6))

/-- A command of SFY_CMD written through its register (R381): SIGNED takes the kind of the record at SFY_CADDR; the outcome of a
FLASHWR and of a readmission is free (assumption log 76). -/
def State.sfyCommand (s : State) (code : Nat) : State :=
  s.sfyRun false fun s =>
    match code with
    | 1 => s.sfyRetire
    | 2 => s.sfySurvey
    | 3 => s.sfyReadmit
    | 4 => s.sfyConfirm
    | 5 => s.sfySwitch
    | 6 => { s with freeCtr := s.freeCtr + 1 }.sfyFlashwr (Config.flashOk s.freeCtr)
    | 0x10 => if s.byte ((s.rd (sfyReg 0x30)).toNat * 256 + 4) = 1 then (let (s, fails) := s.freeFails; s.resetMask .mailbox fails) else s.keyenrol .mailbox
    | _ => s.sfyEnd 12

/-! ### Sensors (R359, R360, R392) -/

/-- A temperature sensor is fitted (R359). -/
def State.tempFitted (s : State) (n : Nat) : Bool := n == 0 || n == 7 || (decide (n ≤ 6) && s.sheetFitted n) || (decide (8 ≤ n) && decide (n ≤ 13) && s.sheetFitted (n - 7))

/-- A rail is fitted (R392). -/
def State.railFitted (s : State) (n : Nat) : Bool := decide (n < 12) || (decide (n < 18) && s.sheetFitted (n - 11)) || (decide (n < 24) && s.sheetFitted (n - 17))

/-- Nominal voltage of a rail in mV (R392). -/
def railNominal (n : Nat) : Nat :=
  if n < 12 then [750, 850, 3300, 1800, 900, 1800, 900, 3300, 1800, 1000, 3300, 900].getD n 0 else if n < 18 then 750 else 850

/-- Log a sensor (R360). -/
def State.logSensor (s : State) (sev n : Nat) (v : Int) (lim : Nat) : State := s.log 0x0014 sev 0 0x0A n (wrapN 32 v) lim

/-- A temperature sample in 1/16 °C (R359, R360). -/
def State.tempSample (s : State) (n : Nat) (t : Int) : State :=
  let x := Table.get (fun _ => ({} : TSensor)) s.sfy.temps n
  let r := sfyReg (0x100 + 4 * n)
  let lim (i : Nat) : Nat := s.rf (sfyReg 0x80) (8 * i) 8
  let ovr (i : Nat) : Bool := decide ((lim i : Int) * 16 < t)
  let low (i : Nat) : Bool := decide (t ≤ ((lim i : Int) - 5) * 16)
  let y : TSensor := { t := t, warned := ovr 0 || (x.warned && !low 0), crit := ovr 1 || (x.crit && !low 1) }
  let s := s.updSfy fun z => { z with temps := Table.set (fun _ => {}) z.temps n y }
  let s := if sxt 16 (s.rf r 16 16) < t then s.setRf r 16 16 (wrapN 16 t) else s
  let s := if ovr 0 && !x.warned then
      let (s, b) := (s.logSensor 2 n t (lim 0)).freshWord 256
      s.sfyEvent 2 n b
    else s
  if ovr 1 && !x.crit then
    let s := s.logSensor 4 n t (lim 1)
    if s.rb (sfyReg 0x80) 16 then s.askShut else s
  else s

/-- A rail sample in mV: LOW and HIGH outside ±5 % (R360, R392). -/
def State.railSample (s : State) (n mv : Nat) : State :=
  let r := sfyReg (0x140 + 4 * n)
  let nom := railNominal n
  let s := s.updSfy fun y => { y with vmon := Table.set (fun _ => 0) y.vmon n (mv % 65536) }
  let flag (s : State) (bit lim : Nat) : State := if s.rb r bit then s else (s.setRf r bit 1 1).logSensor 2 n mv lim
  if mv * 100 < nom * 95 then flag s 16 (nom * 95 / 100) else if nom * 105 < mv * 100 then flag s 17 (nom * 105 / 100) else s

/-- SENSOR_SAMPLE: temperatures in 1/16 °C and rails in mV, by sensor (R359, R360). -/
def execSensorSample (temps : List (Nat × Int)) (rails : List (Nat × Nat)) (s : State) : Out :=
  .next (if !s.powered then s
    else
      let s := (temps.filter fun x => s.tempFitted x.1).foldl (fun s x => s.tempSample x.1 (satI 16 x.2)) s
      (rails.filter fun x => s.railFitted x.1).foldl (fun s x => s.railSample x.1 x.2) s)

/-! ### Registers (R381) -/

/-- The words of a Field Book entry (R362). -/
def FbEntry.words (e : FbEntry) : List Nat :=
  [e.seq, e.ns, e.sec % 2 ^ 32, e.sec / 2 ^ 32 % 65536 + e.code * 65536, e.die + e.block * 256 + e.sev * 65536, e.obj, e.d0, e.d1]

/-- The entry that SFY_FBSEL selects; all 0 beyond USED. -/
def State.fbSel (s : State) : List Nat :=
  match s.fb.entries[s.rf (sfyReg 0x54) 0 13]? with
  | some e => e.words
  | none => []

/-- The bits of an SFY register that hardware keeps. -/
def State.sfyRead (s : State) (off : Nat) : Nat :=
  let y := s.sfy
  match off with
  | 0x00 => 1 + (2 + 2 * sheetCount s.sys.member) * 256 + 24 * 65536
  | 0x04 => s.sys.uid0
  | 0x08 => s.sys.uid1
  | 0x0C => b01 y.done + b01 y.useB * 2 + y.stateA * 4 + y.stateB * 16 + y.trials * 64
  | 0x10 => y.seqA
  | 0x14 => y.seqB
  | 0x18 => y.minSeq
  | 0x2C => y.result + b01 s.sfyBusy * 16
  | 0x34 => ((List.range 6).map fun i => (if s.sheetFitted (i + 1) then (s.sheet (i + 1)).st.code else 2) * 2 ^ (3 * i) + b01 (s.sheet (i + 1)).pend * 2 ^ (18 + i)).sum
  | 0x38 => y.survFail + y.survDie * 256
  | 0x40 => b01 y.wrstPin + b01 y.stuck * 2 + b01 y.masked * 4 + y.lastRst * 16 + min ((if y.wrstPin then s.lowMs else y.heldMs) / 1000) 65535 * 65536
  | 0x50 => s.fb.entries.length + s.fb.lost * 65536
  | _ =>
    if 0x100 ≤ off ∧ off < 0x138 then
      let n := (off - 0x100) / 4
      if s.tempFitted n then wrapN 16 (Table.get (fun _ => ({} : TSensor)) y.temps n).t else 0x8000
    else if 0x140 ≤ off ∧ off < 0x1A0 then
      let n := (off - 0x140) / 4
      if s.railFitted n then Table.get (fun _ => 0) y.vmon n else 0x8000
    else 0

end Sys2Proof.Machine
end

