-- ==== Sys2Proof/Machine/Power.lean ====
section
/-! DEFINITION. The two supply feeds: classes, blocks, reverse current and the latent items (R342–R344, R355, R356). -/

namespace Sys2Proof.Machine

/-- A PWR register. -/
def pwrReg (off : Nat) : Nat := rg 0 0x0B off

/-- A feed. -/
def State.feed (s : State) (b : Bool) : Feed := if b then s.feedB else s.feedA

/-- Change a feed. -/
def State.updFeed (s : State) (b : Bool) (f : Feed → Feed) : State := if b then { s with feedB := f s.feedB } else { s with feedA := f s.feedA }

/-- A fault of a feed: the count, the Field Book and event FAULT (R343). -/
def State.feedFault (s : State) (b : Bool) (cls : Nat) : State :=
  let s := s.count (pwrReg 0x18) (8 * b01 b) 8
  (s.log 0x0700 2 0 0x0B (b01 b) cls (s.feed b).mv).fireMasked (pwrReg 0x1C) 1 (65536 + b01 b)

/-- End the block of a feed. -/
def State.unblock (s : State) (b : Bool) : State := (s.updFeed b fun f => { f with blocked := false }).setRf (pwrReg 0x0C) (b01 b) 1 0

/-- A release by supervision or time: it counts in BLKREL and fires event BLKREL (R356). -/
def State.blockRelease (s : State) (b : Bool) : State :=
  if (s.feed b).blocked then ((s.unblock b).count (pwrReg 0x18) 16 8).fireMasked (pwrReg 0x1C) 2 (2 * 65536 + b01 b) else s

/-- The class of a feed after a sample (R343). Durations count samples of 50 µs. -/
def Feed.classify (f : Feed) : Nat :=
  if 20 ≤ f.nUv then 1 else if 20 ≤ f.nOv then 2 else if 200 ≤ f.nOc then 3 else if f.cls = 0 ∨ 2000 ≤ f.nOk then 0 else f.cls

/-- A sample enters the counts of a feed (R342, R343). -/
def Feed.sample (f : Feed) (mv ma : Nat) : Feed :=
  let run (p : Bool) (n : Nat) : Nat := if p then n + 1 else 0
  let f : Feed := { f with mv := mv % 65536, ma := ma % 65536, carry := decide (200 < ma), nUv := run (decide (mv < 10800)) f.nUv, nOv := run (decide (13200 < mv)) f.nOv, nOc := run (decide (5000 < ma)) f.nOc }
  let faulty := decide (20 ≤ f.nUv) || decide (20 ≤ f.nOv) || decide (200 ≤ f.nOc)
  { f with nOk := run (decide (10900 ≤ mv) && decide (mv ≤ 13100) && !faulty) f.nOk }

/-- Surveyor samples a feed (R343): a new class other than OK is a fault. -/
def State.feedSampled (s : State) (b : Bool) (mv ma : Nat) : State :=
  let old := (s.feed b).cls
  let s := s.updFeed b fun f => f.sample mv ma
  let c := (s.feed b).classify
  let s := s.updFeed b fun f => { f with cls := c }
  if c ≠ 0 ∧ c ≠ old then s.feedFault b c else s

/-- A block ends when the other feed is not OK (R356). -/
def State.checkBlocks (s : State) : State :=
  let s := if s.feedOk true then s else s.blockRelease false
  if s.feedOk false then s else s.blockRelease true

/-- The voltage after the OR elements in reset: below 9.5 V it asserts the internal reset, which then holds until the voltage has been
above 10.0 V for 10 ms (R344). -/
def State.orSample (s : State) (mvOr : Nat) : State :=
  if mvOr < 9500 then s.updSys fun y => { y with internal := true, orOk := 0 }
  else if s.sys.internal then s.updSys fun y => { y with orOk := if 10000 < mvOr then min (y.orOk + 1) 200 else if y.orOk = 200 then 200 else 0 }
  else s

/-- FEED_SAMPLE: voltage in mV and current in mA of each feed, and the voltage after the OR elements (R343, R344, R356). -/
def execFeedSample (mvA maA mvB maB mvOr : Nat) (s : State) : Out :=
  .next (if !s.powered then s.orSample mvOr
    else if mvOr < 9500 then s.internalReset
    else (((s.feedSampled false mvA maA).feedSampled true mvB maB).checkBlocks).rdnRefresh)

/-- REV: an OR element blocks a reverse current (R342, R343); the spec gives REV no class for the Field Book. -/
def execRev (feedB : Bool) (s : State) : Out :=
  .next (if !s.powered then s
    else
      let s := s.setRf (pwrReg 0) (8 + b01 feedB) 1 1
      let (s, c) := s.freshWord (2 ^ 32)
      ((s.feedFault feedB c).checkBlocks).rdnRefresh)

/-- A write of a BLOCK bit (R356): refused, leaving the field at 0, unless the other feed is OK and not blocked. -/
def State.blockFeed (s : State) (b on : Bool) : State :=
  if !on then s.unblock b
  else if (s.feed b).blocked then s
  else if !s.feedOk (!b) || (s.feed (!b)).blocked then s.setRf (pwrReg 0x0C) (b01 b) 1 0
  else (s.updFeed b fun f => { f with blocked := true, blkUntil := s.upNs + s.rf (pwrReg 0x0C) 8 8 * 1000000000 }).setRf (pwrReg 0x0C) (b01 b) 1 1

/-- BLOCK (R356). -/
def execBlock (feedB on : Bool) (s : State) : Out := .next (if s.powered then s.blockFeed feedB on else s)

/-- BLKTMO_EXPIRY (R356). -/
def execBlktmoExpiry (feedB : Bool) (s : State) : Out :=
  .next (if s.powered && (s.feed feedB).blocked && decide ((s.feed feedB).blkUntil ≤ s.upNs) then s.blockRelease feedB else s)

/-- 90 days in seconds (R355). -/
def latentS : Nat := 7776000

/-- LATENT_UPDATE: each second (R355). -/
def execLatentUpdate (s : State) : Out :=
  let now := s.mer.sec % 2 ^ 32
  let old (t : Nat) : Bool := decide (latentS ≤ (now + 2 ^ 32 - t) % 2 ^ 32)
  .next (if !s.powered then s
    else
      let note (f : Feed) : Feed := if f.carry then { f with lat := now } else f
      let s : State := { s with feedA := note s.feedA, feedB := note s.feedB }
      let act := s.rdn.st == .active
      let tx := if act then now else s.rdn.latTx
      { s with rdn := { s.rdn with latTx := tx, latOrF := (!s.feedA.carry && old s.feedA.lat) || (!s.feedB.carry && old s.feedB.lat), latTxF := !act && old tx } })

/-- The bits of a PWR register that hardware keeps (chapter 14). -/
def State.pwrRead (s : State) (off : Nat) : Nat :=
  let a := s.feedA
  let b := s.feedB
  match off with
  | 0x00 => a.cls + b.cls * 4 + b01 a.carry * 16 + b01 b.carry * 32 + b01 a.blocked * 64 + b01 b.blocked * 128
  | 0x04 => a.mv + a.ma * 65536
  | 0x08 => b.mv + b.ma * 65536
  | 0x10 => a.lat
  | 0x14 => b.lat
  | _ => 0

/-- The bits of an RDN register that hardware keeps (chapter 14). -/
def State.rdnRead (s : State) (off : Nat) : Nat :=
  let r := s.rdn
  match off with
  | 0x00 => b01 r.paired + b01 r.portB * 2
  | 0x04 => r.st.code + b01 r.paired * 4 + b01 s.sys.priSel * 8 + b01 r.actOut * 16 + b01 r.actIn * 32 + b01 r.priConf * 64 + b01 r.plost * 128 + r.lastCause * 256 + r.pstate * 65536
  | 0x08 => r.result * 256
  | 0x0C => r.health + b01 r.latOrF * 2 ^ 16 + b01 r.latTxF * 2 ^ 17
  | 0x10 => r.phealth
  | 0x20 => r.digest
  | 0x28 => r.latTx
  | _ => 0

end Sys2Proof.Machine
end

