-- ==== Sys2Proof/Machine/SleCmd.lean ====
section
/-! DEFINITION. The commands of the Servo Loop Engine and its reads (R145–R165). -/

namespace Sys2Proof.Machine

/-- A command by the registers of an SLE axis: the value is VALHI:VALLO and the result goes to CMDST (R165). -/
def State.sleByReg (s : State) (d n code : Nat) : State :=
  if d = 0 ∨ 24 ≤ n ∨ !s.blockLive d then s
  else
    let v : W64 := s.rd (sleReg d n 8) ++ s.rd (sleReg d n 4)
    let (t, r) := s.sleCommand d n code v
    t.updSleAx d n fun a => { a with cmdSt := r }

/-- A command to the SLE by either path (R69, R70, R165). -/
def sleCmd (src : EngSrc) (code : Nat) (s : State) : State :=
  match src with
  | .engw c rd ra rb => runInstr c (fun t => t.engw c 2 rd ra rb fun d n v u => u.sleCommand d n code v) s
  | .reg d n => s.sleByReg d n code

/-- LOAD (R153, R154). -/
def execLoad (src : EngSrc) (s : State) : Out := .next (sleCmd src 0x01 s)

/-- FREE (R155). -/
def execFree (src : EngSrc) (s : State) : Out := .next (sleCmd src 0x02 s)

/-- GTAB (R156). -/
def execGtab (src : EngSrc) (s : State) : Out := .next (sleCmd src 0x03 s)

/-- COEF (R152). -/
def execCoef (src : EngSrc) (s : State) : Out := .next (sleCmd src 0x04 s)

/-- LMODE (R158). -/
def execLmode (src : EngSrc) (s : State) : Out := .next (sleCmd src 0x06 s)

/-- LMCFG (R152). -/
def execLmcfg (src : EngSrc) (s : State) : Out := .next (sleCmd src 0x07 s)

/-- INBIND (R163). -/
def execInbind (src : EngSrc) (s : State) : Out := .next (sleCmd src 0x08 s)

/-- OUTBIND (R163). -/
def execOutbind (src : EngSrc) (s : State) : Out := .next (sleCmd src 0x09 s)

/-- AXCFG (R163). -/
def execAxcfg (src : EngSrc) (s : State) : Out := .next (sleCmd src 0x0A s)

/-- HOCFG (R163). -/
def execHocfg (src : EngSrc) (s : State) : Out := .next (sleCmd src 0x0B s)

/-- A write of SLE_AXn_BANK: TARGET is stored and the command BANK issued with it (R150, R165). -/
def State.sleTarget (s : State) (d n : Nat) (b : Bool) : State :=
  if d = 0 ∨ 24 ≤ n ∨ !s.blockLive d then s
  else ((s.setRf (sleReg d n 0x18) 0 1 (b01 b)).sleCommand d n 5 (BitVec.ofNat 64 (b01 b))).1

/-- BANK by ENGW, by SLE_AXn_CMD or by a write of SLE_AXn_BANK.TARGET (R150, R165). -/
def execBank (src : BankSrc) (s : State) : Out :=
  match src with
  | .cmd e => .next (sleCmd e 0x05 s)
  | .target d n b => .next (s.sleTarget d n b)

/-- LOAD_PERFORMED: the load of this cycle is checked and performed (R153, R154). -/
def execLoadPerformed (die : Nat) (s : State) : Out := .next (if s.blockLive die then s.sleLoad die else s)

/-- SLE_SAMPLE: the pass over the axes of a sheet, once `at_` ns after the datum are reached (R145). -/
def execSleSample (die at_ : Nat) (order : List Nat) (s : State) : Out := .next (s.sleSample die at_ order)

/-- OFFCNT_EXPIRY: OFFCNT has reached 0 at the end of a sample and the SLE reports the axis disabled (R148). -/
def execOffcntExpiry (die axis : Nat) (s : State) : Out := .next (s.sleOffDone die axis)

/-! ### Registers and reads -/

/-- SLE_AXn_BANK.PENDING: a swap is requested and not yet applied, counting the accepted requests that wait for their datum
(R150). -/
def State.swapPending (s : State) (d n : Nat) : Bool :=
  let a := s.sleAx d n
  let req := (s.sleOf d).cmds.filter fun c => c.unit == n && c.code == 5
  (req.foldl (fun _ c => if (c.val == 1) = a.bank then none else some (c.val == 1)) a.swap).isSome

/-- SLE_AXn_STAT. -/
def State.sleStat (s : State) (d n : Nat) : Nat :=
  let a := s.sleAx d n
  a.shown.st.code + a.lmode * 16 + a.shown.outgoing * 64 + b01 a.bank * 256 + b01 (s.swapPending d n) * 512 + a.loop.iclamp * 1024
    + a.shown.hoj * 2 ^ 16 + a.age * 2 ^ 24

/-- SLE_AXn_FLAG. -/
def State.sleFlagReg (s : State) (d n : Nat) : Nat :=
  let a := s.sleAx d n
  (s.rd (sleReg d n 0x14)).toNat + b01 a.loop.sat + a.swcli * 256 + a.fcause * 2 ^ 16

/-- The value of an SLE read code (R164); none for a code not listed. -/
def State.sleRead (s : State) (d n code : Nat) : Option W64 :=
  let a := s.sleAx d n
  if code = 0 then some (BitVec.ofNat 64 (s.sleStat d n))
  else if code = 1 then some (BitVec.ofNat 64 (s.sleFlagReg d n))
  else if 2 ≤ code ∧ code ≤ 5 then some (w64 (a.loop.integ (code - 2)))
  else if code = 6 then some (w64 a.loop.rmp)
  else if code = 7 then some (w64 a.loop.pred)
  else if code = 8 then some (BitVec.ofNat 64 (a.loop.pcount + b01 a.loop.pvalid * 256))
  else if 0x10 ≤ code ∧ code ≤ 0x13 then some (a.lastOut (code - 0x10))
  else if 0x18 ≤ code ∧ code ≤ 0x1F then some (a.input (code - 0x18))
  else if 0x20 ≤ code ∧ code ≤ 0x27 then some (BitVec.ofNat 64 (a.inputAge (code - 0x20)))
  else if 0x40 ≤ code ∧ code ≤ 0x7F then some (BitVec.ofNat 64 (a.slot (decide (0x60 ≤ code)) ((code - 0x40) % 32)))
  else if code = 0x8A then some a.axcfg
  else if code = 0x8B then some a.hocfg
  else if 0x90 ≤ code ∧ code ≤ 0x97 then some (BitVec.ofNat 64 (a.entryOf (decide (0x94 ≤ code)) ((code - 0x90) % 4)))
  else if 0xA3 ≤ code ∧ code ≤ 0xA7 then some (BitVec.ofNat 64 (a.inBind (code - 0xA0)))
  else if 0xA8 ≤ code ∧ code ≤ 0xAB then some (BitVec.ofNat 64 (a.outBind (code - 0xA8)))
  else none

/-- ENGR with eng = 2 (R72, R164). -/
def sleEngr (c : CoreId) (rd rb : Reg) (code : Nat) (s : State) : State :=
  runInstr c (fun t => t.engr c 2 rd rb fun d n u => u.sleRead d n code) s

/-- ENGR: SLE_AXn_STAT (R164). -/
def execSleReadStat (c : CoreId) (rd rb : Reg) (s : State) : Out := .next (sleEngr c rd rb 0x00 s)

/-- ENGR: SLE_AXn_FLAG (R164). -/
def execSleReadFlag (c : CoreId) (rd rb : Reg) (s : State) : Out := .next (sleEngr c rd rb 0x01 s)

/-- ENGR: I0–I3 (R164). -/
def execSleReadInteg (c : CoreId) (rd rb : Reg) (i : Fin 4) (s : State) : Out := .next (sleEngr c rd rb (0x02 + i.val) s)

/-- ENGR: RMP (R164). -/
def execSleReadRmp (c : CoreId) (rd rb : Reg) (s : State) : Out := .next (sleEngr c rd rb 0x06 s)

/-- ENGR: PRED (R164). -/
def execSleReadPred (c : CoreId) (rd rb : Reg) (s : State) : Out := .next (sleEngr c rd rb 0x07 s)

/-- ENGR: PCOUNT and PVALID (R164). -/
def execSleReadPlaus (c : CoreId) (rd rb : Reg) (s : State) : Out := .next (sleEngr c rd rb 0x08 s)

/-- ENGR: the last value sent on an output (R164). -/
def execSleReadOutput (c : CoreId) (rd rb : Reg) (o : Fin 4) (s : State) : Out := .next (sleEngr c rd rb (0x10 + o.val) s)

/-- ENGR: an input (R164). -/
def execSleReadInput (c : CoreId) (rd rb : Reg) (i : Fin 8) (s : State) : Out := .next (sleEngr c rd rb (0x18 + i.val) s)

/-- ENGR: AGE of an input (R164). -/
def execSleReadAge (c : CoreId) (rd rb : Reg) (i : Fin 8) (s : State) : Out := .next (sleEngr c rd rb (0x20 + i.val) s)

/-- ENGR: a slot of bank A (R164). -/
def execSleReadCoefA (c : CoreId) (rd rb : Reg) (slot : Fin 32) (s : State) : Out := .next (sleEngr c rd rb (0x40 + slot.val) s)

/-- ENGR: a slot of bank B (R164). -/
def execSleReadCoefB (c : CoreId) (rd rb : Reg) (slot : Fin 32) (s : State) : Out := .next (sleEngr c rd rb (0x60 + slot.val) s)

/-- ENGR: AXCFG or HOCFG (R164). -/
def execSleReadCfg (c : CoreId) (rd rb : Reg) (ho : Bool) (s : State) : Out := .next (sleEngr c rd rb (0x8A + b01 ho) s)

/-- ENGR: a loop-mode entry (R164). -/
def execSleReadLmcfg (c : CoreId) (rd rb : Reg) (bank : Bool) (m : Fin 4) (s : State) : Out := .next (sleEngr c rd rb (0x90 + 4 * b01 bank + m.val) s)

/-- ENGR: the binding of input 3 + i (R164). -/
def execSleReadInbind (c : CoreId) (rd rb : Reg) (i : Fin 5) (s : State) : Out := .next (sleEngr c rd rb (0xA3 + i.val) s)

/-- ENGR: the binding of an output (R164). -/
def execSleReadOutbind (c : CoreId) (rd rb : Reg) (o : Fin 4) (s : State) : Out := .next (sleEngr c rd rb (0xA8 + o.val) s)

end Sys2Proof.Machine
end

