-- ==== Sys2Proof/Machine/TrvCmd.lean ====
section
/-! DEFINITION. The commands of Traverse, its reads and registers, and the events at its inputs (chapter 05). -/

namespace Sys2Proof.Machine

/-- A command by the registers of an axis: the value is VALHI:VALLO and the result goes to CMDST (R112). -/
def State.trvByReg (s : State) (d n code : Nat) : State :=
  if 6 < d ∨ trvAxes d ≤ n ∨ !s.blockLive d then s
  else
    let v : W64 := s.rd (trvReg d n 8) ++ s.rd (trvReg d n 4)
    let (t, r) := s.trvCommand d n code v
    t.updTrvAx d n fun a => { a with cmdSt := r }

/-- A command to Traverse by either path (R69, R70, R112). -/
def trvCmd (src : TrvSrc) (code : Nat) (s : State) : State :=
  match src with
  | .engw c hub rd ra rb => runInstr c (fun t => t.engw c (b01 hub) rd ra rb fun d n v u => u.trvCommand d n code v) s
  | .reg d n => s.trvByReg d n code

/-- ENABLE (R106). -/
def execEnable (src : TrvSrc) (s : State) : Out := .next (trvCmd src 0x01 s)

/-- DISABLE (R106, R108). -/
def execDisable (src : TrvSrc) (s : State) : Out := .next (trvCmd src 0x02 s)

/-- STOP (R106). -/
def execStop (src : TrvSrc) (s : State) : Out := .next (trvCmd src 0x03 s)

/-- QSTOP (R106, R118). -/
def execQstop (src : TrvSrc) (s : State) : Out := .next (trvCmd src 0x04 s)

/-- CLEAR_FAULT (R106, R136). -/
def execClearFault (src : TrvSrc) (s : State) : Out := .next (trvCmd src 0x05 s)

/-- MODE (R106). -/
def execMode (src : TrvSrc) (s : State) : Out := .next (trvCmd src 0x06 s)

/-- XTARGET (R115, R123). -/
def execXtarget (src : TrvSrc) (s : State) : Out := .next (trvCmd src 0x10 s)

/-- VSTART (R114). -/
def execVstart (src : TrvSrc) (s : State) : Out := .next (trvCmd src 0x11 s)

/-- A1 (R114). -/
def execA1 (src : TrvSrc) (s : State) : Out := .next (trvCmd src 0x12 s)

/-- V1 (R114). -/
def execV1 (src : TrvSrc) (s : State) : Out := .next (trvCmd src 0x13 s)

/-- AMAX (R114). -/
def execAmax (src : TrvSrc) (s : State) : Out := .next (trvCmd src 0x14 s)

/-- VMAX (R114). -/
def execVmax (src : TrvSrc) (s : State) : Out := .next (trvCmd src 0x15 s)

/-- DMAX (R114). -/
def execDmax (src : TrvSrc) (s : State) : Out := .next (trvCmd src 0x16 s)

/-- D1 (R114). -/
def execD1 (src : TrvSrc) (s : State) : Out := .next (trvCmd src 0x17 s)

/-- VSTOP (R114). -/
def execVstop (src : TrvSrc) (s : State) : Out := .next (trvCmd src 0x18 s)

/-- QDEC (R118). -/
def execQdec (src : TrvSrc) (s : State) : Out := .next (trvCmd src 0x19 s)

/-- VJOG (R117). -/
def execVjog (src : TrvSrc) (s : State) : Out := .next (trvCmd src 0x1A s)

/-- SETPOS (R107). -/
def execSetpos (src : TrvSrc) (s : State) : Out := .next (trvCmd src 0x1B s)

/-- SWLIM_LO (R122). -/
def execSwlimLo (src : TrvSrc) (s : State) : Out := .next (trvCmd src 0x1C s)

/-- SWLIM_HI (R122). -/
def execSwlimHi (src : TrvSrc) (s : State) : Out := .next (trvCmd src 0x1D s)

/-- AXIS_CFG (R121). -/
def execAxisCfg (src : TrvSrc) (s : State) : Out := .next (trvCmd src 0x20 s)

/-- LIM_CFG (R133). -/
def execLimCfg (src : TrvSrc) (s : State) : Out := .next (trvCmd src 0x21 s)

/-- DEBOUNCE (R134). -/
def execDebounce (src : TrvSrc) (s : State) : Out := .next (trvCmd src 0x22 s)

/-- CHATTER_WIN (R135). -/
def execChatterWin (src : TrvSrc) (s : State) : Out := .next (trvCmd src 0x23 s)

/-- STALL_CFG (R138). -/
def execStallCfg (src : TrvSrc) (s : State) : Out := .next (trvCmd src 0x24 s)

/-- MOTOR (R138). -/
def execMotor (src : TrvSrc) (s : State) : Out := .next (trvCmd src 0x25 s)

/-- STALLFLOW (R138). -/
def execStallflow (src : TrvSrc) (s : State) : Out := .next (trvCmd src 0x26 s)

/-- ENC_CPR (R121). -/
def execEncCpr (src : TrvSrc) (s : State) : Out := .next (trvCmd src 0x27 s)

/-- PATH_COMMIT (R125). -/
def execPathCommit (src : TrvSrc) (s : State) : Out := .next (trvCmd src 0x28 s)

/-- GEAR_MASTER (R129). -/
def execGearMaster (src : TrvSrc) (s : State) : Out := .next (trvCmd src 0x30 s)

/-- GEAR_RATIO (R130). -/
def execGearRatio (src : TrvSrc) (s : State) : Out := .next (trvCmd src 0x31 s)

/-- GEAR_ARMPOS (R131). -/
def execGearArmpos (src : TrvSrc) (s : State) : Out := .next (trvCmd src 0x32 s)

/-- GEAR_ARM (R131). -/
def execGearArm (src : TrvSrc) (s : State) : Out := .next (trvCmd src 0x33 s)

/-- GEAR_RAMP (R132). -/
def execGearRamp (src : TrvSrc) (s : State) : Out := .next (trvCmd src 0x34 s)

/-- GEAR_DISARM (R131). -/
def execGearDisarm (src : TrvSrc) (s : State) : Out := .next (trvCmd src 0x35 s)

/-- HOME_CFG (R137). -/
def execHomeCfg (src : TrvSrc) (s : State) : Out := .next (trvCmd src 0x40 s)

/-- HOME_VSEARCH (R137). -/
def execHomeVsearch (src : TrvSrc) (s : State) : Out := .next (trvCmd src 0x41 s)

/-- HOME_VLATCH (R137). -/
def execHomeVlatch (src : TrvSrc) (s : State) : Out := .next (trvCmd src 0x42 s)

/-- HOME_OFFSET (R137). -/
def execHomeOffset (src : TrvSrc) (s : State) : Out := .next (trvCmd src 0x43 s)

/-- HOME_BACKOFF (R137). -/
def execHomeBackoff (src : TrvSrc) (s : State) : Out := .next (trvCmd src 0x44 s)

/-- HOME_MAXDIST (R137). -/
def execHomeMaxdist (src : TrvSrc) (s : State) : Out := .next (trvCmd src 0x45 s)

/-- HOME_START (R137). -/
def execHomeStart (src : TrvSrc) (s : State) : Out := .next (trvCmd src 0x46 s)

/-! ### Registers and reads (R111, R144) -/

/-- TRV_AXn_STAT. -/
def State.trvStat (s : State) (d n : Nat) : Nat :=
  let a := s.trvAx d n
  a.st.code + a.seg * 16 + b01 a.atTarget * 128 + b01 a.pendEn * 256 + b01 a.reversing * 512 + b01 a.arm.isSome * 1024 +
    b01 a.ramp.isSome * 2048 + b01 a.homed * 4096 + b01 a.limp.level * 8192 + b01 a.limn.level * 16384 + b01 a.ref.level * 32768 +
    b01 a.stall * 65536 + b01 (s.holds (.trv d n)) * 131072 + a.page % 256 * 2 ^ 24

/-- TRV_AXn_FLAG. -/
def State.trvFlag (s : State) (d n : Nat) : Nat := (s.rd (trvReg d n 0x14)).toNat + (s.trvAx d n).fcause * 65536

/-- TRV_AXn_LOAD. -/
def State.trvLoad (s : State) (d n : Nat) : Nat := wrapN 16 (s.trvAx d n).load + s.rf (trvReg d n 0x24) 16 16 * 65536

/-- A read code of R111, as the 64-bit value; none for a code that is not assigned. -/
def State.trvRead (s : State) (d n code : Nat) : Option W64 :=
  let a := s.trvAx d n
  match code with
  | 0x00 => some (BitVec.ofNat 64 (s.trvStat d n))
  | 0x01 => some (BitVec.ofNat 64 (s.trvFlag d n))
  | 0x02 => some (w64 a.p)
  | 0x03 => some (w64 a.vel32)
  | 0x04 => some (w64 a.acc32)
  | 0x05 => some (a.val 0x10)
  | 0x06 => some (w64 a.m)
  | 0x07 => some (BitVec.ofNat 64 (s.trvLoad d n))
  | 0x08 => some (w64 a.latched)
  | 0x09 => some (BitVec.ofNat 64 (a.planSeq + ((a.plan.map fun p => p.knots.length - p.next).getD 0) * 65536))
  | 0x0A => some (BitVec.ofNat 64 a.grem)
  | _ =>
    if 0x90 ≤ code ∧ code ≤ 0xC5 ∧ trvCodes.contains (code - 0x80) then
      some (if code = 0xB5 then 0 else a.val (code - 0x80))
    else none

/-- The bits of a TRV or TRH register that hardware keeps, by block offset. -/
def State.trvRegRead (s : State) (d off : Nat) : Nat :=
  if off = 0 then trvAxes d + 256 + b01 (d == 0) * 65536
  else if off = 4 then ((List.range (trvAxes d)).map fun n => b01 ((s.trvAx d n).v != 0) * 2 ^ n).sum
  else if 0x2100 ≤ off ∧ off < 0x2140 ∧ d = 0 then (Table.get (fun _ => ({} : Enc)) s.enc ((off - 0x2100) / 4)).latched.toNat
  else if 0x2180 ≤ off ∧ off < 0x21C0 ∧ d = 0 then (Table.get (fun _ => ({} : Enc)) s.enc ((off - 0x2180) / 4)).idx.toNat
  else if 0x1000 ≤ off ∧ off < 0x1000 + 0x40 * trvAxes d then
    let n := (off - 0x1000) / 0x40
    let a := s.trvAx d n
    match (off - 0x1000) % 0x40 with
    | 0x0C => a.cmdSt
    | 0x10 => s.trvStat d n
    | 0x14 => a.fcause * 65536
    | 0x18 => wrapN 64 a.p % 2 ^ 32
    | 0x20 => wrapN 32 a.vel32
    | 0x24 => wrapN 16 a.load
    | 0x2C => a.lastRef
    | _ => 0
  else 0

/-- An ENGR read of Traverse (R69, R72, R111). -/
def trvEngr (c : CoreId) (hub : Bool) (rd rb : Reg) (code : Nat) (s : State) : State :=
  runInstr c (fun t => t.engr c (b01 hub) rd rb fun d n u => u.trvRead d n code) s

/-- ENGR read code 0x00 of Traverse (R111). -/
def execTrvReadStat (c : CoreId) (hub : Bool) (rd rb : Reg) (s : State) : Out := .next (trvEngr c hub rd rb 0x00 s)

/-- ENGR read code 0x01 of Traverse (R111). -/
def execTrvReadFlag (c : CoreId) (hub : Bool) (rd rb : Reg) (s : State) : Out := .next (trvEngr c hub rd rb 0x01 s)

/-- ENGR read code 0x02 of Traverse (R111). -/
def execTrvReadPosition (c : CoreId) (hub : Bool) (rd rb : Reg) (s : State) : Out := .next (trvEngr c hub rd rb 0x02 s)

/-- ENGR read code 0x03 of Traverse (R111). -/
def execTrvReadSpeed (c : CoreId) (hub : Bool) (rd rb : Reg) (s : State) : Out := .next (trvEngr c hub rd rb 0x03 s)

/-- ENGR read code 0x04 of Traverse (R111). -/
def execTrvReadAccel (c : CoreId) (hub : Bool) (rd rb : Reg) (s : State) : Out := .next (trvEngr c hub rd rb 0x04 s)

/-- ENGR read code 0x05 of Traverse (R111). -/
def execTrvReadXtarget (c : CoreId) (hub : Bool) (rd rb : Reg) (s : State) : Out := .next (trvEngr c hub rd rb 0x05 s)

/-- ENGR read code 0x06 of Traverse (R111). -/
def execTrvReadMaster (c : CoreId) (hub : Bool) (rd rb : Reg) (s : State) : Out := .next (trvEngr c hub rd rb 0x06 s)

/-- ENGR read code 0x07 of Traverse (R111). -/
def execTrvReadLoad (c : CoreId) (hub : Bool) (rd rb : Reg) (s : State) : Out := .next (trvEngr c hub rd rb 0x07 s)

/-- ENGR read code 0x08 of Traverse (R111). -/
def execTrvReadLatched (c : CoreId) (hub : Bool) (rd rb : Reg) (s : State) : Out := .next (trvEngr c hub rd rb 0x08 s)

/-- ENGR read code 0x09 of Traverse (R111). -/
def execTrvReadPlan (c : CoreId) (hub : Bool) (rd rb : Reg) (s : State) : Out := .next (trvEngr c hub rd rb 0x09 s)

/-- ENGR read code 0x0A of Traverse (R111). -/
def execTrvReadGrem (c : CoreId) (hub : Bool) (rd rb : Reg) (s : State) : Out := .next (trvEngr c hub rd rb 0x0A s)

/-- ENGR read code 0x80 + c of Traverse: a stored value (R111). -/
def execTrvReadStored (c : CoreId) (hub : Bool) (rd rb : Reg) (code : BitVec 7) (s : State) : Out :=
  .next (trvEngr c hub rd rb (0x80 + code.toNat) s)

/-! ### Events at the inputs -/

/-- JOG_TIMEOUT: no VJOG has applied for 100 ms, the present cycle included (R117). -/
def execJogTimeout (die axis : Nat) (s : State) : Out :=
  let a := s.trvAx die axis
  .next (if s.blockLive die && a.st == .jog && decide (jogLimit s.mer.cycleLen ≤ a.jogAge + 1) then
    s.setTrvAx die axis { a with jogOut := true } else s)

/-- A debounced input takes its sampled level once it has differed at `need` consecutive datums (R134). -/
def Debounce.expire (d : Debounce) (need : Nat) : Debounce :=
  if d.seen && d.last != d.level && decide (need ≤ d.diff) then { d with level := d.last, diff := 0 } else d

/-- DEBOUNCE_EXPIRY: input 0 LIMP, 1 LIMN, 2 REF (R134). -/
def execDebounceExpiry (die axis : Nat) (input : Fin 3) (s : State) : Out :=
  let a := s.trvAx die axis
  let need := ceilDiv (a.num' 0x22 * 1000) s.mer.cycleLen
  .next (if !s.blockLive die || decide (6 < die) || decide (trvAxes die ≤ axis) then s
    else s.setTrvAx die axis (match input with
      | 0 => { a with limp := a.limp.expire need }
      | 1 => { a with limn := a.limn.expire need }
      | _ => { a with ref := a.ref.expire need }))

/-- STALL: LOAD has been at or above TH for CNT datums (R138). -/
def execStall (die axis : Nat) (s : State) : Out :=
  let a := s.trvAx die axis
  let on := fld (a.num' 0x24) 24 2 ≠ 0 ∧ fld (a.num' 0x24) 16 8 ≤ a.stallN ∧ sxt 16 (fld (a.num' 0x24) 0 16) ≤ a.load
  .next (if s.blockLive die && decide on && !a.stall then
      let t := s.setTrvAx die axis { a with stall := true }
      if fld (a.num' 0x24) 24 2 = 1 then t.setRf (trvReg die axis 0x14) 6 1 1 else t
    else s)

/-- TRH_ENCn_CTL. -/
def encCtl (n : Nat) : Nat := rg 0 0x0D (0x2140 + 4 * n)

/-- An encoder input. -/
def State.encOf (s : State) (n : Nat) : Enc := Table.get (fun _ => {}) s.enc n

/-- Replace an encoder input. -/
def State.setEnc (s : State) (n : Nat) (x : Enc) : State := { s with enc := Table.set (fun _ => {}) s.enc n x }

/-- INDEX_CAPTURE: an index edge captures the count while IDX_ARM is 1 (R140). -/
def execIndexCapture (n : Fin 16) (s : State) : Out :=
  .next (if s.blockLive 0 && s.rb (encCtl n.val) 3 then
      let x := s.encOf n.val
      (s.setEnc n.val { x with idx := x.count, idxNew := true }).setRf (encCtl n.val) 3 1 0
    else s)

/-- IDX_ARM: a write of 1 arms index capture (R140). -/
def execIdxArm (n : Fin 16) (s : State) : Out := .next (if s.blockLive 0 then s.setRf (encCtl n.val) 3 1 1 else s)

/-- The place of a pair of levels in the quadrature sequence 00, 10, 11, 01. -/
def quad (a b : Bool) : Nat := match a, b with | false, false => 0 | true, false => 1 | true, true => 2 | false, true => 3

/-- ENCODER_TRANSITION: x4 quadrature decoding, ERR when both inputs change at once (R140). -/
def execEncoderTransition (n : Fin 16) (a b : Bool) (s : State) : Out :=
  let x := s.encOf n.val
  let k := (quad a b + 4 - quad x.a x.b) % 4
  let y : Enc := { x with a := a, b := b }
  .next (if !s.blockLive 0 then s
    else if k = 0 then s
    else if k = 2 then (s.setEnc n.val y).setRf (encCtl n.val) 4 1 1
    else
      let up := (k == 1) != s.rb (encCtl n.val) 2
      s.setEnc n.val { y with count := if up then x.count + 1 else x.count - 1 })

/-- The encoder counts are latched at the datum (R140). -/
def State.latchEnc (s : State) : State := { s with enc := Table.mapV {} (fun (x : Enc) => { x with latched := x.count }) s.enc }

/-- The index captures of the cycle have been seen by the axes. -/
def State.clearIdx (s : State) : State := { s with enc := Table.mapV {} (fun (x : Enc) => { x with idxNew := false }) s.enc }

end Sys2Proof.Machine
end

