-- ==== Sys2Proof/Machine/WdxCmd.lean ====
section
/-! DEFINITION. The steps and registers of the Work Dispatcher that no instruction brings: delay expiries, stations, held and
pending firings, and its registers with behaviour (R89–R104). -/

namespace Sys2Proof.Machine

/-- A WDX register. -/
def wdxReg (off : Nat) : Nat := rg 0 1 off

/-- DELAY_EXPIRY: the delay-list entries due at the present tick expire; one that finds its list full is retried at the next
tick (R94, R99). -/
def execDelayExpiry (s : State) : Out := .next (if s.blockLive 0 then s.expireTo s.wdx.ticks else s)

/-- STATION_MOVE: the first READY item that a station with room may take moves there (R92). -/
def execStationMove (s : State) : Out := .next (if s.blockLive 0 then s.stationMove else s)

/-- HELD_EVENT_ACCEPT: WDX takes the first held event that it can accept (R94, R97). -/
def execHeldEventAccept (s : State) : Out := .next (if s.blockLive 0 then s.acceptHeld.settled else s)

/-- PEND_QUEUE: a pending firing of a coalescing source is queued once the list has room (R95, R97). -/
def execPendQueue (entry : Nat) (s : State) : Out := .next (if s.blockLive 0 then s.queuePend entry else s)

/-- A write of WDX_EVT_CTLn (R97): KIND 2 or 3 discards what is held or pending. -/
def State.evtCtl (s : State) (e : Nat) (v : W32) : State :=
  let t := s.setRf (wdxReg (0x8000 + 4 * e)) 0 2 (fld v.toNat 0 2)
  (if 2 ≤ fld v.toNat 0 2 then t.dropFirings e else t).settled

/-- EVT_CTL_WRITE (R97). -/
def execEvtCtlWrite (entry : Nat) (v : W32) (s : State) : Out :=
  .next (if s.blockLive 0 && decide (entry < 512) then s.evtCtl entry v else s)

/-- A write of WDX_CANCEL by a master, which keeps its result (R90, R104). -/
def State.wdxCancel (s : State) (m : Master) (handle : Nat) : State :=
  let (t, r) := s.cancelItem handle
  match m with
  | .core c => t.updCore c fun x => { x with cancelRes := r }
  | .ext => { t with wdx := { t.wdx with extCancel := r } }

/-- CANCEL (R104). -/
def execCancel (m : Master) (handle : BitVec 16) (s : State) : Out :=
  .next (if s.blockLive 0 then s.wdxCancel m handle.toNat else s)

/-- A write of WDX_HQUERY by a master: the item's state is found now (R90). -/
def State.wdxQuery (s : State) (m : Master) (handle : Nat) : State :=
  let r := s.wdx.query handle
  match m with
  | .core c => s.updCore c fun x => { x with hqHandle := handle, hqRes := r }
  | .ext => { s with wdx := { s.wdx with extHandle := handle, extRes := r } }

/-- HQUERY (R90). -/
def execHquery (m : Master) (handle : BitVec 16) (s : State) : Out :=
  .next (if s.blockLive 0 then s.wdxQuery m handle.toNat else s)

/-- Whether a completion ring would lie wholly in hub SRAM (R102). -/
def ringFits (base log2 : Nat) : Bool := hubRange (base * 256) (32 * 2 ^ log2)

/-- A write of WDX_CRSIZE (R102): taken, it empties the ring. -/
def State.crSize (s : State) (v : W32) : State :=
  let n := fld v.toNat 0 4
  if 4 ≤ n ∧ n ≤ 12 ∧ ringFits (s.rf (wdxReg 0x20) 0 32) n then
    let t := (s.setRf (wdxReg 0x24) 0 4 n).setRf (wdxReg 0x2C) 0 12 0
    { t with wdx := { t.wdx with crHead := 0 } }
  else s

/-- CRSIZE_WRITE (R102). -/
def execCrsizeWrite (v : W32) (s : State) : Out := .next (if s.blockLive 0 then s.crSize v else s)

/-- A write of a WDX register (04 Register map). -/
def State.wdxWrite (s : State) (m : Master) (off : Nat) (v : W32) : State :=
  let r := wdxReg off
  let plain := s.wr r (plainWrite r (s.rd r) v)
  if 0x8000 ≤ off ∧ off < 0x8800 then s.evtCtl ((off - 0x8000) / 4) v
  else
    match off with
    | 0x0C => s.wdxQuery m (fld v.toNat 0 16)
    | 0x10 => s.wdxCancel m (fld v.toNat 0 16)
    | 0x20 => if ringFits v.toNat (s.rf (wdxReg 0x24) 0 4) then plain else s
    | 0x24 => s.crSize v
    | 0x2C => if fld v.toNat 0 12 < 2 ^ s.rf (wdxReg 0x24) 0 4 then plain else s
    | _ => if 0x40 ≤ off ∧ off < 0x80 then plain.settled else plain

/-- The bits of a WDX register that WDX keeps, as a master reads them. -/
def State.wdxRead (s : State) (m : Master) (off : Nat) : Nat :=
  if 0x8000 ≤ off ∧ off < 0x8800 then
    let e := (off - 0x8000) / 4
    b01 (s.wdx.pendOf e != Pend.idle) * 256 + Table.get (fun _ => 0) s.wdx.fires e * 65536
  else if 0x80 ≤ off ∧ off < 0x9C then if s.dieFitted ((off - 0x80) / 4) then s.wdx.delayCount ((off - 0x80) / 4) else 0
  else
    match off, m with
    | 0x08, _ => s.wdx.freeCount + (s.wdx.items.filter fun x => !(x.2.st.queued || x.2.st.isDelayed)).length * 65536
    | 0x0C, .core c => (s.core c).hqHandle + (s.core c).hqRes * 65536
    | 0x0C, .ext => s.wdx.extHandle + s.wdx.extRes * 65536
    | 0x10, .core c => (s.core c).cancelRes * 65536
    | 0x10, .ext => s.wdx.extCancel * 65536
    | 0x28, _ => s.wdx.crHead
    | _, _ => 0

end Sys2Proof.Machine
end

