-- ==== Sys2Proof/Machine/RegBus.lean ====
section
/-! DEFINITION. The register path: what a write does and what a read answers, for every register (R9–R13, R18, R19). -/

namespace Sys2Proof.Machine

/-- A write that only stores, under the access codes of the fields (R9, R11). -/
def State.plain (s : State) (r : Nat) (v : W32) : State := s.wr r (plainWrite r (s.rd r) v)

/-- Whether the block of a register is held in reset while WRST_N is taken low (R372). -/
def heldBlock (r : Nat) : Bool :=
  let b := fld r 16 8
  decide (r / 2 ^ 24 = 0) && (b == 1 || b == 3 || b == 4 || b == 7 || b == 0x0D)

/-- Whether a register's block takes accesses now: power is good and it is not held in reset. -/
def State.regLive (s : State) (r : Nat) : Bool := s.powered && s.regOk r && !(s.sys.wrst && heldBlock r)

/-! ### Writes with behaviour -/

/-- SYS (chapters 01, 13). -/
def State.sysWrite (s : State) (off : Nat) (v : W32) : State :=
  match off with
  | 0x04 => s.compatWrite (v.getLsbD 0)
  | 0x10 =>
    let s := if v.getLsbD 16 && !s.sys.wrst then s.askShut else s
    if v.getLsbD 17 && !s.sys.wrst then s.askResume else s
  | 0x28 => s.wr (rg 0 0 0x24) (s.rd (rg 0 0 0x24) ||| v)
  | 0x2C => s.wr (rg 0 0 0x24) (s.rd (rg 0 0 0x24) &&& ~~~v)
  | _ => s.plain (rg 0 0 off) v

/-- MER: MER_RATE is refused and logged in BUS (R298). -/
def State.merWrite (s : State) (off : Nat) (v : W32) : State :=
  match off with
  | 0x24 => if s.mer.bus then s.log 0x0021 2 0 2 (merR 0x24) v.toNat 0 else s.plain (merR 0x24) v
  | 0x3C => if v.getLsbD 0 then s.stepRequest else s
  | 0x50 => if v.getLsbD 0 then s.bindRequest else s
  | _ => s.plain (merR off) v

/-- VBA and VBB (chapter 10). -/
def State.vbWrite (s : State) (chB : Bool) (off : Nat) (v : W32) : State :=
  match off, chB with
  | 0x04, _ => s.portCfg chB false v
  | 0x08, _ => s.portCfg chB true v
  | 0x100, false => s.vbaCtl v
  | 0x114, false => if v.getLsbD 0 then s.loadGraticule else s
  | 0x124, false =>
    let s := s.plain (vba 0x124) v
    if v.getLsbD 3 then s.modeReq (fld v.toNat 0 3) else s
  | 0x134, false => if v.getLsbD 11 then s.relGrant (v.getLsbD 10) (fld v.toNat 0 10) else s
  | 0x144, false => s.zw0 v
  | 0x148, false => s.zw1 v
  | _, _ => s.plain (rg 0 (if chB then 4 else 3) off) v

/-- HNA and HNB (chapter 11). -/
def State.hnWrite (s : State) (b : Bool) (off : Nat) (v : W32) : State :=
  let t := s.plain (hn b off) v
  if off = 4 then t.hostEn b (v.getLsbD 0) else t

/-- DMH and DMS (chapter 12): a write of a channel's configuration while the channel is not IDLE or HALTED is ignored and logged
(R327). -/
def State.dmaWrite (s : State) (d off : Nat) (v : W32) : State :=
  let st := (s.ch d ((off - 0x100) / 0x40)).st
  if 0x100 ≤ off ∧ off < 0x500 ∧ (off - 0x100) % 0x40 ≤ 0x14 ∧ st ≠ .idle ∧ st ≠ .halted then
    s.log 0x0021 2 d (dmaBlk d) (rg d (dmaBlk d) off) v.toNat 0
  else if 0x100 ≤ off ∧ off < 0x500 ∧ (off - 0x100) % 0x40 = 0x24 then s.dmaByReg d ((off - 0x100) / 0x40) (fld v.toNat 0 8)
  else s.plain (rg d (dmaBlk d) off) v

/-- MEM (chapter 12). -/
def State.memWrite (s : State) (d off : Nat) (v : W32) : State := if off = 0x1C then s.writeRet d v else s.plain (rg d (memBlk d) off) v

/-- CRT (chapter 09): its commands reach a Cartouche that runs. -/
def State.crtWrite (s : State) (off : Nat) (v : W32) : State :=
  match off with
  | 0x24 =>
    let s := if v.getLsbD 1 && s.crtUp then s.reseal else s
    if v.getLsbD 0 && s.crtUp then s.legalGo else s
  | 0x30 =>
    let s := s.plain (crtReg 0x30) v
    if v.getLsbD 31 && s.crtUp then s.windowGo else s
  | 0x40 => if s.crtUp then s.crtCommand (fld v.toNat 0 3) (fld v.toNat 4 3) (fld v.toNat 8 24) else s
  | _ => s.plain (crtReg off) v

/-- SFY (chapter 15): CRIT below WARN leaves CRIT unchanged. -/
def State.sfyWrite (s : State) (off : Nat) (v : W32) : State :=
  match off with
  | 0x20 => s.sfyCommand (fld v.toNat 0 8)
  | 0x50 => { s with fb := { s.fb with lost := fld v.toNat 16 16 } }
  | 0x80 =>
    let old := s.rf (sfyReg 0x80) 8 8
    let s := s.plain (sfyReg 0x80) v
    if fld v.toNat 8 8 < fld v.toNat 0 8 then s.setRf (sfyReg 0x80) 8 8 old else s
  | _ => s.plain (sfyReg off) v

/-- PWR (chapter 14). -/
def State.pwrWrite (s : State) (off : Nat) (v : W32) : State :=
  if off = 0x0C then
    let t := fld v.toNat 8 8
    let s := if t = 0 then s else s.setRf (pwrReg 0x0C) 8 8 t
    (s.blockFeed false (v.getLsbD 0)).blockFeed true (v.getLsbD 1)
  else s.plain (pwrReg off) v

/-- RDN (chapter 14). -/
def State.rdnWrite (s : State) (off : Nat) (v : W32) : State :=
  if off = 8 then
    let c := fld v.toNat 0 2
    if c = 1 ∨ c = 2 then { s with rdn := { s.rdn with cmdPend := c } } else s
  else s.plain (rdnReg off) v

/-- TRV and TRH (chapter 05). -/
def State.trvWrite (s : State) (d off : Nat) (v : W32) : State :=
  if 0x1000 ≤ off ∧ off < 0x1000 + 0x40 * trvAxes d ∧ off % 0x40 = 0 then s.trvByReg d ((off - 0x1000) / 0x40) (fld v.toNat 0 8)
  else
    let r := rg d (if d = 0 then 0x0D else 0) off
    let t := s.plain r v
    if d = 0 ∧ 0x2000 ≤ off ∧ off < 0x2040 then t.enterPar r else t

/-- SLE (chapter 06): SAT of SLE_AXn_FLAG is held with the axis. -/
def State.sleWrite (s : State) (d off : Nat) (v : W32) : State :=
  if 0x1000 ≤ off ∧ off < 0x1C00 then
    let n := (off - 0x1000) / 0x80
    match off % 0x80 with
    | 0x00 => s.sleByReg d n (fld v.toNat 0 8)
    | 0x14 =>
      let t := s.plain (sleReg d n 0x14) v
      if v.getLsbD 0 then t.updSleAx d n fun a => { a with loop := { a.loop with sat := false } } else t
    | 0x18 => s.sleTarget d n (v.getLsbD 0)
    | o => s.plain (sleReg d n o) v
  else if off = 0x04 then (s.plain (rg d 1 off) v).enterPar (rg d 1 off)
  else s.plain (rg d 1 off) v

/-- TRI (chapter 07). -/
def State.triWrite (s : State) (d off : Nat) (v : W32) : State :=
  match off with
  | 0x0C => s.triTauWrite d v
  | 0x10 => s.triByReg d (fld v.toNat 0 8)
  | _ => s.plain (triReg d off) v

/-- CTM (chapter 08). -/
def State.ctmWrite (s : State) (off : Nat) (v : W32) : State :=
  if off = 8 then (if v.getLsbD 0 then s.ctmLoadGo else s) else s.plain (ctmReg off) v

/-- A write of a register by a master (R9). -/
def State.regWrite (s : State) (m : Master) (r : Nat) (v : W32) : State :=
  let d := r / 2 ^ 24
  let o := fld r 0 16
  if d = 0 then
    match fld r 16 8 with
    | 0x00 => s.sysWrite o v
    | 0x01 => s.wdxWrite m o v
    | 0x02 => s.merWrite o v
    | 0x03 => s.vbWrite false o v
    | 0x04 => s.vbWrite true o v
    | 0x05 => s.hnWrite false o v
    | 0x06 => s.hnWrite true o v
    | 0x07 => s.dmaWrite 0 o v
    | 0x08 => s.memWrite 0 o v
    | 0x09 => s.crtWrite o v
    | 0x0A => s.sfyWrite o v
    | 0x0B => s.pwrWrite o v
    | 0x0C => s.rdnWrite o v
    | 0x0D => s.trvWrite 0 o v
    | 0x0F => s.ctmWrite o v
    | _ => s
  else if d ≤ 6 then
    match fld r 16 8 with
    | 0x00 => s.trvWrite d o v
    | 0x01 => s.sleWrite d o v
    | 0x02 => s.triWrite d o v
    | 0x03 => s.dmaWrite d o v
    | 0x04 => s.memWrite d o v
    | _ => s
  else s

/-- The register that an address names. -/
def regOf (a : BitVec 40) : Option Nat :=
  match whereIs a.toNat with
  | .reg r => some r
  | _ => none

/-- REGISTER_WRITE by a core's store or by a master outside the cores (R9, R10): CSM takes no writes, and an access that the
address map refuses, or a block held in reset, changes nothing. -/
def execRegisterWrite (m : Master) (addr : BitVec 40) (v : W32) (s : State) : Out :=
  .next (match regOf addr with
    | some r => if addr.toNat % 4 = 0 ∧ s.regLive r ∧ r / 2 ^ 24 ≠ 0x0C then s.regWrite m r v else s
    | none => s)

/-! ### Reads -/

/-- An unsigned 16-bit report of a signed quantity; free where it does not fit. -/
def u16Free (x : Int) : Nat := if 0 ≤ x ∧ x < 65536 then x.toNat else Config.freeWord x.natAbs % 65536

/-- VBx (chapter 10). -/
def State.vbRead (s : State) (chB : Bool) (off : Nat) : Nat :=
  let b := s.bus
  let pst (p : Bool) : Nat :=
    let x := s.port chB p
    b01 x.link + b01 (!x.delays.isEmpty) * 2 + b01 (s.forwards chB) * 4 + u16Free x.dlink * 65536
  match off, chB with
  | 0x00, _ => 1 + b01 chB * 256
  | 0x0C, _ => pst false
  | 0x10, _ => pst true
  | 0x104, false => b.st.code + b01 b.leader * 8 + b.gmode * 16 + b01 b.req.isSome * 128 + b.csfails * 256 + b01 b.csoff * 2048 + b.leaderId * 65536 + b.reason * 2 ^ 24
  | 0x108, false => wrapN 16 (clampI (-32767) 32767 b.corr) + b.nval * 65536 + b.kval * 2 ^ 20
  | 0x10C, false => wrapN 32 (fixDiv s.mer.rho (2 ^ 40))
  | 0x118, false => b.gres + b.store.modes * 256 + b.gentry * 65536
  | 0x120, false => s.mcrcOf (s.rf (vba 0x11C) 0 3)
  | 0x128, false => b.modeRes + b.modeRef * 16 + b.reqno * 256 + b.missing * 65536 + b.firstMiss * 2 ^ 24
  | 0x12C, false => b.swcyc
  | 0x130, false => (s.freeSpares false).length + (s.freeSpares true).length + b.lastNode * 65536 + b.lastRes * 2 ^ 24
  | 0x144, false => (s.gaz (s.rf (vba 0x140) 0 12)).w0.toNat
  | 0x148, false => (s.gaz (s.rf (vba 0x140) 0 12)).w1.toNat
  | _, _ => 0

/-- The fill of a FIFO in units of 64 bytes, in a rounding that the spec leaves open. -/
def fifoFill (l : List (List Byte)) : Nat := min 255 (fixDiv (((l.map List.length).sum : Nat) : Int) 64).toNat

/-- HNx (chapter 11). -/
def State.hnRead (s : State) (b : Bool) (off : Nat) : Nat :=
  let h := s.host b
  match off with
  | 0x00 => 1 + b01 b * 256
  | 0x08 => b01 h.link + fifoFill h.rx * 65536 + fifoFill h.tx * 2 ^ 24
  | _ => 0

/-- MER (chapter 11). -/
def State.merRead (s : State) (off : Nat) : Nat :=
  let m := s.mer
  match off with
  | 0x00 => 1 + 4 * 256
  | 0x04 => b01 m.bus + b01 m.stepPend.isSome * 8 + b01 m.bindPend.isSome * 16
  | _ => 0

/-- SLE (chapter 06). -/
def State.sleRegRead (s : State) (d off : Nat) : Nat :=
  let x := s.sleOf d
  let axs := List.range 24
  if 0x1000 ≤ off ∧ off < 0x1C00 then
    let n := (off - 0x1000) / 0x80
    let a := s.sleAx d n
    match off % 0x80 with
    | 0x0C => a.cmdSt
    | 0x10 => s.sleStat d n
    | 0x14 => b01 a.loop.sat + a.swcli * 256 + a.fcause * 65536
    | 0x18 => b01 a.bank * 256 + b01 (s.swapPending d n) * 512
    | 0x20 => a.lastRef
    | 0x24 => a.loop.pcount
    | 0x2C => a.instr
    | _ => 0
  else
    match off with
    | 0x00 => 24 + 256 + 16384 * 65536
    | 0x08 => x.tlast + b01 x.late * 2 ^ 31
    | 0x0C => x.instr + x.dur * 65536
    | 0x10 => x.result + x.index * 256 + x.prog * 65536 + min 15 x.loads.length * 2 ^ 24
    | 0x14 => (x.progs.map fun kv => (kv.2.map (·.words.length)).getD 0).sum + (x.progs.filter fun kv => kv.2.isSome).length * 65536
    | 0x20 => (axs.map fun n => b01 (s.sleAx d n).loop.sat * 2 ^ n).sum
    | _ => 0

/-- The bits that hardware keeps of a register. -/
def State.hwBits (s : State) (m : Master) (r : Nat) : Nat :=
  let d := r / 2 ^ 24
  let o := fld r 0 16
  if d = 0 then
    match fld r 16 8 with
    | 0x00 => s.sysRead o
    | 0x01 => s.wdxRead m o
    | 0x02 => s.merRead o
    | 0x03 => s.vbRead false o
    | 0x04 => s.vbRead true o
    | 0x05 => s.hnRead false o
    | 0x06 => s.hnRead true o
    | 0x07 => s.dmaRegRead 0 o
    | 0x08 => s.memRegRead 0 o
    | 0x09 => s.crtRead o
    | 0x0A => s.sfyRead o
    | 0x0B => s.pwrRead o
    | 0x0C => s.rdnRead o
    | 0x0D => s.trvRegRead 0 o
    | 0x0F => s.ctmRead o
    | _ => 0
  else if d = 0x0C then s.csmRead o
  else if d ≤ 6 then
    match fld r 16 8 with
    | 0x00 => s.trvRegRead d o
    | 0x01 => s.sleRegRead d o
    | 0x02 => s.triRegRead d o
    | 0x03 => s.dmaRegRead d o
    | 0x04 => s.memRegRead d o
    | _ => 0
  else 0

/-- A word list from numbers. -/
def w32s (l : List Nat) : List W32 := l.map fun n => BitVec.ofNat 32 n

/-- A time in the format of MER_TIME0–2 (R14). -/
def timeWords (ns sec : Nat) : List W32 := w32s [ns, sec % 2 ^ 32, sec / 2 ^ 32]

/-- The words that a read of a multi-register value's lowest register captures (R13); none for any other register. -/
def State.capture (s : State) (r : Nat) : Option (List W32) :=
  let d := r / 2 ^ 24
  let b := fld r 16 8
  let o := fld r 0 16
  let pad (n : Nat) (l : List W32) : List W32 := (l ++ List.replicate n 0#32).take n
  if d = 0 ∧ b = 2 ∧ o = 0x08 then some (timeWords s.ns s.mer.sec)
  else if d = 0 ∧ b = 2 ∧ o = 0x14 then some (w32s [s.mer.cycle % 2 ^ 32, s.mer.cycle / 2 ^ 32])
  else if d = 0 ∧ b = 2 ∧ o = 0x54 then some (timeWords (s.mer.tbSub / unitNs) s.mer.tbSec)
  else if d = 0 ∧ b = 2 ∧ o = 0x30 then some [s.rd (merR 0x30), s.rd (merR 0x34), s.rd (merR 0x38)]
  else if d = 0 ∧ b = 2 ∧ o = 0x40 then some [s.mer.bind0, s.mer.bind1, s.mer.bind2]
  else if d ≤ 6 ∧ b = memBlk d ∧ o = 0x14 then some (w32s [s.memRegRead d 0x14, s.memRegRead d 0x18])
  else if d = 0 ∧ b = 9 ∧ o = 0x60 then some (pad 8 (w32s s.trailSel))
  else if d = 0 ∧ b = 9 ∧ 0x200 ≤ o ∧ o < 0x300 ∧ o % 0x20 = 0 then some (pad 8 (s.mailbox ((o - 0x200) / 0x20)))
  else if d = 0 ∧ b = 0x0A ∧ o = 0x60 then some (pad 8 (w32s s.fbSel))
  else if ((d = 0 ∧ b = 0x0D) ∨ (1 ≤ d ∧ d ≤ 6 ∧ b = 0)) ∧ 0x1000 ≤ o ∧ o < 0x1000 + 0x40 * trvAxes d ∧ o % 0x40 = 0x18 then
    let p := wrapN 64 (s.trvAx d ((o - 0x1000) / 0x40)).p
    some (w32s [p % 2 ^ 32, p / 2 ^ 32])
  else none

/-- Whether a register holds a higher part of a multi-register value (R13). -/
def isPart (r : Nat) : Bool :=
  let d := r / 2 ^ 24
  let b := fld r 16 8
  let o := fld r 0 16
  let within (lo hi : Nat) : Bool := decide (lo ≤ o) && decide (o < hi)
  if d = 0 && b == 2 then o == 0x0C || o == 0x10 || o == 0x18 || o == 0x34 || o == 0x38 || o == 0x44 || o == 0x48 || o == 0x58 || o == 0x5C
  else if decide (d ≤ 6) && b == memBlk d && o == 0x18 then true
  else if d = 0 && b == 9 then within 0x64 0x80 || (within 0x200 0x300 && o % 0x20 != 0)
  else if d = 0 && b == 0x0A then within 0x64 0x80
  else if d = 0 && (b == 5 || b == 6) then within 0x114 0x120 || within 0x124 0x130
  else ((d = 0 && b == 0x0D) || (decide (1 ≤ d) && decide (d ≤ 6) && b == 0)) && within 0x1000 (0x1000 + 0x40 * trvAxes d) && o % 0x40 == 0x1C

/-- A read of a register by a master: the word and the state after it (R9, R13). -/
def State.regRead (s : State) (m : Master) (r : Nat) : W32 × State :=
  let o := fld r 0 16
  let b := fld r 16 8
  if r / 2 ^ 24 = 0 ∧ (b = 5 ∨ b = 6) ∧ o = 0x110 then s.readRxTs (b == 6)
  else if r / 2 ^ 24 = 0 ∧ (b = 5 ∨ b = 6) ∧ o = 0x120 then s.readTxTs (b == 6)
  else if isPart r then (s.capOf r, s)
  else
    match s.capture r with
    | some ws => (ws.headD 0, s.capWords r ws)
    | none =>
      if r = merR 0x24 ∧ s.mer.bus then (BitVec.ofInt 32 (fixDiv s.mer.rho 1000000000), s)
      else if r = merR 0x4C then (s.mer.bindRate, s)
      else (s.rd r ||| BitVec.ofNat 32 (s.hwBits m r), s)

/-- CAPTURE_READ: a master reads a register; a master outside the cores keeps the word in busData (R9, R13). A core reads by
LW or LWU into a register; read by this row it gets the same effects on the block (assumption log 80). -/
def execCaptureRead (m : Master) (addr : BitVec 40) (s : State) : Out :=
  .next (match regOf addr with
    | some r => if addr.toNat % 4 = 0 ∧ s.regLive r then answerRead (s.regRead m r) else s
    | none => s)

/-! ### Unassigned command codes -/

/-- Whether an engine assigns a read code of ENGR (R111, R164, R195, R328); the codes 0x80 and up of Traverse are those of the
stored values. -/
def readAssigned (eng k : Nat) : Bool :=
  match eng with
  | 0 | 1 => decide (k ≤ 0x0A) || decide (0x80 ≤ k)
  | 2 => decide (k ≤ 8) || inRanges [(0x10, 0x13), (0x18, 0x27), (0x40, 0x7F), (0x8A, 0x8B), (0x90, 0x97), (0xA3, 0xAB)] k
  | 3 => decide (k ≤ 4)
  | _ => decide (k ≤ 2)

/-- The read of an engine by its number in ENGR (R69). -/
def State.engRead (s : State) (eng d n code : Nat) : Option W64 :=
  match eng with
  | 0 | 1 => s.trvRead d n code
  | 2 => s.sleRead d n code
  | 3 => s.triRead d code
  | _ => s.dmaRead d n code

/-- BADCMD: a command or an ENGR with a code that the unit does not assign (R62, R69, R112, R165, R196, R328, R381); a code that is assigned is no
such step. -/
def execBadcmd (src : BadSrc) (s : State) : Out :=
  .next (match src with
    | .engw c eng cmd rd ra rb =>
      let k := cmd.toNat
      match eng.toNat with
      | 0 => if trvCodes.contains k then s else runInstr c (fun t => t.engw c 0 rd ra rb fun d n v u => u.trvCommand d n k v) s
      | 1 => if trvCodes.contains k then s else runInstr c (fun t => t.engw c 1 rd ra rb fun d n v u => u.trvCommand d n k v) s
      | 2 => if 1 ≤ k ∧ k ≤ 0x0B then s else runInstr c (fun t => t.engw c 2 rd ra rb fun d n v u => u.sleCommand d n k v) s
      | 3 => if 1 ≤ k ∧ k ≤ 3 then s else runInstr c (fun t => t.engw c 3 rd ra rb fun d _ v u => u.triCommand d k v) s
      | 4 => if 1 ≤ k ∧ k ≤ 2 then s else runInstr c (fun t => t.engw c 4 rd ra rb fun d n v u => u.dmaCommand d n k v.toNat) s
      | _ => s
    | .engr c eng code rd rb =>
      let k := code.toNat
      let e := eng.toNat
      if 5 ≤ e ∨ readAssigned e k then s else runInstr c (fun t => t.engr c e rd rb fun d n u => u.engRead e d n k) s
    | .trv d n code => if trvCodes.contains code.toNat then s else s.trvByReg d n code.toNat
    | .sle d n code => if 1 ≤ code.toNat ∧ code.toNat ≤ 0x0B then s else s.sleByReg d n code.toNat
    | .tri d code => if (1 ≤ code.toNat ∧ code.toNat ≤ 3) ∨ d = 0 ∨ 6 < d ∨ !s.blockLive d then s else s.triByReg d code.toNat
    | .dma d ch code => if 1 ≤ code.toNat ∧ code.toNat ≤ 2 then s else s.dmaByReg d ch code.toNat
    | .sfy code => if (1 ≤ code.toNat ∧ code.toNat ≤ 6) ∨ code.toNat = 0x10 then s else s.sfyCommand code.toNat)

end Sys2Proof.Machine
end

