-- ==== Sys2Proof/Machine/CoreMem.lean ====
section
/-! DEFINITION. The loads and stores of a Brorok core (R43, R48–R56), LW, LWU and SW also on registers. -/

namespace Sys2Proof.Machine

/-- a = ra + sext(disp14) (R43, chapter 02). -/
def State.effAddr (s : State) (c : CoreId) (ra : Reg) (disp : BitVec 14) : Nat := (s.reg c ra + disp.signExtend 64).toNat

/-- Sign- or zero-extend `n` loaded bytes. -/
def extend (signed : Bool) (n : Nat) (l : List Byte) : W64 :=
  if signed then BitVec.ofInt 64 (sxt (8 * n) (ofBytes l)) else BitVec.ofNat 64 (ofBytes l)

/-- The effect of a load of `n` bytes (R48, R51, R55). -/
def State.loadOp (s : State) (c : CoreId) (n : Nat) (signed word : Bool) (hint : BitVec 2) (rt ra : Reg) (disp : BitVec 14) : CRes :=
  let a := s.effAddr c ra disp
  if hint = 3 then .exc s excIllegal
  else
    match s.accCheck a n word with
    | some e => .exc s e
    | none =>
      match whereIs a with
      | .reg r =>
        let (v, t) := s.regRead (.core c) r
        .ok (t.put c rt (extend signed 4 (toBytes 4 v.toNat)))
      | _ =>
        match s.load c a n hint.toNat with
        | (t, none) => .exc t (excEcc a)
        | (t, some l) => .ok (t.put c rt (extend signed n l))

/-- The effect of a store of `n` bytes (R48, R51, R58); CSM reports an error for a write. -/
def State.storeOp (s : State) (c : CoreId) (n : Nat) (word : Bool) (hint : BitVec 2) (rt ra : Reg) (disp : BitVec 14) : CRes :=
  let a := s.effAddr c ra disp
  let v := (s.reg c rt).toNat
  if hint = 3 then .exc s excIllegal
  else
    match s.accCheck a n word with
    | some e => .exc s e
    | none =>
      match whereIs a with
      | .reg r =>
        if r / 2 ^ 24 = 0x0C then .exc s (excBus a) else .ok ((s.regWrite (.core c) r (BitVec.ofNat 32 v)).pc4 c)
      | _ => .ok ((s.store c a (toBytes n v)).pc4 c)

/-- LB (R48). -/
def execLb (c : CoreId) (hint : BitVec 2) (rt ra : Reg) (disp : BitVec 14) (s : State) : Out :=
  .next (runInstr c (fun t => t.loadOp c 1 true false hint rt ra disp) s)

/-- LBU (R48). -/
def execLbu (c : CoreId) (hint : BitVec 2) (rt ra : Reg) (disp : BitVec 14) (s : State) : Out :=
  .next (runInstr c (fun t => t.loadOp c 1 false false hint rt ra disp) s)

/-- LH (R48). -/
def execLh (c : CoreId) (hint : BitVec 2) (rt ra : Reg) (disp : BitVec 14) (s : State) : Out :=
  .next (runInstr c (fun t => t.loadOp c 2 true false hint rt ra disp) s)

/-- LHU (R48). -/
def execLhu (c : CoreId) (hint : BitVec 2) (rt ra : Reg) (disp : BitVec 14) (s : State) : Out :=
  .next (runInstr c (fun t => t.loadOp c 2 false false hint rt ra disp) s)

/-- LW, also a register read (R48). -/
def execLw (c : CoreId) (hint : BitVec 2) (rt ra : Reg) (disp : BitVec 14) (s : State) : Out :=
  .next (runInstr c (fun t => t.loadOp c 4 true true hint rt ra disp) s)

/-- LWU, also a register read (R48). -/
def execLwu (c : CoreId) (hint : BitVec 2) (rt ra : Reg) (disp : BitVec 14) (s : State) : Out :=
  .next (runInstr c (fun t => t.loadOp c 4 false true hint rt ra disp) s)

/-- LD (R48). -/
def execLd (c : CoreId) (hint : BitVec 2) (rt ra : Reg) (disp : BitVec 14) (s : State) : Out :=
  .next (runInstr c (fun t => t.loadOp c 8 false false hint rt ra disp) s)

/-- SB (R48). -/
def execSb (c : CoreId) (hint : BitVec 2) (rt ra : Reg) (disp : BitVec 14) (s : State) : Out :=
  .next (runInstr c (fun t => t.storeOp c 1 false hint rt ra disp) s)

/-- SH (R48). -/
def execSh (c : CoreId) (hint : BitVec 2) (rt ra : Reg) (disp : BitVec 14) (s : State) : Out :=
  .next (runInstr c (fun t => t.storeOp c 2 false hint rt ra disp) s)

/-- SW, also a register write (R48). -/
def execSw (c : CoreId) (hint : BitVec 2) (rt ra : Reg) (disp : BitVec 14) (s : State) : Out :=
  .next (runInstr c (fun t => t.storeOp c 4 true hint rt ra disp) s)

/-- SD (R48). -/
def execSd (c : CoreId) (hint : BitVec 2) (rt ra : Reg) (disp : BitVec 14) (s : State) : Out :=
  .next (runInstr c (fun t => t.storeOp c 8 false hint rt ra disp) s)

end Sys2Proof.Machine
end

