-- ==== Sys2Proof/Machine/CoreSys.lean ====
section
/-! DEFINITION. Dispatch of items to cores, system instructions, atomics, FENCE and the exceptions of Brorok that come as
steps of their own (R40, R42, R44, R49, R50, R57–R60). -/

namespace Sys2Proof.Machine

/-- DISPATCH: a free core takes its next item and sets its state under R40 (R91, R92). -/
def execDispatch (c : CoreId) (s : State) : Out :=
  .next (if s.coreLive c && (s.core c).item.isNone then
    match s.candidate c with
    | some (n, i) => s.startItem c n i
    | none => s
  else s)

/-- CSTAT (R42). -/
def Core.cstat (x : Core) : Nat := b01 x.xm + b01 x.sat * 2 + b01 x.dlpend * 4 + x.prio * 256

/-- The control registers as MFC reads them (R42); none for an index that the table does not list. -/
def State.readCreg (s : State) (c : CoreId) (i : Nat) : Option Nat :=
  let x := s.core c
  match i with
  | 0 => some x.cstat
  | 1 => some x.cwid
  | 2 => some x.carg
  | 3 => some x.ctime
  | 4 => some x.ccause
  | 5 => some x.cepc
  | 6 => some x.cbada
  | 7 => some x.cvec
  | 8 => some x.csave
  | 9 => some (c.die + c.idx * 256)
  | 10 => some x.cdead
  | 11 => some ((s.mer.clocks - x.relClk) * 4)
  | 12 => some x.ctag
  | _ => none

/-- The control registers that MTC writes (R42); none raises ILLEGAL. -/
def Core.writeCreg (x : Core) (i : Nat) (v : W64) : Option Core :=
  match i with
  | 0 => some { x with sat := v.getLsbD 1 }
  | 5 => some { x with cepc := v.toNat }
  | 7 => some { x with cvec := v.toNat }
  | 8 => some { x with csave := v.toNat }
  | _ => none

/-- MFC (R42). -/
def execMfc (c : CoreId) (rd : Reg) (creg : BitVec 6) (s : State) : Out :=
  .next (runInstr c (fun t => match t.readCreg c creg.toNat with
    | some v => .ok (t.put c rd (BitVec.ofNat 64 v))
    | none => .exc t excIllegal) s)

/-- MTC (R42). -/
def execMtc (c : CoreId) (creg : BitVec 6) (ra : Reg) (s : State) : Out :=
  .next (runInstr c (fun t => match (t.core c).writeCreg creg.toNat (t.reg c ra) with
    | some x => .ok ((t.setCore c x).pc4 c)
    | none => .exc t excIllegal) s)

/-- TRAP (R55, R57). -/
def execTrap (c : CoreId) (code : BitVec 6) (s : State) : Out :=
  .next (runInstr c (fun t => .exc t { code := 7, tcode := code.toNat }) s)

/-- ERET (R57, R59). -/
def execEret (c : CoreId)  (s : State) : Out :=
  .next (runInstr c (fun t => if (t.core c).xm then .ok (t.updCore c fun x => { x with pc := x.cepc, xm := false }) else .exc t excIllegal) s)

/-- IINV (R53). -/
def execIinv (c : CoreId)  (s : State) : Out :=
  .next (runInstr c (fun t => .ok ((t.updCore c fun x => { x with icache := [] }).pc4 c)) s)

/-- Remove the D-cache line of an address. -/
def State.dropLine (s : State) (c : CoreId) (a : Nat) : State :=
  s.updCore c fun x => { x with dcache := x.dcache.filter fun l => l.line != a / 64 }

/-- CINV (R53). -/
def execCinv (c : CoreId) (ra : Reg) (s : State) : Out :=
  .next (runInstr c (fun t => let a := (t.reg c ra).toNat
    if 2 ^ 40 ≤ a then .exc t (excAddr a) else .ok ((t.dropLine c a).pc4 c)) s)

/-- CINVA (R53). -/
def execCinva (c : CoreId)  (s : State) : Out :=
  .next (runInstr c (fun t => .ok ((t.updCore c fun x => { x with dcache := [] }).pc4 c)) s)

/-- An atomic at the bank (R49), whose collisions are not counted (R313): `f` gives the new value from the old one, none for no write. -/
def State.atomic (s : State) (c : CoreId) (size : BitVec 2) (rd : Reg) (a : Nat) (f : Nat → Option Nat) : CRes :=
  if size.toNat < 2 then .exc s excIllegal
  else
    let n := 2 ^ size.toNat
    match s.atomicCheck a n with
    | some e => .exc s e
    | none =>
      match (s.dropLine c a).readMem a n (if sramDie a = some c.die then 0 else 1) with
      | (t, none) => .exc t (excEcc a)
      | (t, some l) =>
        let old := ofBytes l
        let u := match f old with
          | some v => (writeWords a (toBytes n v) (wordsOf a n) t).1
          | none => t
        .ok (u.put c rd (w64 (sxt (8 * n) old)))

/-- AADD (R49). -/
def execAadd (c : CoreId) (size : BitVec 2) (rd ra rb : Reg) (s : State) : Out :=
  .next (runInstr c (fun t => t.atomic c size rd (t.reg c ra).toNat fun old => some (old + (t.reg c rb).toNat)) s)

/-- ACAS (R49). -/
def execAcas (c : CoreId) (size : BitVec 2) (rd ra rb rc : Reg) (s : State) : Out :=
  .next (runInstr c (fun t => t.atomic c size rd (t.reg c ra).toNat fun old =>
    if old = (t.reg c rc).toNat % 2 ^ (8 * 2 ^ size.toNat) then some (t.reg c rb).toNat else none) s)

/-- FENCE (R50): every earlier access has taken effect in this model, so it completes at once. -/
def execFence (c : CoreId)  (s : State) : Out :=
  .next (runInstr c (fun t => .ok (t.pc4 c)) s)

/-- DEADLINE is taken at an instruction boundary outside a handler (R59). -/
def execDeadline (c : CoreId) (s : State) : Out :=
  .next (if s.canRun c && (s.core c).dlpend && !(s.core c).xm then s.takeBoundary c { code := 9, async := true } else s)

/-- ECC_UNCORR of a lost store is taken at an instruction boundary (R58). -/
def execEccUncorr (c : CoreId) (s : State) : Out :=
  .next (match (s.core c).asyncEcc with
    | some a => if s.canRun c then s.takeBoundary c { code := 4, async := true, bada := some a } else s
    | none => s)

/-- ILLEGAL: a core executes a word that is no instruction (R44, R55). A word that is one is not this step. -/
def execIllegal (c : CoreId) (word : W32) (s : State) : Out :=
  .next (if wordIllegal word then runInstr c (fun t => .exc t excIllegal) s else s)

/-- LOOPONLY: a core executes a loop-only word (R63, R64). -/
def execLooponly (c : CoreId) (word : W32) (s : State) : Out :=
  .next (if loopOnlySub word = 0 then s
    else runInstr c (fun t => .exc t { code := 0x12, tcode := loopOnlySub word }) s)

end Sys2Proof.Machine
end

