-- ==== Sys2Proof/Machine/Datum.lean ====
section
/-! DEFINITION. DATUM (R30): what the cell does together when Meridian's phase counter reaches the cycle length, in the order
of R30 and R335. Each share is the operation of its own block; this file only says the order. -/

namespace Sys2Proof.Machine

/-- What a sheet's SLE still owes of the ending cycle: its sample (R145), a completed shut-down (R148), the load of the cycle
(R154). -/
def State.sleOwed (s : State) (d : Nat) : State :=
  let t := s.runTo (s.sleLso d)
  let s := if (s.sleOf d).sampled then s else t.slePass d (t.sleStart d) []
  ((List.range 24).foldl (fun s n => s.sleOffDone d n) s).sleLoad d

/-- What the ending cycle still owes: the decision at 40 µs (R198) and the share of each SLE, where no step of the cycle brought
them. -/
def State.datumOwed (s : State) : State :=
  let s := if s.ctm.decided then s else (s.runTo 40000).ctmDecide
  if s.sys.wrst then s else (s.sheetList.filter s.answers).foldl State.sleOwed s

/-- The levels sampled at a datum: an output pin shows the level that it drove until then (R24). -/
def State.gpioSample (s : State) (pins : W32) : State :=
  s.updSys fun y => { y with gpioIn := (pins &&& ~~~y.gpioDir) ||| (y.gpioOut &&& y.gpioDir) }

/-- The Contour die at a datum: an accepted image, and the pass of the hard-wired channel (R30, R198, R229). -/
def State.contourDatum (s : State) (clocks : Nat) : State :=
  let s := s.ctmSettle
  (if s.ctm.wrst then s else s.imageEffect).ctmPass clocks

/-- Steps 1–3 of R335: redundancy, sheet service, cell mode; the bus follows the redundancy state. Under WRST_N the sheets and
the cell mode are held (R387). -/
def State.statesDatum (s : State) (plan : Bool) : State :=
  let s := s.rdnDatum plan
  let s := if s.sys.wrst then s else s.sheetDatum.cellDatum
  s.busDatum

/-- Step 4 of R335 on every die: the parameter registers of the engines, Traverse, then the SLE's state changes and swaps (R30,
R32), after a cycle of `told` ns. -/
def State.enginesDatum (s : State) (lim : Nat) (plan : Bool) (told : Nat) : State :=
  let s := s.takePars lim
  let dies := s.sheetList.filter s.answers
  let old := s
  let s := (0 :: dies).foldl (fun s d => s.trvDatum lim d plan told) s
  let s := s.clearIdx
  let s := dies.foldl (fun s d => s.sleDatum lim d fun n => (old.trvAx d n).st) s
  dies.foldl (fun s d => s.triDatum lim d) s

/-- The completions that the engines bring: a drained sheet, a cell shut down (R336, R338). -/
def State.completionsDatum (s : State) : State := (s.sheetList.foldl (fun s d => s.endDrain d) s).endShut

/-- The shares of the blocks that WRST_N holds (R387). -/
def State.blocksDatum (s : State) (lim : Nat) (plan : Bool) (told : Nat) : State :=
  if s.sys.wrst then s
  else
    let s := s.chList.foldl (fun s k => s.dmaDatum lim k) s
    let s := (s.enginesDatum lim plan told).completionsDatum
    (s.crtDatum.wdxDatum plan).hostDatum

/-- The datum (R30, R335). `lim` is the last phase of the ending cycle at which a command still applies (R32). -/
def State.toDatum (s : State) (pins : W32) (clocks : Nat) : State :=
  let s := s.datumOwed
  let lim := s.mer.target - 1000 * unitNs
  let told := s.mer.target / unitNs
  let s := ((s.gpioSample pins).merDatum).latchEnc
  let s := s.contourDatum clocks
  let plan := s.planDatum
  ((s.statesDatum plan).blocksDatum lim plan told).sysDatum

/-- DATUM: the phase counter reaches the cycle length (R30). `gpio` are the levels at the pins and `contourClocks` the
Contour die's own count of the cycle (R28). -/
def execDatum (gpio : W32) (contourClocks : Nat) (s : State) : Out := .next (if s.powered then s.toDatum gpio contourClocks else s)

end Sys2Proof.Machine
end

