-- ==== Sys2Proof/Machine/Dispatch.lean ====
section
/-! DEFINITION. The effect of every command: one arm for each row of spec/opcode_table.json. -/

namespace Sys2Proof.Machine

/-- The effect of a command on everything but the queue. -/
def exec (i : Instr) (s : State) : Host.Outcome State Fault Refusal :=
  match i with
  | .boot compat priSel fails => Sys2Proof.Machine.execBoot compat priSel fails s
  | .cartoucheRestart => Sys2Proof.Machine.execCartoucheRestart s
  | .porstNLow => Sys2Proof.Machine.execPorstNLow s
  | .internalReset => Sys2Proof.Machine.execInternalReset s
  | .wrstNLow => Sys2Proof.Machine.execWrstNLow s
  | .wrstNRelease fails => Sys2Proof.Machine.execWrstNRelease fails s
  | .resetStuck => Sys2Proof.Machine.execResetStuck s
  | .datum gpio contourClocks => Sys2Proof.Machine.execDatum gpio contourClocks s
  | .sysCompatWrite v => Sys2Proof.Machine.execSysCompatWrite v s
  | .sysGpioset m => Sys2Proof.Machine.execSysGpioset m s
  | .sysGpioclr m => Sys2Proof.Machine.execSysGpioclr m s
  | .registerWrite m addr v => Sys2Proof.Machine.execRegisterWrite m addr v s
  | .captureRead m addr => Sys2Proof.Machine.execCaptureRead m addr s
  | .dispatch c => Sys2Proof.Machine.execDispatch c s
  | .add c rd ra rb => Sys2Proof.Machine.execAdd c rd ra rb s
  | .sub c rd ra rb => Sys2Proof.Machine.execSub c rd ra rb s
  | .and c rd ra rb => Sys2Proof.Machine.execAnd c rd ra rb s
  | .or c rd ra rb => Sys2Proof.Machine.execOr c rd ra rb s
  | .xor c rd ra rb => Sys2Proof.Machine.execXor c rd ra rb s
  | .nor c rd ra rb => Sys2Proof.Machine.execNor c rd ra rb s
  | .slt c rd ra rb => Sys2Proof.Machine.execSlt c rd ra rb s
  | .sltu c rd ra rb => Sys2Proof.Machine.execSltu c rd ra rb s
  | .sll c rd ra rb => Sys2Proof.Machine.execSll c rd ra rb s
  | .srl c rd ra rb => Sys2Proof.Machine.execSrl c rd ra rb s
  | .sra c rd ra rb => Sys2Proof.Machine.execSra c rd ra rb s
  | .slli c rd ra sh => Sys2Proof.Machine.execSlli c rd ra sh s
  | .srli c rd ra sh => Sys2Proof.Machine.execSrli c rd ra sh s
  | .srai c rd ra sh => Sys2Proof.Machine.execSrai c rd ra sh s
  | .adds c rd ra rb => Sys2Proof.Machine.execAdds c rd ra rb s
  | .subs c rd ra rb => Sys2Proof.Machine.execSubs c rd ra rb s
  | .min c rd ra rb => Sys2Proof.Machine.execMin c rd ra rb s
  | .max c rd ra rb => Sys2Proof.Machine.execMax c rd ra rb s
  | .minu c rd ra rb => Sys2Proof.Machine.execMinu c rd ra rb s
  | .maxu c rd ra rb => Sys2Proof.Machine.execMaxu c rd ra rb s
  | .clz c rd ra => Sys2Proof.Machine.execClz c rd ra s
  | .popc c rd ra => Sys2Proof.Machine.execPopc c rd ra s
  | .mul c rd ra rb => Sys2Proof.Machine.execMul c rd ra rb s
  | .mulh c rd ra rb => Sys2Proof.Machine.execMulh c rd ra rb s
  | .mulhu c rd ra rb => Sys2Proof.Machine.execMulhu c rd ra rb s
  | .muls c rd ra rb => Sys2Proof.Machine.execMuls c rd ra rb s
  | .div c rd ra rb => Sys2Proof.Machine.execDiv c rd ra rb s
  | .divu c rd ra rb => Sys2Proof.Machine.execDivu c rd ra rb s
  | .rem c rd ra rb => Sys2Proof.Machine.execRem c rd ra rb s
  | .remu c rd ra rb => Sys2Proof.Machine.execRemu c rd ra rb s
  | .addi c rd ra imm => Sys2Proof.Machine.execAddi c rd ra imm s
  | .andi c rd ra imm => Sys2Proof.Machine.execAndi c rd ra imm s
  | .ori c rd ra imm => Sys2Proof.Machine.execOri c rd ra imm s
  | .xori c rd ra imm => Sys2Proof.Machine.execXori c rd ra imm s
  | .slti c rd ra imm => Sys2Proof.Machine.execSlti c rd ra imm s
  | .sltiu c rd ra imm => Sys2Proof.Machine.execSltiu c rd ra imm s
  | .lui c rd imm => Sys2Proof.Machine.execLui c rd imm s
  | .orh c rd ra imm => Sys2Proof.Machine.execOrh c rd ra imm s
  | .ort c rd ra imm => Sys2Proof.Machine.execOrt c rd ra imm s
  | .lb c hint rt ra disp => Sys2Proof.Machine.execLb c hint rt ra disp s
  | .lbu c hint rt ra disp => Sys2Proof.Machine.execLbu c hint rt ra disp s
  | .lh c hint rt ra disp => Sys2Proof.Machine.execLh c hint rt ra disp s
  | .lhu c hint rt ra disp => Sys2Proof.Machine.execLhu c hint rt ra disp s
  | .lw c hint rt ra disp => Sys2Proof.Machine.execLw c hint rt ra disp s
  | .lwu c hint rt ra disp => Sys2Proof.Machine.execLwu c hint rt ra disp s
  | .ld c hint rt ra disp => Sys2Proof.Machine.execLd c hint rt ra disp s
  | .sb c hint rt ra disp => Sys2Proof.Machine.execSb c hint rt ra disp s
  | .sh c hint rt ra disp => Sys2Proof.Machine.execSh c hint rt ra disp s
  | .sw c hint rt ra disp => Sys2Proof.Machine.execSw c hint rt ra disp s
  | .sd c hint rt ra disp => Sys2Proof.Machine.execSd c hint rt ra disp s
  | .beq c ra rb off => Sys2Proof.Machine.execBeq c ra rb off s
  | .bne c ra rb off => Sys2Proof.Machine.execBne c ra rb off s
  | .blt c ra rb off => Sys2Proof.Machine.execBlt c ra rb off s
  | .bge c ra rb off => Sys2Proof.Machine.execBge c ra rb off s
  | .bltu c ra rb off => Sys2Proof.Machine.execBltu c ra rb off s
  | .bgeu c ra rb off => Sys2Proof.Machine.execBgeu c ra rb off s
  | .j c off => Sys2Proof.Machine.execJ c off s
  | .jal c off => Sys2Proof.Machine.execJal c off s
  | .jr c ra => Sys2Proof.Machine.execJr c ra s
  | .jalr c rd ra => Sys2Proof.Machine.execJalr c rd ra s
  | .mfc c rd creg => Sys2Proof.Machine.execMfc c rd creg s
  | .mtc c creg ra => Sys2Proof.Machine.execMtc c creg ra s
  | .trap c code => Sys2Proof.Machine.execTrap c code s
  | .eret c => Sys2Proof.Machine.execEret c s
  | .iinv c => Sys2Proof.Machine.execIinv c s
  | .cinv c ra => Sys2Proof.Machine.execCinv c ra s
  | .cinva c => Sys2Proof.Machine.execCinva c s
  | .aadd c size rd ra rb => Sys2Proof.Machine.execAadd c size rd ra rb s
  | .acas c size rd ra rb rc => Sys2Proof.Machine.execAcas c size rd ra rb rc s
  | .fence c => Sys2Proof.Machine.execFence c s
  | .deadline c => Sys2Proof.Machine.execDeadline c s
  | .eccUncorr c => Sys2Proof.Machine.execEccUncorr c s
  | .post c rd ra => Sys2Proof.Machine.execPost c rd ra s
  | .postBusy c => Sys2Proof.Machine.execPostBusy c s
  | .delay c rd ra rb => Sys2Proof.Machine.execDelay c rd ra rb s
  | .done c ra => Sys2Proof.Machine.execDone c ra s
  | .solve c rd ra rb => Sys2Proof.Machine.execSolve c rd ra rb s
  | .tsamp c rd sel => Sys2Proof.Machine.execTsamp c rd sel s
  | .qmul c rd ra rb sh l k => Sys2Proof.Machine.execQmul c rd ra rb sh l k s
  | .qmac c rd ra rb sh l k => Sys2Proof.Machine.execQmac c rd ra rb sh l k s
  | .luti c rd ra rb => Sys2Proof.Machine.execLuti c rd ra rb s
  | .delayExpiry => Sys2Proof.Machine.execDelayExpiry s
  | .stationMove => Sys2Proof.Machine.execStationMove s
  | .heldEventAccept => Sys2Proof.Machine.execHeldEventAccept s
  | .pendQueue entry => Sys2Proof.Machine.execPendQueue entry s
  | .evtCtlWrite entry v => Sys2Proof.Machine.execEvtCtlWrite entry v s
  | .cancel m handle => Sys2Proof.Machine.execCancel m handle s
  | .hquery m handle => Sys2Proof.Machine.execHquery m handle s
  | .crsizeWrite v => Sys2Proof.Machine.execCrsizeWrite v s
  | .enable src => Sys2Proof.Machine.execEnable src s
  | .disable src => Sys2Proof.Machine.execDisable src s
  | .stop src => Sys2Proof.Machine.execStop src s
  | .qstop src => Sys2Proof.Machine.execQstop src s
  | .clearFault src => Sys2Proof.Machine.execClearFault src s
  | .mode src => Sys2Proof.Machine.execMode src s
  | .xtarget src => Sys2Proof.Machine.execXtarget src s
  | .vstart src => Sys2Proof.Machine.execVstart src s
  | .a1 src => Sys2Proof.Machine.execA1 src s
  | .v1 src => Sys2Proof.Machine.execV1 src s
  | .amax src => Sys2Proof.Machine.execAmax src s
  | .vmax src => Sys2Proof.Machine.execVmax src s
  | .dmax src => Sys2Proof.Machine.execDmax src s
  | .d1 src => Sys2Proof.Machine.execD1 src s
  | .vstop src => Sys2Proof.Machine.execVstop src s
  | .qdec src => Sys2Proof.Machine.execQdec src s
  | .vjog src => Sys2Proof.Machine.execVjog src s
  | .setpos src => Sys2Proof.Machine.execSetpos src s
  | .swlimLo src => Sys2Proof.Machine.execSwlimLo src s
  | .swlimHi src => Sys2Proof.Machine.execSwlimHi src s
  | .axisCfg src => Sys2Proof.Machine.execAxisCfg src s
  | .limCfg src => Sys2Proof.Machine.execLimCfg src s
  | .debounce src => Sys2Proof.Machine.execDebounce src s
  | .chatterWin src => Sys2Proof.Machine.execChatterWin src s
  | .stallCfg src => Sys2Proof.Machine.execStallCfg src s
  | .motor src => Sys2Proof.Machine.execMotor src s
  | .stallflow src => Sys2Proof.Machine.execStallflow src s
  | .encCpr src => Sys2Proof.Machine.execEncCpr src s
  | .pathCommit src => Sys2Proof.Machine.execPathCommit src s
  | .gearMaster src => Sys2Proof.Machine.execGearMaster src s
  | .gearRatio src => Sys2Proof.Machine.execGearRatio src s
  | .gearArmpos src => Sys2Proof.Machine.execGearArmpos src s
  | .gearArm src => Sys2Proof.Machine.execGearArm src s
  | .gearRamp src => Sys2Proof.Machine.execGearRamp src s
  | .gearDisarm src => Sys2Proof.Machine.execGearDisarm src s
  | .homeCfg src => Sys2Proof.Machine.execHomeCfg src s
  | .homeVsearch src => Sys2Proof.Machine.execHomeVsearch src s
  | .homeVlatch src => Sys2Proof.Machine.execHomeVlatch src s
  | .homeOffset src => Sys2Proof.Machine.execHomeOffset src s
  | .homeBackoff src => Sys2Proof.Machine.execHomeBackoff src s
  | .homeMaxdist src => Sys2Proof.Machine.execHomeMaxdist src s
  | .homeStart src => Sys2Proof.Machine.execHomeStart src s
  | .trvReadStat c hub rd rb => Sys2Proof.Machine.execTrvReadStat c hub rd rb s
  | .trvReadFlag c hub rd rb => Sys2Proof.Machine.execTrvReadFlag c hub rd rb s
  | .trvReadPosition c hub rd rb => Sys2Proof.Machine.execTrvReadPosition c hub rd rb s
  | .trvReadSpeed c hub rd rb => Sys2Proof.Machine.execTrvReadSpeed c hub rd rb s
  | .trvReadAccel c hub rd rb => Sys2Proof.Machine.execTrvReadAccel c hub rd rb s
  | .trvReadXtarget c hub rd rb => Sys2Proof.Machine.execTrvReadXtarget c hub rd rb s
  | .trvReadMaster c hub rd rb => Sys2Proof.Machine.execTrvReadMaster c hub rd rb s
  | .trvReadLoad c hub rd rb => Sys2Proof.Machine.execTrvReadLoad c hub rd rb s
  | .trvReadLatched c hub rd rb => Sys2Proof.Machine.execTrvReadLatched c hub rd rb s
  | .trvReadPlan c hub rd rb => Sys2Proof.Machine.execTrvReadPlan c hub rd rb s
  | .trvReadGrem c hub rd rb => Sys2Proof.Machine.execTrvReadGrem c hub rd rb s
  | .trvReadStored c hub rd rb code => Sys2Proof.Machine.execTrvReadStored c hub rd rb code s
  | .jogTimeout die axis => Sys2Proof.Machine.execJogTimeout die axis s
  | .debounceExpiry die axis input => Sys2Proof.Machine.execDebounceExpiry die axis input s
  | .stall die axis => Sys2Proof.Machine.execStall die axis s
  | .indexCapture n => Sys2Proof.Machine.execIndexCapture n s
  | .idxArm n => Sys2Proof.Machine.execIdxArm n s
  | .sleSample die start order => Sys2Proof.Machine.execSleSample die start order s
  | .offcntExpiry die axis => Sys2Proof.Machine.execOffcntExpiry die axis s
  | .load src => Sys2Proof.Machine.execLoad src s
  | .loadPerformed die => Sys2Proof.Machine.execLoadPerformed die s
  | .free src => Sys2Proof.Machine.execFree src s
  | .gtab src => Sys2Proof.Machine.execGtab src s
  | .coef src => Sys2Proof.Machine.execCoef src s
  | .bank src => Sys2Proof.Machine.execBank src s
  | .lmode src => Sys2Proof.Machine.execLmode src s
  | .lmcfg src => Sys2Proof.Machine.execLmcfg src s
  | .inbind src => Sys2Proof.Machine.execInbind src s
  | .outbind src => Sys2Proof.Machine.execOutbind src s
  | .axcfg src => Sys2Proof.Machine.execAxcfg src s
  | .hocfg src => Sys2Proof.Machine.execHocfg src s
  | .sleReadStat c rd rb => Sys2Proof.Machine.execSleReadStat c rd rb s
  | .sleReadFlag c rd rb => Sys2Proof.Machine.execSleReadFlag c rd rb s
  | .sleReadInteg c rd rb k => Sys2Proof.Machine.execSleReadInteg c rd rb k s
  | .sleReadRmp c rd rb => Sys2Proof.Machine.execSleReadRmp c rd rb s
  | .sleReadPred c rd rb => Sys2Proof.Machine.execSleReadPred c rd rb s
  | .sleReadPlaus c rd rb => Sys2Proof.Machine.execSleReadPlaus c rd rb s
  | .sleReadOutput c rd rb o => Sys2Proof.Machine.execSleReadOutput c rd rb o s
  | .sleReadInput c rd rb k => Sys2Proof.Machine.execSleReadInput c rd rb k s
  | .sleReadAge c rd rb k => Sys2Proof.Machine.execSleReadAge c rd rb k s
  | .sleReadCoefA c rd rb slot => Sys2Proof.Machine.execSleReadCoefA c rd rb slot s
  | .sleReadCoefB c rd rb slot => Sys2Proof.Machine.execSleReadCoefB c rd rb slot s
  | .sleReadCfg c rd rb ho => Sys2Proof.Machine.execSleReadCfg c rd rb ho s
  | .sleReadLmcfg c rd rb bank m => Sys2Proof.Machine.execSleReadLmcfg c rd rb bank m s
  | .sleReadInbind c rd rb k => Sys2Proof.Machine.execSleReadInbind c rd rb k s
  | .sleReadOutbind c rd rb o => Sys2Proof.Machine.execSleReadOutbind c rd rb o s
  | .batchStart die => Sys2Proof.Machine.execBatchStart die s
  | .chol die item => Sys2Proof.Machine.execChol die item s
  | .ldlt die item => Sys2Proof.Machine.execLdlt die item s
  | .lu die item => Sys2Proof.Machine.execLu die item s
  | .qr die item => Sys2Proof.Machine.execQr die item s
  | .trsv die item => Sys2Proof.Machine.execTrsv die item s
  | .trsm die item => Sys2Proof.Machine.execTrsm die item s
  | .refine die item => Sys2Proof.Machine.execRefine die item s
  | .boxqp die item sweeps => Sys2Proof.Machine.execBoxqp die item sweeps s
  | .batchEnd die => Sys2Proof.Machine.execBatchEnd die s
  | .abort src => Sys2Proof.Machine.execAbort src s
  | .slotclr src => Sys2Proof.Machine.execSlotclr src s
  | .tau src => Sys2Proof.Machine.execTau src s
  | .triReadStat c rd rb => Sys2Proof.Machine.execTriReadStat c rd rb s
  | .triReadDone c rd rb => Sys2Proof.Machine.execTriReadDone c rd rb s
  | .triReadTau c rd rb => Sys2Proof.Machine.execTriReadTau c rd rb s
  | .triReadCnt c rd rb => Sys2Proof.Machine.execTriReadCnt c rd rb s
  | .triReadMiss c rd rb => Sys2Proof.Machine.execTriReadMiss c rd rb s
  | .processorResult arms => Sys2Proof.Machine.execProcessorResult arms s
  | .decision => Sys2Proof.Machine.execDecision s
  | .tss1Expiry arm => Sys2Proof.Machine.execTss1Expiry arm s
  | .ssmAutoresume arm => Sys2Proof.Machine.execSsmAutoresume arm s
  | .lockstep => Sys2Proof.Machine.execLockstep s
  | .inDisc pair => Sys2Proof.Machine.execInDisc pair s
  | .testPulse src => Sys2Proof.Machine.execTestPulse src s
  | .inTest pair => Sys2Proof.Machine.execInTest pair s
  | .outFail pair => Sys2Proof.Machine.execOutFail pair s
  | .outputTestPulse output follows => Sys2Proof.Machine.execOutputTestPulse output follows s
  | .imgCrc scope hardwired bad => Sys2Proof.Machine.execImgCrc scope hardwired bad s
  | .safetyImageLoad => Sys2Proof.Machine.execSafetyImageLoad s
  | .imageCheckDone agree => Sys2Proof.Machine.execImageCheckDone agree s
  | .imageTakesEffect => Sys2Proof.Machine.execImageTakesEffect s
  | .conversion input reading ovr senseLow lag => Sys2Proof.Machine.execConversion input reading ovr senseLow lag s
  | .chopEdge ch => Sys2Proof.Machine.execChopEdge ch s
  | .staticUpdate ch => Sys2Proof.Machine.execStaticUpdate ch s
  | .modeStatic ch => Sys2Proof.Machine.execModeStatic ch s
  | .modeTransfer ch => Sys2Proof.Machine.execModeTransfer ch s
  | .zero ch => Sys2Proof.Machine.execZero ch s
  | .tare ch => Sys2Proof.Machine.execTare ch s
  | .tareval ch v => Sys2Proof.Machine.execTareval ch v s
  | .clrtare ch => Sys2Proof.Machine.execClrtare ch s
  | .notstable ch => Sys2Proof.Machine.execNotstable ch s
  | .windowRequest => Sys2Proof.Machine.execWindowRequest s
  | .windowEnd ch => Sys2Proof.Machine.execWindowEnd ch s
  | .unseal => Sys2Proof.Machine.execUnseal s
  | .benchmark => Sys2Proof.Machine.execBenchmark s
  | .program => Sys2Proof.Machine.execProgram s
  | .trailAck => Sys2Proof.Machine.execTrailAck s
  | .reseal => Sys2Proof.Machine.execReseal s
  | .timeout => Sys2Proof.Machine.execTimeout s
  | .linkChange chB port host up speedOk => Sys2Proof.Machine.execLinkChange chB port host up speedOk s
  | .portCfgWrite chB port v => Sys2Proof.Machine.execPortCfgWrite chB port v s
  | .cutThroughForward chB port rx residence16 => Sys2Proof.Machine.execCutThroughForward chB port rx residence16 s
  | .heldFrameSend chB port residence16 => Sys2Proof.Machine.execHeldFrameSend chB port residence16 s
  | .dataReceive chB port rx => Sys2Proof.Machine.execDataReceive chB port rx s
  | .syncReceive chB port rx => Sys2Proof.Machine.execSyncReceive chB port rx s
  | .coldstartReceive chB port rx => Sys2Proof.Machine.execColdstartReceive chB port rx s
  | .claimReceive chB port rx => Sys2Proof.Machine.execClaimReceive chB port rx s
  | .dlyreqReceive chB port rx => Sys2Proof.Machine.execDlyreqReceive chB port rx s
  | .dlyrespReceive chB port rx => Sys2Proof.Machine.execDlyrespReceive chB port rx s
  | .slotTransmit chB slot startsBy => Sys2Proof.Machine.execSlotTransmit chB slot startsBy s
  | .linkWindow chB => Sys2Proof.Machine.execLinkWindow chB s
  | .clockCorrection => Sys2Proof.Machine.execClockCorrection s
  | .listenTimeout => Sys2Proof.Machine.execListenTimeout s
  | .roundFailed => Sys2Proof.Machine.execRoundFailed s
  | .integrateDone => Sys2Proof.Machine.execIntegrateDone s
  | .lostsync => Sys2Proof.Machine.execLostsync s
  | .leaderTakeover => Sys2Proof.Machine.execLeaderTakeover s
  | .grantRelease chB slot => Sys2Proof.Machine.execGrantRelease chB slot s
  | .modeSwitch => Sys2Proof.Machine.execModeSwitch s
  | .modeCancel => Sys2Proof.Machine.execModeCancel s
  | .busEnable on => Sys2Proof.Machine.execBusEnable on s
  | .vbaStart => Sys2Proof.Machine.execVbaStart s
  | .graticuleLoad => Sys2Proof.Machine.execGraticuleLoad s
  | .modeRequest target => Sys2Proof.Machine.execModeRequest target s
  | .release chB slot => Sys2Proof.Machine.execRelease chB slot s
  | .zw0Write v => Sys2Proof.Machine.execZw0Write v s
  | .zw1Write m v => Sys2Proof.Machine.execZw1Write m v s
  | .stepRequest => Sys2Proof.Machine.execStepRequest s
  | .bindRequest => Sys2Proof.Machine.execBindRequest s
  | .hostPortEnable portB on => Sys2Proof.Machine.execHostPortEnable portB on s
  | .hostFrameReceive portB rx => Sys2Proof.Machine.execHostFrameReceive portB rx s
  | .hostFrameTransmit portB frac => Sys2Proof.Machine.execHostFrameTransmit portB frac s
  | .rxtsRead portB => Sys2Proof.Machine.execRxtsRead portB s
  | .txtsRead portB => Sys2Proof.Machine.execTxtsRead portB s
  | .start src => Sys2Proof.Machine.execStart src s
  | .halt src => Sys2Proof.Machine.execHalt src s
  | .dmaReadStat c rd rb => Sys2Proof.Machine.execDmaReadStat c rd rb s
  | .dmaReadCnt c rd rb => Sys2Proof.Machine.execDmaReadCnt c rd rb s
  | .dmaReadLevel c rd rb => Sys2Proof.Machine.execDmaReadLevel c rd rb s
  | .linear die ch => Sys2Proof.Machine.execLinear die ch s
  | .fill die ch => Sys2Proof.Machine.execFill die ch s
  | .strided die ch => Sys2Proof.Machine.execStrided die ch s
  | .gather die ch => Sys2Proof.Machine.execGather die ch s
  | .scatter die ch => Sys2Proof.Machine.execScatter die ch s
  | .burstComplete die ch linkErrs => Sys2Proof.Machine.execBurstComplete die ch linkErrs s
  | .handBack die ch => Sys2Proof.Machine.execHandBack die ch s
  | .poll die ch => Sys2Proof.Machine.execPoll die ch s
  | .scrubVisit die bank => Sys2Proof.Machine.execScrubVisit die bank s
  | .memRetWrite die v => Sys2Proof.Machine.execMemRetWrite die v s
  | .bankWake die bank => Sys2Proof.Machine.execBankWake die bank s
  | .shut => Sys2Proof.Machine.execShut s
  | .resume => Sys2Proof.Machine.execResume s
  | .shutdownComplete => Sys2Proof.Machine.execShutdownComplete s
  | .drainComplete die => Sys2Proof.Machine.execDrainComplete die s
  | .retire => Sys2Proof.Machine.execRetire s
  | .survey => Sys2Proof.Machine.execSurvey s
  | .surveyEnd mask => Sys2Proof.Machine.execSurveyEnd mask s
  | .readmit => Sys2Proof.Machine.execReadmit s
  | .readmissionChecks die failed => Sys2Proof.Machine.execReadmissionChecks die failed s
  | .confirm => Sys2Proof.Machine.execConfirm s
  | .sfyswitch => Sys2Proof.Machine.execSfyswitch s
  | .sfyRestart => Sys2Proof.Machine.execSfyRestart s
  | .rollback => Sys2Proof.Machine.execRollback s
  | .flashwr verifyOk => Sys2Proof.Machine.execFlashwr verifyOk s
  | .resetMask src fails => Sys2Proof.Machine.execResetMask src fails s
  | .keyenrol src => Sys2Proof.Machine.execKeyenrol src s
  | .sensorSample temps rails => Sys2Proof.Machine.execSensorSample temps rails s
  | .actInChange level => Sys2Proof.Machine.execActInChange level s
  | .takeover => Sys2Proof.Machine.execTakeover s
  | .heartbeatSend => Sys2Proof.Machine.execHeartbeatSend s
  | .heartbeatReceive payload => Sys2Proof.Machine.execHeartbeatReceive payload s
  | .plost => Sys2Proof.Machine.execPlost s
  | .shadowDigest => Sys2Proof.Machine.execShadowDigest s
  | .isolate => Sys2Proof.Machine.execIsolate s
  | .rejoin => Sys2Proof.Machine.execRejoin s
  | .feedSample mvA maA mvB maB mvOr => Sys2Proof.Machine.execFeedSample mvA maA mvB maB mvOr s
  | .rev feedB => Sys2Proof.Machine.execRev feedB s
  | .block feedB on => Sys2Proof.Machine.execBlock feedB on s
  | .blktmoExpiry feedB => Sys2Proof.Machine.execBlktmoExpiry feedB s
  | .latentUpdate => Sys2Proof.Machine.execLatentUpdate s
  | .clkFail => Sys2Proof.Machine.execClkFail s
  | .safeInputChange n level => Sys2Proof.Machine.execSafeInputChange n level s
  | .encoderTransition n a b => Sys2Proof.Machine.execEncoderTransition n a b s
  | .illegal c word => Sys2Proof.Machine.execIllegal c word s
  | .looponly c word => Sys2Proof.Machine.execLooponly c word s
  | .badcmd src => Sys2Proof.Machine.execBadcmd src s

end Sys2Proof.Machine
end

