-- ==== Sys2Proof/Safety.lean ====
section
/-! DEFINITION. What a safe run of the block is, and the words in which the claims are stated. -/

namespace Sys2Proof.Machine

/-- A step from this state goes on. -/
def State.goesOn (s : State) : Prop := ∃ t, step s = .next t

/-- The first `n` steps from this state all go on. -/
def State.safeFor : Nat → State → Prop
  | 0, _ => True
  | n + 1, s => ∃ t, step s = .next t ∧ t.safeFor n

/-- The command answers a next state, of which `P` holds. -/
def Answers (i : Instr) (s : State) (P : State → Prop) : Prop := ∃ t, exec i s = .next t ∧ P t

/-! ### A core that executes one instruction -/

/-- The core executes the commanded instruction now: it is live, runs an item, is not stalled, has nothing pending at the
instruction boundary, and the fetch from its pc raises nothing. -/
def State.ready (s : State) (c : CoreId) : Bool := s.canRun c && (s.core c).boundary.isNone && (s.fetch c).2.isNone

/-- The state after the fetch, in which the instruction acts. -/
def State.fetched (s : State) (c : CoreId) : State := (s.fetch c).1

/-- `t` is `u` but for core `c`, which is `x`: every other core, every byte of SRAM and everything else is unchanged. -/
def State.onlyCore (u t : State) (c : CoreId) (x : Core) : Prop :=
  t.core c = x ∧ (∀ d, coreKey d ≠ coreKey c → t.core d = u.core d) ∧ (∀ a, t.byte a = u.byte a) ∧ { t with cores := u.cores } = u

/-- `t` is `u` with `v` in rd, the pc on the next word and CSTAT.SAT set if `sat`; a write to g0 is discarded. Everything
else is unchanged. -/
def State.wrote (u t : State) (c : CoreId) (rd : Reg) (v : W64) (sat : Bool) : Prop :=
  (∀ r, t.reg c r = if r = rd ∧ r ≠ 0 then v else u.reg c r) ∧
  ∃ g, u.onlyCore t c { u.core c with g := g, pc := ((u.core c).pc + 4) % 2 ^ 64, sat := (u.core c).sat || sat }

/-- `t` is `u` with the core at `pc` and nothing else changed. -/
def State.wentTo (u t : State) (c : CoreId) (pc : Nat) : Prop := u.onlyCore t c { u.core c with pc := pc }

/-- `t` is `u` with rd set as its register's link and the core at `pc`. -/
def State.linkedTo (u t : State) (c : CoreId) (rd : Reg) (v : W64) (pc : Nat) : Prop :=
  (∀ r, t.reg c r = if r = rd ∧ r ≠ 0 then v else u.reg c r) ∧ ∃ g, u.onlyCore t c { u.core c with g := g, pc := pc }

/-- The core has entered its handler: CEPC, CCAUSE and, where the exception has an address, CBADA are written, XM is set and
the pc is CVEC. Everything else is unchanged. -/
def State.trapped (u t : State) (c : CoreId) (e : Exc) : Prop :=
  u.onlyCore t c { u.core c with
    cepc := (u.core c).pc, ccause := e.cause, cbada := e.bada.getD (u.core c).cbada, xm := true, pc := (u.core c).cvec }

/-- A core that takes an exception enters its handler: it has one and is not in it (R57). -/
def State.hasHandler (s : State) (c : CoreId) : Prop := (s.core c).cvec ≠ 0 ∧ (s.core c).xm = false

/-- The address of a load or store: ra + sext(disp14) (R43). -/
def State.address (s : State) (c : CoreId) (ra : Reg) (disp : BitVec 14) : Nat :=
  (s.reg c ra + BitVec.ofInt 64 disp.toInt).toNat

/-- An aligned range of `n` bytes in SRAM of a die that answers, in an ECC word that can be read. -/
def State.plainSram (s : State) (a n : Nat) : Prop :=
  a % n = 0 ∧ s.badSyms (a / 32) ≤ 4 ∧ ∃ d, sramDie a = some d ∧ s.answers d = true

/-- The bytes that a load of SRAM with a hint sees: the D-cache line if one is present and the load is not uncached, else
memory (R51, R53). -/
def State.seen (s : State) (c : CoreId) (a n : Nat) (hint : BitVec 2) : List Byte :=
  match lineOf (s.core c).dcache a with
  | some l => if hint = 1 then s.bytes a n else slice l.data (a % 64) n
  | none => s.bytes a n

/-- `t` is `u` with `v` in rd and the pc on the next word, after an access that may also fill the D-cache, wake a bank and
report a correctable or a neighbouring ECC error. No byte of SRAM and no other register changes. -/
def State.loaded (u t : State) (c : CoreId) (rd : Reg) (v : W64) : Prop :=
  (∀ r, t.reg c r = if r = rd ∧ r ≠ 0 then v else u.reg c r) ∧
  { t.core c with g := (u.core c).g, dcache := (u.core c).dcache } = { u.core c with pc := ((u.core c).pc + 4) % 2 ^ 64 } ∧
  (∀ d, coreKey d ≠ coreKey c → t.core d = u.core d) ∧ (∀ a, t.byte a = u.byte a) ∧
  { t with cores := u.cores, regs := u.regs, memDie := u.memDie, fb := u.fb, wdx := u.wdx, freeCtr := u.freeCtr } = u

/-- `t` is `u` with the bytes `l` at `a` and the pc on the next word; every other byte and every register is unchanged. -/
def State.stored (u t : State) (c : CoreId) (a : Nat) (l : List Byte) : Prop :=
  (∀ x, t.byte x = if a ≤ x ∧ x < a + l.length then l.getD (x - a) 0 else u.byte x) ∧
  { t.core c with dcache := (u.core c).dcache } = { u.core c with pc := ((u.core c).pc + 4) % 2 ^ 64 } ∧
  (∀ d, coreKey d ≠ coreKey c → t.core d = u.core d) ∧
  { t with cores := u.cores, mem := u.mem, ecc := u.ecc, regs := u.regs, memDie := u.memDie, fb := u.fb, wdx := u.wdx } = u

/-- A read of `n` bytes at `a` by an engine brings them: every die that holds them answers, and no word has an uncorrectable error. -/
abbrev State.readable (s : State) (a n : Nat) : Prop := s.rangeAnswers a n = true ∧ ∀ w ∈ wordsOf a n, s.badSyms w ≤ 4

/-- `t` has the bytes of SRAM and the cores of `u`. -/
def State.spares (u t : State) : Prop := (∀ a, t.byte a = u.byte a) ∧ ∀ c, t.core c = u.core c

/-- The Contour die's samples have reached the present time and nothing waits to be reported. -/
def State.caughtUp (s : State) : Prop := s.ctm.samp = s.sampNow ∧ s.ctm.found = []

/-- Sample `k` lies ahead, before the next datum. -/
def State.reaches (s : State) (k : Nat) : Prop :=
  s.sampNow < k ∧ s.mer.phase + ceilDiv (k * 10000 - s.ctm.off - s.upNs) 4 * s.mer.inc < s.mer.target

/-- A legal request that R253 accepts up to its signature: the layout, the unit, a SEQNO above the last one, an event counter that
can go up, and a signature under a key of the legal authority. -/
def State.legalGood (s : State) (l : List Byte) : Bool :=
  legalFormat l && leAt l 16 4 == s.sys.uid0 && leAt l 20 4 == s.sys.uid1 && decide (s.crt.store.seqno < leAt l 12 4) &&
    ((!s.crt.store.spent && s.crt.store.evcnt != 2 ^ 32 - 1) || leAt l 4 1 == 5) &&
    (s.topKey 3).any fun k => ecdsaOk k (l.drop (l.length - 64)) (sha256 (l.take (l.length - 64)))

/-- The least and greatest signed 64-bit values saturate an integer. -/
def clamp64 (x : Int) : Int := max (-(2 ^ 63)) (min x (2 ^ 63 - 1))

end Sys2Proof.Machine
end

