-- ==== Sys2Proof/WellFormed.lean ====
section
/-! DEFINITION. Which commands can occur at all on the largest variant: dies, cores, axes, channels and fields within the
ranges that the spec gives them. The meanings leave the state as it is on an operand outside its range (assumption log 3). -/

namespace Sys2Proof

/-- A die code: the hub 0x00 or a sheet 0x01–0x06 (R5, R7). -/
def dieOk (d : Nat) : Bool := decide (d ≤ 6)

/-- A sheet's die code. -/
def sheetOk (d : Nat) : Bool := decide (1 ≤ d) && decide (d ≤ 6)

/-- A core: four on the hub, six on a sheet (R18). -/
def CoreId.ok (c : CoreId) : Bool := dieOk c.die && decide (c.idx < if c.die = 0 then 4 else 6)

/-- A Traverse axis: 16 TRH axes on the hub, 24 TRV axes on a sheet (R105). -/
def trvAxisOk (d n : Nat) : Bool := dieOk d && decide (n < if d = 0 then 16 else 24)

/-- An SLE axis. -/
def sleAxisOk (d n : Nat) : Bool := sheetOk d && decide (n < 24)

/-- A DMA channel (R319). -/
def dmaChOk (d n : Nat) : Bool := dieOk d && decide (n < 16)

/-- A TRI engine: one a sheet. -/
def triOk (d n : Nat) : Bool := sheetOk d && n == 0

/-- The source of a Traverse command. -/
def TrvSrc.ok : TrvSrc → Bool
  | .engw c _ _ _ _ => c.ok
  | .reg d n => trvAxisOk d n

/-- The source of an engine's command, given which units that engine has. -/
def EngSrc.ok (unit : Nat → Nat → Bool) : EngSrc → Bool
  | .engw c _ _ _ => c.ok
  | .reg d n => unit d n

/-- The source of a bank request. -/
def BankSrc.ok : BankSrc → Bool
  | .cmd s => s.ok sleAxisOk
  | .target d n _ => sleAxisOk d n

/-- Whether a code lies in one of the ranges of codes that a unit assigns. -/
def codeIn (l : List (Nat × Nat)) (k : Nat) : Bool := l.any fun r => decide (r.1 ≤ k) && decide (k ≤ r.2)

/-- The assigned codes of Traverse (R110). -/
def trvAssigned : List (Nat × Nat) := [(1, 6), (0x10, 0x1D), (0x20, 0x28), (0x30, 0x35), (0x40, 0x46)]

/-- The assigned codes of the engines in the order of ENGW's eng field (R110, R163, R194, R328). -/
def engAssigned (eng : Nat) : List (Nat × Nat) :=
  match eng with
  | 0 | 1 => trvAssigned
  | 2 => [(1, 11)]
  | 3 => [(1, 3)]
  | _ => [(1, 2)]

/-- The assigned read codes of the engines in the order of ENGR's eng field, but for the stored values of Traverse, which TRV_READ_STORED
names (R111, R164, R195, R328). -/
def engrAssigned (eng : Nat) : List (Nat × Nat) :=
  match eng with
  | 0 | 1 => [(0, 0x0A), (0x80, 0xFF)]
  | 2 => [(0, 8), (0x10, 0x13), (0x18, 0x27), (0x40, 0x7F), (0x8A, 0x8B), (0x90, 0x97), (0xA3, 0xAB)]
  | 3 => [(0, 4)]
  | _ => [(0, 2)]

/-- A command or read code that the unit does not assign (R110, R111, R163, R164, R194, R195, R328, R381). -/
def BadSrc.ok : BadSrc → Bool
  | .engw c eng k _ _ _ => c.ok && decide (eng.toNat ≤ 4) && !codeIn (engAssigned eng.toNat) k.toNat
  | .engr c eng k _ _ => c.ok && decide (eng.toNat ≤ 4) && !codeIn (engrAssigned eng.toNat) k.toNat
  | .trv d n k => trvAxisOk d n && !codeIn trvAssigned k.toNat
  | .sle d n k => sleAxisOk d n && !codeIn (engAssigned 2) k.toNat
  | .tri d k => sheetOk d && !codeIn (engAssigned 3) k.toNat
  | .dma d n k => dmaChOk d n && !codeIn (engAssigned 4) k.toNat
  | .sfy k => !codeIn [(1, 6), (0x10, 0x10)] k.toNat

/-- The master of a register access. -/
def Master.ok : Master → Bool
  | .core c => c.ok
  | .ext => true

/-- Readmission outcomes: each sheet once, a failed check 1–5 or 0 (R380). -/
def failsOk (l : List (Nat × Nat)) : Bool := (l.map (·.1)).Nodup && l.all fun x => sheetOk x.1 && decide (x.2 ≤ 5)

/-- A frame on the bus: every header field within its width (R259–R261). -/
def BusFrame.ok (f : BusFrame) : Bool :=
  decide (f.ver < 16) && decide (f.typ < 16) && decide (f.sender < 256) && decide (f.gmode < 8) && decide (f.flow < 4096) && decide (f.slot < 65536)
    && decide (f.tsNs < 2 ^ 32) && decide (f.tsSec < 2 ^ 48) && decide (f.corr < 2 ^ 32)
    && f.recs.all fun r => decide (r.flow < 4096) && decide (r.words ≤ 366) && decide (r.age < 256) && r.data.length == r.words

/-- A reception on a bus port: an Ethernet frame with a payload of 46–1,500 bytes (R259). -/
def BusRx.ok (r : BusRx) : Bool := decide (64 ≤ r.bytes.length) && decide (r.bytes.length ≤ 1518)

/-- How a slot begins: flow IDs of 12 bits, and at most 31 of them beside the entry's own (R37). -/
def SlotSend.ok (x : SlotSend) : Bool := decide (x.bundle.length ≤ 31) && x.bundle.all fun f => decide (f < 4096)

/-- An arm: 1–18. -/
def armOk (n : Nat) : Bool := decide (1 ≤ n) && decide (n ≤ 18)

/-- A bank of a die's SRAM (R311). -/
def bankOk (d b : Nat) : Bool := dieOk d && decide (b < if d = 0 then 32 else 24)

/-- An item of a batch: 0–127 (R168). -/
def itemOk (d n : Nat) : Bool := sheetOk d && decide (n < 128)

/-- A command within the ranges of the spec. -/
def Instr.wf : Instr → Bool
  | .boot _ _ f | .wrstNRelease f | .resetMask _ f => failsOk f
  | .cartoucheRestart | .porstNLow | .internalReset | .wrstNLow | .resetStuck | .sysCompatWrite _ | .sysGpioset _ | .sysGpioclr _ => true
  | .datum _ k => decide (k < 2 ^ 20)
  | .registerWrite m _ _ | .captureRead m _ | .cancel m _ | .hquery m _ | .zw1Write m _ => m.ok
  | .add c _ _ _ | .sub c _ _ _ | .and c _ _ _ | .or c _ _ _ | .xor c _ _ _ | .nor c _ _ _ | .slt c _ _ _ | .sltu c _ _ _ => c.ok
  | .sll c _ _ _ | .srl c _ _ _ | .sra c _ _ _ | .slli c _ _ _ | .srli c _ _ _ | .srai c _ _ _ | .adds c _ _ _ | .subs c _ _ _ => c.ok
  | .min c _ _ _ | .max c _ _ _ | .minu c _ _ _ | .maxu c _ _ _ | .clz c _ _ | .popc c _ _ | .mul c _ _ _ | .mulh c _ _ _ => c.ok
  | .mulhu c _ _ _ | .muls c _ _ _ | .div c _ _ _ | .divu c _ _ _ | .rem c _ _ _ | .remu c _ _ _ => c.ok
  | .addi c _ _ _ | .andi c _ _ _ | .ori c _ _ _ | .xori c _ _ _ | .slti c _ _ _ | .sltiu c _ _ _ | .lui c _ _ | .orh c _ _ _ | .ort c _ _ _ => c.ok
  | .lb c _ _ _ _ | .lbu c _ _ _ _ | .lh c _ _ _ _ | .lhu c _ _ _ _ | .lw c _ _ _ _ | .lwu c _ _ _ _ | .ld c _ _ _ _ => c.ok
  | .sb c _ _ _ _ | .sh c _ _ _ _ | .sw c _ _ _ _ | .sd c _ _ _ _ => c.ok
  | .beq c _ _ _ | .bne c _ _ _ | .blt c _ _ _ | .bge c _ _ _ | .bltu c _ _ _ | .bgeu c _ _ _ | .j c _ | .jal c _ | .jr c _ | .jalr c _ _ => c.ok
  | .mfc c _ _ | .mtc c _ _ | .trap c _ | .eret c | .iinv c | .cinv c _ | .cinva c | .aadd c _ _ _ _ | .acas c _ _ _ _ _ | .fence c => c.ok
  | .dispatch c | .deadline c | .eccUncorr c | .postBusy c | .illegal c _ | .looponly c _ => c.ok
  | .post c _ _ | .delay c _ _ _ | .done c _ | .solve c _ _ _ | .tsamp c _ _ | .qmul c _ _ _ _ _ _ | .qmac c _ _ _ _ _ _ | .luti c _ _ _ => c.ok
  | .delayExpiry | .stationMove | .heldEventAccept | .crsizeWrite _ => true
  | .pendQueue e | .evtCtlWrite e _ => decide (e < 512)
  | .enable s | .disable s | .stop s | .qstop s | .clearFault s | .mode s | .xtarget s | .vstart s | .a1 s | .v1 s | .amax s | .vmax s => s.ok
  | .dmax s | .d1 s | .vstop s | .qdec s | .vjog s | .setpos s | .swlimLo s | .swlimHi s | .axisCfg s | .limCfg s | .debounce s => s.ok
  | .chatterWin s | .stallCfg s | .motor s | .stallflow s | .encCpr s | .pathCommit s | .gearMaster s | .gearRatio s | .gearArmpos s => s.ok
  | .gearArm s | .gearRamp s | .gearDisarm s | .homeCfg s | .homeVsearch s | .homeVlatch s | .homeOffset s | .homeBackoff s => s.ok
  | .homeMaxdist s | .homeStart s => s.ok
  | .trvReadStat c _ _ _ | .trvReadFlag c _ _ _ | .trvReadPosition c _ _ _ | .trvReadSpeed c _ _ _ | .trvReadAccel c _ _ _ => c.ok
  | .trvReadXtarget c _ _ _ | .trvReadMaster c _ _ _ | .trvReadLoad c _ _ _ | .trvReadLatched c _ _ _ | .trvReadPlan c _ _ _ => c.ok
  | .trvReadGrem c _ _ _ | .trvReadStored c _ _ _ _ => c.ok
  | .jogTimeout d n | .debounceExpiry d n _ | .stall d n => trvAxisOk d n
  | .indexCapture _ | .idxArm _ | .encoderTransition _ _ _ | .safeInputChange _ _ => true
  | .sleSample d st o => sheetOk d && decide (st < 65536) && o.Nodup && o.all fun n => decide (n < 24)
  | .offcntExpiry d n => sleAxisOk d n
  | .load s | .free s | .gtab s | .coef s | .lmode s | .lmcfg s | .inbind s | .outbind s | .axcfg s | .hocfg s => s.ok sleAxisOk
  | .bank s => s.ok
  | .loadPerformed d | .batchStart d | .batchEnd d | .drainComplete d => sheetOk d
  | .sleReadStat c _ _ | .sleReadFlag c _ _ | .sleReadInteg c _ _ _ | .sleReadRmp c _ _ | .sleReadPred c _ _ | .sleReadPlaus c _ _ => c.ok
  | .sleReadOutput c _ _ _ | .sleReadInput c _ _ _ | .sleReadAge c _ _ _ | .sleReadCoefA c _ _ _ | .sleReadCoefB c _ _ _ => c.ok
  | .sleReadCfg c _ _ _ | .sleReadLmcfg c _ _ _ _ | .sleReadInbind c _ _ _ | .sleReadOutbind c _ _ _ => c.ok
  | .chol d n | .ldlt d n | .lu d n | .qr d n | .trsv d n | .trsm d n | .refine d n => itemOk d n
  | .boxqp d n k => itemOk d n && decide (k < 65536)
  | .abort s | .slotclr s | .tau s => s.ok triOk
  | .triReadStat c _ _ | .triReadDone c _ _ | .triReadTau c _ _ | .triReadCnt c _ _ | .triReadMiss c _ _ => c.ok
  | .processorResult l => l.all fun a => armOk a.arm && decide (a.demand ≤ 4)
  | .decision | .lockstep | .inDisc _ | .testPulse _ | .inTest _ | .outFail _ | .outputTestPulse _ _ | .safetyImageLoad | .imageCheckDone _ | .imageTakesEffect => true
  | .tss1Expiry n | .ssmAutoresume n => armOk n
  | .imgCrc n _ _ => n == 0 || armOk n
  | .conversion _ r _ _ _ => decide (-8388608 ≤ r) && decide (r < 8388608)
  | .chopEdge _ | .staticUpdate _ | .modeStatic _ | .modeTransfer _ | .zero _ | .tare _ | .tareval _ _ | .clrtare _ | .notstable _ => true
  | .windowRequest | .windowEnd _ | .unseal | .benchmark | .program | .trailAck | .reseal | .timeout => true
  | .linkChange _ _ _ _ _ | .portCfgWrite _ _ _ | .heldFrameSend _ _ _ => true
  | .cutThroughForward _ _ r _ | .dataReceive _ _ r | .syncReceive _ _ r | .coldstartReceive _ _ r | .claimReceive _ _ r | .dlyreqReceive _ _ r | .dlyrespReceive _ _ r => r.ok
  | .slotTransmit _ n x => decide (n < 1024) && x.ok
  | .grantRelease _ n => decide (n < 1024)
  | .linkWindow _ | .clockCorrection | .listenTimeout | .roundFailed | .integrateDone | .lostsync | .leaderTakeover | .modeSwitch | .modeCancel | .busEnable _ => true
  | .vbaStart | .graticuleLoad | .modeRequest _ | .release _ _ | .zw0Write _ | .stepRequest | .bindRequest | .hostPortEnable _ _ => true
  | .hostFrameReceive _ r => decide (14 ≤ r.bytes.length)
  | .hostFrameTransmit _ _ | .rxtsRead _ | .txtsRead _ => true
  | .start s | .halt s => s.ok dmaChOk
  | .dmaReadStat c _ _ | .dmaReadCnt c _ _ | .dmaReadLevel c _ _ => c.ok
  | .linear d n | .fill d n | .strided d n | .gather d n | .scatter d n | .handBack d n | .poll d n => dmaChOk d n
  | .burstComplete d n _ => dmaChOk d n
  | .scrubVisit d b | .bankWake d b => bankOk d b
  | .memRetWrite d _ => dieOk d
  | .shut | .resume | .shutdownComplete | .retire | .survey | .surveyEnd _ | .readmit | .confirm | .sfyswitch | .sfyRestart | .rollback | .flashwr _ | .keyenrol _ => true
  | .readmissionChecks d k => sheetOk d && decide (k ≤ 5)
  | .sensorSample t r => (t.map (·.1)).Nodup && (r.map (·.1)).Nodup
  | .actInChange _ | .takeover | .heartbeatSend | .plost | .shadowDigest | .isolate | .rejoin | .feedSample _ _ _ _ _ | .rev _ | .block _ _ | .blktmoExpiry _ | .latentUpdate | .clkFail => true
  | .heartbeatReceive p => decide (p.length ≤ 1500)
  | .badcmd b => b.ok

end Sys2Proof
end

