-- ==== Sys2Proof/Certificates/Slice0/Obligations.lean ====
section
/-! DEFINITION. The statements about the model that are to be proved, by the rules of the spec. -/

open Sys2Proof Sys2Proof.Machine

/-! ### Brorok: integer instructions -/

/-- The fetch changes no register, pc or status of any core, no byte of SRAM and no mode: of the fetching core only the
I-cache, and beside the cores only what an ECC error or a bank's wake-up reports (R51, R315, R318). -/
def Obligations.FetchKeepsRegisters : Prop :=
  ∀ (s : State) (c d : CoreId),
    (∀ r, (s.fetched c).reg d r = s.reg d r) ∧ { (s.fetched c).core d with icache := (s.core d).icache } = s.core d ∧
    (∀ a, (s.fetched c).byte a = s.byte a) ∧
    { s.fetched c with cores := s.cores, regs := s.regs, memDie := s.memDie, fb := s.fb, wdx := s.wdx, freeCtr := s.freeCtr } = s

/-- R45: each instruction of opcode 0x01, executed by a ready core, writes its result to rd, sets CSTAT.SAT only where a
sum or difference saturates, moves on by one word and changes nothing else. -/
def Obligations.IntegerResults : Prop :=
  ∀ (s : State) (c : CoreId) (rd ra rb : Reg) (sh : BitVec 6), s.ready c = true →
    let a := s.reg c ra
    let b := s.reg c rb
    let gives (i : Instr) (v : W64) (sat : Bool) : Prop := Answers i s fun t => (s.fetched c).wrote t c rd v sat
    gives (.add c rd ra rb) (a + b) false ∧
    gives (.sub c rd ra rb) (a - b) false ∧
    gives (.and c rd ra rb) (a &&& b) false ∧
    gives (.or c rd ra rb) (a ||| b) false ∧
    gives (.xor c rd ra rb) (a ^^^ b) false ∧
    gives (.nor c rd ra rb) (~~~(a ||| b)) false ∧
    gives (.slt c rd ra rb) (if a.toInt < b.toInt then 1 else 0) false ∧
    gives (.sltu c rd ra rb) (if a.toNat < b.toNat then 1 else 0) false ∧
    gives (.sll c rd ra rb) (a <<< (b.toNat % 64)) false ∧
    gives (.srl c rd ra rb) (a >>> (b.toNat % 64)) false ∧
    gives (.sra c rd ra rb) (BitVec.ofInt 64 (a.toInt / 2 ^ (b.toNat % 64))) false ∧
    gives (.slli c rd ra sh) (a <<< sh.toNat) false ∧
    gives (.srli c rd ra sh) (a >>> sh.toNat) false ∧
    gives (.srai c rd ra sh) (BitVec.ofInt 64 (a.toInt / 2 ^ sh.toNat)) false ∧
    gives (.adds c rd ra rb) (BitVec.ofInt 64 (clamp64 (a.toInt + b.toInt))) (decide (clamp64 (a.toInt + b.toInt) ≠ a.toInt + b.toInt)) ∧
    gives (.subs c rd ra rb) (BitVec.ofInt 64 (clamp64 (a.toInt - b.toInt))) (decide (clamp64 (a.toInt - b.toInt) ≠ a.toInt - b.toInt)) ∧
    gives (.min c rd ra rb) (BitVec.ofInt 64 (min a.toInt b.toInt)) false ∧
    gives (.max c rd ra rb) (BitVec.ofInt 64 (max a.toInt b.toInt)) false ∧
    gives (.minu c rd ra rb) (BitVec.ofNat 64 (min a.toNat b.toNat)) false ∧
    gives (.maxu c rd ra rb) (BitVec.ofNat 64 (max a.toNat b.toNat)) false ∧
    gives (.clz c rd ra) (BitVec.ofNat 64 (if a = 0 then 64 else 63 - a.toNat.log2)) false ∧
    gives (.popc c rd ra) (BitVec.ofNat 64 ((List.range 64).filter a.getLsbD).length) false

/-- R47: the immediate instructions; imm16 is extended by sign for ADDI, SLTI, SLTIU and LUI and by zeros for the others. Each
completes: none raises an exception. -/
def Obligations.ImmediateResults : Prop :=
  ∀ (s : State) (c : CoreId) (rd ra : Reg) (imm : BitVec 16), s.ready c = true →
    let a := s.reg c ra
    let gives (i : Instr) (v : W64) : Prop := Answers i s fun t => (s.fetched c).wrote t c rd v false
    gives (.addi c rd ra imm) (a + BitVec.ofInt 64 imm.toInt) ∧
    gives (.andi c rd ra imm) (a &&& BitVec.ofNat 64 imm.toNat) ∧
    gives (.ori c rd ra imm) (a ||| BitVec.ofNat 64 imm.toNat) ∧
    gives (.xori c rd ra imm) (a ^^^ BitVec.ofNat 64 imm.toNat) ∧
    gives (.slti c rd ra imm) (if a.toInt < imm.toInt then 1 else 0) ∧
    gives (.sltiu c rd ra imm) (if a.toNat < (BitVec.ofInt 64 imm.toInt).toNat then 1 else 0) ∧
    gives (.lui c rd imm) (BitVec.ofInt 64 (imm.toInt * 2 ^ 16)) ∧
    gives (.orh c rd ra imm) (a ||| BitVec.ofNat 64 (imm.toNat * 2 ^ 32)) ∧
    gives (.ort c rd ra imm) (a ||| BitVec.ofNat 64 (imm.toNat * 2 ^ 48))

/-- R46: the multiply and divide instructions, with the results and CSTAT.SAT of a zero divisor and of the overflowing
quotient. -/
def Obligations.MultiplyDivideResults : Prop :=
  ∀ (s : State) (c : CoreId) (rd ra rb : Reg), s.ready c = true →
    let a := s.reg c ra
    let b := s.reg c rb
    let gives (i : Instr) (v : W64) (sat : Bool) : Prop := Answers i s fun t => (s.fetched c).wrote t c rd v sat
    gives (.mul c rd ra rb) (a * b) false ∧
    gives (.mulh c rd ra rb) (BitVec.ofInt 64 (a.toInt * b.toInt / 2 ^ 64)) false ∧
    gives (.mulhu c rd ra rb) (BitVec.ofNat 64 (a.toNat * b.toNat / 2 ^ 64)) false ∧
    gives (.muls c rd ra rb) (BitVec.ofInt 64 (clamp64 (a.toInt * b.toInt))) (decide (clamp64 (a.toInt * b.toInt) ≠ a.toInt * b.toInt)) ∧
    (b ≠ 0 →
      gives (.div c rd ra rb) (BitVec.ofInt 64 (clamp64 (Int.tdiv a.toInt b.toInt))) (decide (a.toInt = -(2 ^ 63) ∧ b.toInt = -1)) ∧
      gives (.divu c rd ra rb) (BitVec.ofNat 64 (a.toNat / b.toNat)) false ∧
      gives (.rem c rd ra rb) (BitVec.ofInt 64 (a.toInt - b.toInt * Int.tdiv a.toInt b.toInt)) false ∧
      gives (.remu c rd ra rb) (BitVec.ofNat 64 (a.toNat - b.toNat * (a.toNat / b.toNat))) false) ∧
    (b = 0 →
      gives (.div c rd ra rb) (BitVec.ofInt 64 (if 0 ≤ a.toInt then 2 ^ 63 - 1 else -(2 ^ 63))) true ∧
      gives (.divu c rd ra rb) (BitVec.allOnes 64) true ∧
      gives (.rem c rd ra rb) 0 true ∧
      gives (.remu c rd ra rb) 0 true)

/-- R43: a branch whose condition holds moves the pc to pc + 4 × sext(off16), one whose does not to the next word, and no register
changes. J and JAL go to pc + 4 × sext(off26), JR and JALR to ra; JAL writes pc + 4 to g1 and JALR to rd; a target of JR or JALR off a
word raises ALIGN. A branch lies on a word, as its fetch requires, so its target does too. -/
def Obligations.ControlTransfers : Prop :=
  (∀ (s : State) (c : CoreId) (ra rb : Reg) (off : BitVec 16), s.ready c = true →
    let a := s.reg c ra
    let b := s.reg c rb
    let target := (((s.core c).pc : Int) + 4 * off.toInt) % 2 ^ 64
    let next := ((s.core c).pc + 4) % 2 ^ 64
    let goes (i : Instr) (p : Prop) [Decidable p] : Prop := Answers i s fun t => (s.fetched c).wentTo t c (if p then target.toNat else next)
    goes (.beq c ra rb off) (a = b) ∧ goes (.bne c ra rb off) (a ≠ b) ∧ goes (.blt c ra rb off) (a.toInt < b.toInt) ∧
    goes (.bge c ra rb off) (b.toInt ≤ a.toInt) ∧ goes (.bltu c ra rb off) (a.toNat < b.toNat) ∧
    goes (.bgeu c ra rb off) (b.toNat ≤ a.toNat)) ∧
  (∀ (s : State) (c : CoreId) (rd ra : Reg) (off : BitVec 26), s.ready c = true →
    let target := (((s.core c).pc : Int) + 4 * off.toInt) % 2 ^ 64
    let link := BitVec.ofNat 64 ((s.core c).pc + 4)
    Answers (.j c off) s (fun t => (s.fetched c).wentTo t c target.toNat) ∧
    Answers (.jal c off) s (fun t => (s.fetched c).linkedTo t c 1 link target.toNat) ∧
    ((s.reg c ra).toNat % 4 = 0 →
      Answers (.jr c ra) s (fun t => (s.fetched c).wentTo t c (s.reg c ra).toNat) ∧
      Answers (.jalr c rd ra) s (fun t => (s.fetched c).linkedTo t c rd link (s.reg c ra).toNat)) ∧
    ((s.reg c ra).toNat % 4 ≠ 0 → (s.core c).cvec ≠ 0 → (s.core c).xm = false →
      let e := { excAlign (s.reg c ra).toNat with fetch := true }
      Answers (.jr c ra) s (fun t => (s.fetched c).trapped t c e) ∧ Answers (.jalr c rd ra) s (fun t => (s.fetched c).trapped t c e)))

/-! ### Brorok: loads, stores, atomics -/

/-- R43, R48, R51: a load of an aligned range of SRAM that can be read writes the loaded value, extended by sign or by zeros, to rt and
changes no memory and no other register; a store there writes the low bytes of rt, lowest first, and changes no other byte and
no register. -/
def Obligations.LoadsAndStores : Prop :=
  (∀ (s : State) (c : CoreId) (hint : BitVec 2) (rt ra : Reg) (disp : BitVec 14), s.ready c = true → hint ≠ 3 →
    let a := s.address c ra disp
    let u := s.fetched c
    let gives (i : Instr) (n : Nat) (signed : Bool) : Prop := u.plainSram a n →
      Answers i s fun t => u.loaded t c rt
        (if signed then BitVec.ofInt 64 (sxt (8 * n) (ofBytes (u.seen c a n hint))) else BitVec.ofNat 64 (ofBytes (u.seen c a n hint)))
    gives (.lb c hint rt ra disp) 1 true ∧ gives (.lbu c hint rt ra disp) 1 false ∧ gives (.lh c hint rt ra disp) 2 true ∧
    gives (.lhu c hint rt ra disp) 2 false ∧ gives (.lw c hint rt ra disp) 4 true ∧ gives (.lwu c hint rt ra disp) 4 false ∧
    gives (.ld c hint rt ra disp) 8 false) ∧
  (∀ (s : State) (c : CoreId) (hint : BitVec 2) (rt ra : Reg) (disp : BitVec 14), s.ready c = true → hint ≠ 3 →
    let a := s.address c ra disp
    let u := s.fetched c
    let puts (i : Instr) (n : Nat) : Prop := u.plainSram a n →
      Answers i s fun t => u.stored t c a (toBytes n (s.reg c rt).toNat)
    puts (.sb c hint rt ra disp) 1 ∧ puts (.sh c hint rt ra disp) 2 ∧ puts (.sw c hint rt ra disp) 4 ∧ puts (.sd c hint rt ra disp) 8)

/-- R48, R56: on a core with a handler, a load or store with hint 3 raises ILLEGAL; beyond 2^40 ADDR; a misaligned one in
SRAM ALIGN; an aligned one in SRAM of a die that does not answer, or at an address that the map does not list, BUSERR. No
register but those of the exception changes, and no memory. -/
def Obligations.AccessExceptions : Prop :=
  ∀ (s : State) (c : CoreId) (hint : BitVec 2) (rt ra : Reg) (disp : BitVec 14), s.ready c = true → s.hasHandler c →
    let a := s.address c ra disp
    let u := s.fetched c
    ∀ x ∈ [(Instr.lb c hint rt ra disp, 1), (Instr.lbu c hint rt ra disp, 1), (Instr.lh c hint rt ra disp, 2),
        (Instr.lhu c hint rt ra disp, 2), (Instr.lw c hint rt ra disp, 4), (Instr.lwu c hint rt ra disp, 4),
        (Instr.ld c hint rt ra disp, 8), (Instr.sb c hint rt ra disp, 1), (Instr.sh c hint rt ra disp, 2),
        (Instr.sw c hint rt ra disp, 4), (Instr.sd c hint rt ra disp, 8)],
      (hint = 3 → Answers x.1 s fun t => u.trapped t c excIllegal) ∧
      (hint ≠ 3 → 2 ^ 40 ≤ a → Answers x.1 s fun t => u.trapped t c (excAddr a)) ∧
      (hint ≠ 3 → a < 2 ^ 40 → (sramDie a).isSome = true → a % x.2 ≠ 0 → Answers x.1 s fun t => u.trapped t c (excAlign a)) ∧
      (hint ≠ 3 → a < 2 ^ 40 → a % x.2 = 0 → (whereIs a = .none ∨ ∃ d, sramDie a = some d ∧ u.answers d = false) →
        Answers x.1 s fun t => u.trapped t c (excBus a))

/-- R49, R56: AADD and ACAS on an aligned word of SRAM that can be read return the old value, extended by sign, and write the sum,
or the new value where the old one equals rc; nothing else in memory changes, nor another core. On a core with a handler a size
below 4 bytes raises ILLEGAL, an address beyond 2^40 ADDR, one in register space or local memory ATOMIC, a misaligned one ALIGN. -/
def Obligations.AtomicResults : Prop :=
  ∀ (s : State) (c : CoreId) (size : BitVec 2) (rd ra rb rc : Reg), s.ready c = true →
    let n := 2 ^ size.toNat
    let a := (s.reg c ra).toNat
    let u := s.fetched c
    let old := ofBytes (u.bytes a n)
    let kept (t : State) : Prop := (∀ d, coreKey d ≠ coreKey c → t.core d = u.core d) ∧
      { t.core c with g := (u.core c).g, dcache := (u.core c).dcache } = { u.core c with pc := ((u.core c).pc + 4) % 2 ^ 64 } ∧
      { t with cores := u.cores, mem := u.mem, ecc := u.ecc, regs := u.regs, memDie := u.memDie, fb := u.fb, wdx := u.wdx, freeCtr := u.freeCtr } = u
    let traps (e : Exc) : Prop := Answers (.aadd c size rd ra rb) s (fun t => u.trapped t c e) ∧ Answers (.acas c size rd ra rb rc) s (fun t => u.trapped t c e)
    (2 ≤ size.toNat → u.plainSram a n →
      Answers (.aadd c size rd ra rb) s (fun t =>
        (∀ r, t.reg c r = if r = rd ∧ r ≠ 0 then BitVec.ofInt 64 (sxt (8 * n) old) else u.reg c r) ∧
        (∀ x, t.byte x = if a ≤ x ∧ x < a + n then (toBytes n (old + (s.reg c rb).toNat)).getD (x - a) 0 else u.byte x) ∧ kept t) ∧
      Answers (.acas c size rd ra rb rc) s (fun t =>
        (∀ r, t.reg c r = if r = rd ∧ r ≠ 0 then BitVec.ofInt 64 (sxt (8 * n) old) else u.reg c r) ∧
        (∀ x, t.byte x = if a ≤ x ∧ x < a + n ∧ old = (s.reg c rc).toNat % 2 ^ (8 * n) then
          (toBytes n (s.reg c rb).toNat).getD (x - a) 0 else u.byte x) ∧ kept t)) ∧
    (s.hasHandler c → (size.toNat < 2 → traps excIllegal) ∧ (2 ≤ size.toNat → 2 ^ 40 ≤ a → traps (excAddr a)) ∧
      (2 ≤ size.toNat → (∃ o, whereIs a = .loc o ∨ whereIs a = .reg o) → traps (excAtomic a)) ∧
      (2 ≤ size.toNat → (sramDie a).isSome = true → a % n ≠ 0 → traps (excAlign a)))

/-! ### Brorok: system, exceptions, cell instructions -/

/-- R42, R53, R50, R57: MFC reads each control register that R42 lists and raises ILLEGAL for another index; MTC writes SAT,
CEPC, CVEC and CSAVE and raises ILLEGAL for the rest; IINV, CINV and CINVA empty what they name; FENCE goes on; ERET leaves
the handler to CEPC and outside one raises ILLEGAL. -/
def Obligations.SystemInstructions : Prop :=
  ∀ (s : State) (c : CoreId) (rd ra : Reg) (k : BitVec 6), s.ready c = true →
    let u := s.fetched c
    let x := u.core c
    let next := (x.pc + 4) % 2 ^ 64
    let v := s.reg c ra
    (∀ w, u.readCreg c k.toNat = some w → Answers (.mfc c rd k) s fun t => u.wrote t c rd (BitVec.ofNat 64 w) false) ∧
    (k.toNat ≤ 12 ↔ (u.readCreg c k.toNat).isSome = true) ∧
    (s.hasHandler c → 12 < k.toNat → Answers (.mfc c rd k) s fun t => u.trapped t c excIllegal) ∧
    (k = 0 → Answers (.mtc c k ra) s fun t => u.onlyCore t c { x with sat := v.getLsbD 1, pc := next }) ∧
    (k = 5 → Answers (.mtc c k ra) s fun t => u.onlyCore t c { x with cepc := v.toNat, pc := next }) ∧
    (k = 7 → Answers (.mtc c k ra) s fun t => u.onlyCore t c { x with cvec := v.toNat, pc := next }) ∧
    (k = 8 → Answers (.mtc c k ra) s fun t => u.onlyCore t c { x with csave := v.toNat, pc := next }) ∧
    (s.hasHandler c → k ≠ 0 → k ≠ 5 → k ≠ 7 → k ≠ 8 → Answers (.mtc c k ra) s fun t => u.trapped t c excIllegal) ∧
    Answers (.iinv c) s (fun t => u.onlyCore t c { x with icache := [], pc := next }) ∧
    Answers (.cinva c) s (fun t => u.onlyCore t c { x with dcache := [], pc := next }) ∧
    (v.toNat < 2 ^ 40 → Answers (.cinv c ra) s fun t =>
      u.onlyCore t c { x with dcache := x.dcache.filter (fun l => l.line != v.toNat / 64), pc := next }) ∧
    Answers (.fence c) s (fun t => u.wentTo t c next) ∧
    (x.xm = true → Answers (.eret c) s fun t => u.onlyCore t c { x with pc := x.cepc, xm := false }) ∧
    (s.hasHandler c → Answers (.eret c) s fun t => u.trapped t c excIllegal)

/-- R55–R60, R63: on a core with a handler, TRAP enters it with code 7 and its own sub-code, an ILLEGAL word with code 1, a
loop-only word with LOOPONLY, and at an instruction boundary a lost store's error with ECC_UNCORR and a passed deadline
with DEADLINE, both ASYNC and cleared by being taken. Without a handler TRAP ends the item: the core is free and the
Field Book holds the cause and the pc. -/
def Obligations.ExceptionEntry : Prop :=
  ∀ (s : State) (c : CoreId) (k : BitVec 6) (word : W32),
    let u := s.fetched c
    (s.ready c = true → s.hasHandler c →
      Answers (.trap c k) s (fun t => u.trapped t c { code := 7, tcode := k.toNat }) ∧
      (wordIllegal word = true → Answers (.illegal c word) s fun t => u.trapped t c excIllegal) ∧
      (loopOnlySub word ≠ 0 → Answers (.looponly c word) s fun t => u.trapped t c { code := 0x12, tcode := loopOnlySub word })) ∧
    (s.canRun c = true → s.hasHandler c →
      (∀ a, (s.core c).asyncEcc = some a → Answers (.eccUncorr c) s fun t =>
        s.onlyCore t c { s.core c with
          asyncEcc := none, cepc := (s.core c).pc, ccause := 4 + 256, cbada := a, xm := true, pc := (s.core c).cvec }) ∧
      ((s.core c).dlpend = true → Answers (.deadline c) s fun t =>
        s.onlyCore t c { s.core c with
          dlpend := false, cepc := (s.core c).pc, ccause := 9 + 256, xm := true, pc := (s.core c).cvec })) ∧
    (s.ready c = true → (s.core c).cvec = 0 → Answers (.trap c k) s fun t =>
      (t.core c).item = none ∧ t.fb = (u.log 0x0100 3 c.die 1 (u.core c).cwid (7 + k.toNat * 65536) (u.core c).pc).fb)

/-- R62, R65–R68, R93: POST and DELAY of a valid descriptor that names an in-service core take the lowest free slot and
return its handle; POST makes the item READY, DELAY puts it in the die's delay list for max(k, 1) ticks. A malformed
descriptor answers BADDESC and one that names no in-service core NOAFFINITY, and nothing is queued. DONE ends the item and
frees the core. A stalled POST or DELAY whose time is up ends with BUSY. -/
def Obligations.WorkItemInstructions : Prop :=
  ∀ (s : State) (c : CoreId) (rd ra rb : Reg) (t1 : State) (l : List Byte), 
    let u := s.fetched c
    (s.ready c = true → u.readDesc c (s.reg c ra).toNat = (t1, .inr l) →
      (Desc.ofBytes l = none →
        Answers (.post c rd ra) s (fun t => t1.wrote t c rd (refusal 4) false) ∧
        Answers (.delay c rd ra rb) s (fun t => t1.wrote t c rd (refusal 4) false)) ∧
      (∀ d, Desc.ofBytes l = some d → t1.affinityOk d = false →
        Answers (.post c rd ra) s (fun t => t1.wrote t c rd (refusal 3) false) ∧
        Answers (.delay c rd ra rb) s (fun t => t1.wrote t c rd (refusal 3) false)) ∧
      (∀ d n, Desc.ofBytes l = some d → t1.affinityOk d = true → t1.wdx.freeSlot = some n →
        (t1.listFull d.prio = false → t1.nextHeld (· == d.prio) = none → Answers (.post c rd ra) s fun t =>
          t.wdx = (t1.arrive n d).wdx ∧
          (∀ r, t.reg c r = if r = rd ∧ r ≠ 0 then BitVec.ofNat 64 (t1.wdx.handle n) else t1.reg c r) ∧
          (t.core c).pc = ((t1.core c).pc + 4) % 2 ^ 64) ∧
        (t1.wdx.delayCount c.die < 1024 → (t1.reg c rb).toNat < 2 ^ 32 → Answers (.delay c rd ra rb) s fun t =>
          (t.wdx.slot n).item = some { d := d, st := .delayed c.die (t1.wdx.ticks + max (t1.reg c rb).toNat 1), arr := t1.wdx.arrival } ∧
          (∀ r, t.reg c r = if r = rd ∧ r ≠ 0 then BitVec.ofNat 64 (t1.wdx.handle n) else t1.reg c r) ∧
          (t.core c).pc = ((t1.core c).pc + 4) % 2 ^ 64))) ∧
    (s.ready c = true → Answers (.done c ra) s fun t =>
      (t.core c).item = none ∧ t = u.endOnCore c { status := 1, result := (s.reg c ra).toNat % 2 ^ 32 }) ∧
    (∀ x, s.coreLive c = true → (s.core c).stall = some x → x.limit ≤ s.upNs → Answers (.postBusy c) s fun t =>
      (∀ r, t.reg c r = if r = x.rd ∧ r ≠ 0 then refusal 1 else s.reg c r) ∧
      ∃ g, s.onlyCore t c { s.core c with g := g, stall := none, pc := ((s.core c).pc + 4) % 2 ^ 64 })

/-- R40, R91, R92: DISPATCH gives a free live core the first item that it may take, in the state of R40: pc at the entry,
g2 past local memory, every other register 0, the item's CARG, CDEAD, CTAG and handle, and an empty D-cache. -/
def Obligations.DispatchState : Prop :=
  ∀ (s : State) (c : CoreId) (n : Nat) (i : Item),
    s.coreLive c = true → (s.core c).item = none → s.candidate c = some (n, i) → Answers (.dispatch c) s fun t =>
      (∀ r, t.reg c r = if r = 2 then 0xF0010000#64 else 0) ∧ (t.core c).pc = i.d.pc ∧ (t.core c).item = some n ∧
      (t.core c).carg = i.d.arg ∧ (t.core c).cdead = i.d.deadline ∧ (t.core c).ctag = i.d.tag ∧ (t.core c).prio = i.d.prio ∧
      (t.core c).cwid = s.wdx.handle n ∧ (t.core c).xm = false ∧ (t.core c).sat = false ∧ (t.core c).cvec = 0 ∧
      (t.core c).dcache = [] ∧ (t.core c).lm = (s.core c).lm ∧ ∀ a, t.byte a = s.byte a

/-- R62, R64, R73–R76: TSAMP reads Meridian time, which it also puts into CTIME, the cycle counter or the phase, of which the second of
a pair reads the snapshot that the first took; QMUL and QMAC round the
product half up, saturate to 32 bits or with L to 64 and set SAT; with K they raise LOOPONLY on a core; LUTI interpolates over the
table that its header describes and raises LUTBAD for a header that breaks its rules; SOLVE of a readable descriptor for a TRI in
service with fewer than four batches queues it and returns its ticket, which the next batch's exceeds by 1 modulo 2^16; with
four queued it returns BUSY. -/
def Obligations.CellInstructions : Prop :=
  (∀ (s : State) (c : CoreId) (rd ra rb : Reg) (sh : BitVec 5) (l : Bool), s.ready c = true →
    let u := s.fetched c
    let now := u.ns + u.mer.sec % 2 ^ 32 * 2 ^ 32
    let p := ((s.reg c ra).setWidth 32).toInt * ((s.reg c rb).setWidth 32).toInt
    let r := if sh = 0 then p else (p + 2 ^ (sh.toNat - 1)) / 2 ^ sh.toNat
    let lim : Int := if l then 2 ^ 63 else 2 ^ 31
    let clampL (x : Int) : Int := max (-lim) (min x (lim - 1))
    let acc := (s.reg c rd).toInt
    Answers (.tsamp c rd 0) s (fun t => t.core c = ((u.updCore c fun x => { x with ctime := now }).put c rd (BitVec.ofNat 64 now)).core c) ∧
    ((u.core c).tsnap = none →
      Answers (.tsamp c rd 1) s (fun t => (u.updCore c fun x => { x with tsnap := some (2, u.mer.cycle, u.phaseNs) }).wrote t c rd
        (BitVec.ofNat 64 u.mer.cycle) false) ∧
      Answers (.tsamp c rd 2) s (fun t => (u.updCore c fun x => { x with tsnap := some (1, u.mer.cycle, u.phaseNs) }).wrote t c rd
        (BitVec.ofNat 64 u.phaseNs) false)) ∧
    (∀ k cy ns, (u.core c).tsnap = some (k, cy, ns) →
      (k = 1 → Answers (.tsamp c rd 1) s fun t => (u.updCore c fun x => { x with tsnap := none }).wrote t c rd (BitVec.ofNat 64 cy) false) ∧
      (k = 2 → Answers (.tsamp c rd 2) s fun t => (u.updCore c fun x => { x with tsnap := none }).wrote t c rd (BitVec.ofNat 64 ns) false)) ∧
    Answers (.qmul c rd ra rb sh l false) s (fun t => u.wrote t c rd (BitVec.ofInt 64 (clampL r)) (decide (clampL r ≠ r))) ∧
    Answers (.qmac c rd ra rb sh l false) s (fun t => u.wrote t c rd (BitVec.ofInt 64 (clampL (acc + r))) (decide (clampL (acc + r) ≠ acc + r))) ∧
    (s.hasHandler c → Answers (.qmul c rd ra rb sh l true) s (fun t => u.trapped t c { code := 0x12, tcode := 2 }) ∧
      Answers (.qmac c rd ra rb sh l true) s (fun t => u.trapped t c { code := 0x12, tcode := 2 })) ∧
    (∀ t1 x0 h, readWords c [(s.reg c ra).toNat, (s.reg c ra).toNat + 4] u = (t1, .inr [x0, h]) →
      let n := fld h 8 8 + 1
      let e := fld h 0 5
      (n = 1 ∨ fld h 16 16 ≠ 0 ∨ fld h 5 3 ≠ 0 → s.hasHandler c → Answers (.luti c rd ra rb) s fun t =>
        t1.trapped t c { code := 0x13, tcode := 1, bada := some (s.reg c ra).toNat }) ∧
      (2 ≤ n → fld h 16 16 = 0 → fld h 5 3 = 0 →
        let d := ((s.reg c rb).setWidth 32).toInt - sxt 32 x0
        ∀ t2 y0 y1, 0 ≤ d → d < (n - 1) * 2 ^ e → d % 2 ^ e ≠ 0 →
          readWords c [(s.reg c ra).toNat + 8 + 4 * (d / 2 ^ e).toNat, (s.reg c ra).toNat + 8 + 4 * ((d / 2 ^ e).toNat + 1)] t1 = (t2, .inr [y0, y1]) →
          Answers (.luti c rd ra rb) s fun t => t2.wrote t c rd
            (BitVec.ofInt 64 (sxt 32 y0 + ((sxt 32 y1 - sxt 32 y0) * (d % 2 ^ e) + 2 ^ (e - 1)) / 2 ^ e)) false))) ∧
  (∀ (s : State) (c : CoreId) (rd ra rb : Reg) (t1 : State) (l : List Byte), s.ready c = true →
    let u := s.fetched c
    let d := (s.reg c rb).toNat
    let a := (s.reg c ra).toNat
    1 ≤ d → u.sheetFitted d = true → d < 0x0C → u.cellCheck a 32 true = none → u.load c a 32 0 = (t1, some l) →
    t1.inService d = true → t1.sys.mode ≠ .shutdown →
      ((t1.triOf d).queue.length < 4 → Answers (.solve c rd ra rb) s fun t =>
        (t.triOf d).queue = (t1.triOf d).queue ++ [{ ticket := (t1.triOf d).ticket, addr := a }] ∧
        (t.triOf d).ticket = ((t1.triOf d).ticket + 1) % 65536 ∧ t.reg c rd = (if rd = 0 then 0 else BitVec.ofNat 64 (t1.triOf d).ticket) ∧
        (t.core c).pc = ((t1.core c).pc + 4) % 2 ^ 64) ∧
      (4 ≤ (t1.triOf d).queue.length → Answers (.solve c rd ra rb) s fun t => t1.wrote t c rd (refusal 1) false))

/-! ### Work Dispatcher -/

/-- R92, R94, R95, R97, R99, on a hub that is live: at a tick whose expiries have not been taken every delay-list entry that is
due, once there is room at its priority, has become READY; the first READY item that a station may take and no free hub
core could moves to that station and nothing else changes; a held event that WDX can accept leaves the queue of held
events and its entry has an item; a pending firing is queued with its count. -/
def Obligations.DispatcherMoves : Prop :=
  ∀ (s : State), s.blockLive 0 = true →
    (Answers .delayExpiry s fun t => { t with wdx := s.wdx } = s ∧ t.wdx.tickDone = max s.wdx.tickDone s.wdx.ticks ∧
      (s.wdx.ticks ≤ s.wdx.tickDone → t = s) ∧
      ∀ n i, s.wdx.tickDone < s.wdx.ticks →
        (s.wdx.items.filter fun x => x.2.st.isDelayed && decide (x.2.tick ≤ s.wdx.ticks)) = [(n, i)] → s.prioFull i.d.prio = false →
        { t.wdx with tickDone := s.wdx.tickDone } = (s.arrive n i.d i.evt).wdx) ∧
    (let next := firstItem (s.wdx.items.filter fun x => x.2.st == .ready && !s.hubTakes x.2.d && (s.stationFor x.2.d).isSome);
      Answers .stationMove s fun t => { t with wdx := s.wdx } = s ∧ (next = none → t = s) ∧
        ∀ n i d, next = some (n, i) → s.stationFor i.d = some d →
          (∀ j, (s.wdx.slot n).item = some j → (t.wdx.slot n).item = some { j with st := .station d }) ∧
          ∀ m, m ≠ n → t.wdx.slot m = s.wdx.slot m) ∧
    (Answers .heldEventAccept s fun t => (∀ a, t.byte a = s.byte a) ∧
      (s.coreList.all (fun c => (s.core c).stall.isNone) = true →
        (∀ c r, t.reg c r = s.reg c r) ∧ (s.wdx.held = [] → t = s) ∧
        ∀ h d n, s.wdx.held.head? = some h → s.evKind h.entry = 1 → s.template h.entry = some d → s.listFull d.prio = false →
          s.wdx.freeSlot = some n → t.wdx.held = s.wdx.held.tail ∧ (t.wdx.slot n).item.isSome = true)) ∧
    (∀ e, Answers (.pendQueue e) s fun t => (∀ a, t.byte a = s.byte a) ∧ t.cores = s.cores ∧ (s.evKind e ≠ 1 → t = s) ∧
      ((∀ w k, s.wdx.pendOf e ≠ .waiting w k) → t = s) ∧
      ∀ w k d n, s.wdx.pendOf e = .waiting w k → s.evKind e = 1 → s.template e = some d →
        (s.listFull d.prio = true → t = s) ∧
        (s.listFull d.prio = false → s.wdx.freeSlot = some n → t.wdx.pendOf e = .queued n ∧
          ((t.wdx.slot n).item.map fun i => (i.d.tag, i.evt)) = some (w % 2 ^ 24 + min k 255 * 2 ^ 24, some e) ∧ { t with wdx := s.wdx } = s))

/-- R90, R97, R102, R104: on a live hub a write of KIND 0 or 1 to WDX_EVT_CTLn stores it, and 2 or 3 also discards what the entry
holds or pends; a cancellation of a free handle answers NOT_FOUND and of a running item RUNNING, both without other
effect, and of a queued or delayed one it frees the slot; a query reports the item's state to its master; a WDX_CRSIZE
that R102 allows empties the ring, and another is ignored. -/
def Obligations.DispatcherRegisters : Prop :=
  ∀ (s : State) (e : Nat) (v : W32) (h : BitVec 16) (c : CoreId), s.blockLive 0 = true →
    (e < 512 → s.coreList.all (fun c => (s.core c).stall.isNone) = true → Answers (.evtCtlWrite e v) s fun t =>
      t.evKind e = v.toNat % 4 ∧ (2 ≤ v.toNat % 4 → t.wdx.held.all (fun x => x.entry != e) = true ∧
        ∀ w k, t.wdx.pendOf e ≠ .waiting w k)) ∧
    (s.wdx.query h.toNat % 16 = 0 → Answers (.cancel .ext h) s fun t => t = { s with wdx := { s.wdx with extCancel := 2 } }) ∧
    (s.wdx.query h.toNat % 16 = 4 → Answers (.cancel (.core c) h) s fun t => s.onlyCore t c { s.core c with cancelRes := 3 }) ∧
    (1 ≤ s.wdx.query h.toNat % 16 → s.wdx.query h.toNat % 16 ≤ 3 → s.coreList.all (fun c => (s.core c).stall.isNone) = true →
      Answers (.cancel .ext h) s fun t => t.wdx.extCancel = 1 ∧ (t.wdx.slot (h.toNat % 4096)).item = none ∧
        (t.wdx.slot (h.toNat % 4096)).gen = ((s.wdx.slot (h.toNat % 4096)).gen + 1) % 16) ∧
    Answers (.hquery .ext h) s (fun t => t = { s with wdx := { s.wdx with extHandle := h.toNat, extRes := s.wdx.query h.toNat } }) ∧
    Answers (.hquery (.core c) h) s (fun t => s.onlyCore t c { s.core c with hqHandle := h.toNat, hqRes := s.wdx.query h.toNat }) ∧
    (4 ≤ v.toNat % 16 → v.toNat % 16 ≤ 12 → s.rf (rg 0 1 0x20) 0 32 * 256 + 32 * 2 ^ (v.toNat % 16) ≤ 0x02000000 →
      Answers (.crsizeWrite v) s fun t => t.rf (rg 0 1 0x24) 0 4 = v.toNat % 16 ∧ t.wdx.crHead = 0 ∧ t.rf (rg 0 1 0x2C) 0 12 = 0 ∧
        { t with regs := s.regs, wdx := s.wdx } = s) ∧
    ((v.toNat % 16 < 4 ∨ 12 < v.toNat % 16 ∨ 0x02000000 < s.rf (rg 0 1 0x20) 0 32 * 256 + 32 * 2 ^ (v.toNat % 16)) →
      Answers (.crsizeWrite v) s fun t => t = s)

/-! ### Traverse -/

/-- R32, R70, R107, R110, R112: each Traverse command whose value lies in its range, to an axis of a die in service, unlocked
and in a cell mode that takes it, is accepted: it waits for the datum with its code and value, and the result is 0 in rd
(ENGW) or CMDST (register path). Nothing else changes.
R70, R110, R112, R334: a Traverse command by the registers whose value lies outside its range ends with RANGE, an ENABLE, a MODE
2–6, a HOME_START or a PATH_COMMIT to an axis of an arm that is not in RUN with LOCKED; CMDST takes the result and the axis
gets no command. The ranges stated here are those of the codes whose range the table gives as one interval. -/
def Obligations.TraverseCommands : Prop :=
  (∀ (s : State) (d n : Nat) (c : CoreId) (rd ra rb : Reg),
    d ≤ 6 → n < trvAxes d → s.axisLocked d n = false → s.modeEnable = true → s.modeMotion = true →
    let u := s.fetched c
    let sel := d + n * 256
    let v := s.rd (trvReg d n 8) ++ s.rd (trvReg d n 4)
    ∀ x ∈ [((fun p => .enable p : TrvSrc → Instr), 0x01), (.disable, 0x02), (.stop, 0x03), (.qstop, 0x04), (.clearFault, 0x05),
        (.mode, 0x06), (.xtarget, 0x10), (.vstart, 0x11), (.a1, 0x12), (.v1, 0x13), (.amax, 0x14), (.vmax, 0x15), (.dmax, 0x16),
        (.d1, 0x17), (.vstop, 0x18), (.qdec, 0x19), (.vjog, 0x1A), (.setpos, 0x1B), (.swlimLo, 0x1C), (.swlimHi, 0x1D),
        (.axisCfg, 0x20), (.limCfg, 0x21), (.debounce, 0x22), (.chatterWin, 0x23), (.stallCfg, 0x24), (.motor, 0x25),
        (.stallflow, 0x26), (.encCpr, 0x27), (.pathCommit, 0x28), (.gearMaster, 0x30), (.gearRatio, 0x31), (.gearArmpos, 0x32),
        (.gearArm, 0x33), (.gearRamp, 0x34), (.gearDisarm, 0x35), (.homeCfg, 0x40), (.homeVsearch, 0x41), (.homeVlatch, 0x42),
        (.homeOffset, 0x43), (.homeBackoff, 0x44), (.homeMaxdist, 0x45), (.homeStart, 0x46)],
      (s.blockLive d = true → s.inService d = true → s.trvRange d n x.2 v = true → Answers (x.1 (.reg d n)) s fun t =>
          t.trvAx d n = { s.trvAx d n with cmds := (s.trvAx d n).cmds ++ [⟨x.2, v, s.mer.phase, false⟩], cmdSt := 0 } ∧
          (∀ e m, 32 * e + m ≠ 32 * d + n → t.trvAx e m = s.trvAx e m) ∧ { t with trv := s.trv } = s) ∧
      (s.ready c = true → (s.reg c rb).toNat = sel → u.inService d = true → u.trvRange d n x.2 (s.reg c ra) = true →
        Answers (x.1 (.engw c (d == 0) rd ra rb)) s fun t =>
          t.trvAx d n = { s.trvAx d n with cmds := (s.trvAx d n).cmds ++ [⟨x.2, s.reg c ra, s.mer.phase, false⟩] } ∧
          (∀ r, t.reg c r = if r = rd then 0 else s.reg c r) ∧ (t.core c).pc = ((u.core c).pc + 4) % 2 ^ 64 ∧
          (∀ a, t.byte a = u.byte a) ∧ { t with trv := u.trv, cores := u.cores } = u)) ∧
  (∀ (s : State) (d n : Nat), d ≤ 6 → n < trvAxes d → s.blockLive d = true →
    let v := s.rd (trvReg d n 8) ++ s.rd (trvReg d n 4)
    let ends (i : TrvSrc → Instr) (code : Nat) : Prop := Answers (i (.reg d n)) s fun t =>
      t.trvAx d n = { s.trvAx d n with cmdSt := code } ∧ { t with trv := s.trv } = s
    (v.toNat ≠ 0 → ends .enable 6 ∧ ends .disable 6 ∧ ends .stop 6 ∧ ends .qstop 6 ∧ ends .clearFault 6 ∧ ends .gearDisarm 6 ∧ ends .homeStart 6) ∧
    (v.toNat = 0 ∨ 6 < v.toNat → ends .mode 6) ∧
    (2 ^ 32 ≤ v.toNat → ends .vstart 6 ∧ ends .v1 6 ∧ ends .vstop 6) ∧
    (v.toNat = 0 ∨ 2 ^ 32 ≤ v.toNat → ends .a1 6 ∧ ends .amax 6 ∧ ends .vmax 6 ∧ ends .dmax 6 ∧ ends .d1 6 ∧ ends .qdec 6 ∧
      ends .homeVsearch 6 ∧ ends .homeVlatch 6) ∧
    (v.toInt < -(2 ^ 31) ∨ 2 ^ 31 ≤ v.toInt → ends .vjog 6) ∧
    (10000 < v.toNat → ends .debounce 6) ∧ (v.toNat = 0 ∨ 1000 < v.toNat → ends .chatterWin 6) ∧
    (v.toNat = 0 ∨ 2 ^ 24 < v.toNat → ends .encCpr 6) ∧ (2 ^ 13 ≤ v.toNat → ends .stallflow 6) ∧
    (s.axisLocked d n = true → (v.toNat = 0 → ends .enable 7 ∧ ends .homeStart 7) ∧ (2 ≤ v.toNat → v.toNat ≤ 6 → ends .mode 7) ∧
      (v.toNat % 32 = 0 → (sramDie v.toNat).any s.dieFitted = true → ends .pathCommit 7)))

/-- R69, R72, R111: the ENGR reads of Traverse by a ready core that names a fitted die's axis return the axis's state without
changing it; R106–R108, R136: at a datum ENABLE takes OFF to HOLD, STOP and QSTOP take a moving axis to STOPPING, DISABLE takes it to
DISABLING, and CLEAR_FAULT takes a standing axis in FAULT to HOLD. -/
def Obligations.TraverseReadsAndStates : Prop :=
  (∀ (s : State) (c : CoreId) (rd rb : Reg) (d n : Nat) (k : BitVec 7), s.ready c = true → n < trvAxes d → s.dieFitted d = true →
    (s.reg c rb).toNat = d + n * 256 →
    let u := s.fetched c
    let a := s.trvAx d n
    let gives (i : Instr) (v : W64) : Prop := Answers i s fun t => u.wrote t c rd v false
    gives (.trvReadStat c (d == 0) rd rb) (BitVec.ofNat 64 (u.trvStat d n)) ∧
    gives (.trvReadFlag c (d == 0) rd rb) (BitVec.ofNat 64 (u.trvFlag d n)) ∧
    gives (.trvReadPosition c (d == 0) rd rb) (BitVec.ofInt 64 a.p) ∧
    gives (.trvReadSpeed c (d == 0) rd rb) (BitVec.ofInt 64 (narrow32 (Int.tdiv a.v 65536))) ∧
    gives (.trvReadAccel c (d == 0) rd rb) (BitVec.ofInt 64 (narrow32 a.acc)) ∧
    (∀ x : Int, -(2 ^ 31) ≤ x → x < 2 ^ 31 → narrow32 x = x) ∧
    gives (.trvReadXtarget c (d == 0) rd rb) (a.val 0x10) ∧
    gives (.trvReadMaster c (d == 0) rd rb) (BitVec.ofInt 64 a.m) ∧
    gives (.trvReadLoad c (d == 0) rd rb) (BitVec.ofNat 64 (u.trvLoad d n)) ∧
    gives (.trvReadLatched c (d == 0) rd rb) (BitVec.ofInt 64 a.latched) ∧
    gives (.trvReadPlan c (d == 0) rd rb) (BitVec.ofNat 64 (a.planSeq + ((a.plan.map fun p => p.knots.length - p.next).getD 0) * 65536)) ∧
    gives (.trvReadGrem c (d == 0) rd rb) (BitVec.ofNat 64 a.grem) ∧
    (trvCodes.contains k.toNat = true → 0x10 ≤ k.toNat → k.toNat ≤ 0x45 → k.toNat ≠ 0x35 →
      gives (.trvReadStored c (d == 0) rd rb k) (a.val k.toNat))) ∧
  (∀ (w : TrvW) (e : TrvEnv), e.draining = false → e.locked = false → e.enOk = true →
    let does (code : Nat) : TrvAx := (w.cmd e ⟨code, 0, 0, false⟩).ax
    (w.ax.st = .off → (does 1).st = .hold ∧ (does 1).ena = true ∧ (does 1).v = 0 ∧ (does 1).p = w.ax.p) ∧
    (w.ax.st.moving = true → does 3 = { w.ax with st := .stopping, quick := false, home := none } ∧
      does 4 = { w.ax with st := .stopping, quick := true, home := none } ∧
      does 2 = { w.ax with st := .disabling, pendEn := false, home := none }) ∧
    (w.ax.st = .fault → w.ax.v = 0 → (does 5).st = .hold ∧ (does 5).fcause = 0 ∧ (does 5).p = w.ax.p))

/-- R117, R134, R138, R140: the events at Traverse's inputs. A jog whose VJOG is 100 ms old times out; a debounced input takes the
sampled level once it has differed at all the datums of its count; the stall bit is set, with FLAG.STALL for action 1, when the
threshold has been met often enough; IDX_ARM arms an index capture, an armed index edge captures the count and disarms;
one step of the quadrature sequence counts up or down and two at once set ERR. -/
def Obligations.TraverseInputEvents : Prop :=
  ∀ (s : State) (d n : Nat) (k : Fin 16), d ≤ 6 → n < trvAxes d →
    let a := s.trvAx d n
    let x := s.encOf k.val
    (s.blockLive d = true →
      (a.st = .jog → jogLimit s.mer.cycleLen ≤ a.jogAge + 1 → Answers (.jogTimeout d n) s fun t => t = s.setTrvAx d n { a with jogOut := true }) ∧
      (a.limp.seen = true → a.limp.last ≠ a.limp.level → ceilDiv (a.num' 0x22 * 1000) s.mer.cycleLen ≤ a.limp.diff →
        Answers (.debounceExpiry d n 0) s fun t => t = s.setTrvAx d n { a with limp := { a.limp with level := a.limp.last, diff := 0 } }) ∧
      (a.limn.seen = true → a.limn.last ≠ a.limn.level → ceilDiv (a.num' 0x22 * 1000) s.mer.cycleLen ≤ a.limn.diff →
        Answers (.debounceExpiry d n 1) s fun t => t = s.setTrvAx d n { a with limn := { a.limn with level := a.limn.last, diff := 0 } }) ∧
      (a.ref.seen = true → a.ref.last ≠ a.ref.level → ceilDiv (a.num' 0x22 * 1000) s.mer.cycleLen ≤ a.ref.diff →
        Answers (.debounceExpiry d n 2) s fun t => t = s.setTrvAx d n { a with ref := { a.ref with level := a.ref.last, diff := 0 } }) ∧
      (fld (a.num' 0x24) 24 2 ≠ 0 → fld (a.num' 0x24) 16 8 ≤ a.stallN → sxt 16 (fld (a.num' 0x24) 0 16) ≤ a.load → a.stall = false →
        Answers (.stall d n) s fun t => (t.trvAx d n).stall = true ∧ { t.trvAx d n with stall := false } = a ∧
          { t with trv := s.trv, regs := s.regs } = s ∧
          (fld (a.num' 0x24) 24 2 = 1 → t.rb (trvReg d n 0x14) 6 = true))) ∧
    (s.blockLive 0 = true →
      Answers (.idxArm k) s (fun t => t.rb (encCtl k.val) 3 = true ∧ { t with regs := s.regs } = s) ∧
      (s.rb (encCtl k.val) 3 = true → Answers (.indexCapture k) s fun t =>
        t.encOf k.val = { x with idx := x.count, idxNew := true } ∧ t.rb (encCtl k.val) 3 = false ∧ { t with regs := s.regs, enc := s.enc } = s) ∧
      (s.rb (encCtl k.val) 2 = false → x.a = false → x.b = false →
        Answers (.encoderTransition k true false) s (fun t => t.encOf k.val = { x with a := true, count := x.count + 1 } ∧ { t with enc := s.enc } = s) ∧
        Answers (.encoderTransition k false true) s (fun t => t.encOf k.val = { x with b := true, count := x.count - 1 } ∧ { t with enc := s.enc } = s) ∧
        Answers (.encoderTransition k true true) s (fun t => t.encOf k.val = { x with a := true, b := true } ∧ t.rb (encCtl k.val) 4 = true)))

/-! ### Servo Loop Engine -/

/-- R32, R70, R163, R165: each SLE command with a value in its range, to an axis of a sheet in service, is accepted by either path and
waits for the datum; a write of SLE_AXn_BANK.TARGET stores TARGET and issues BANK with it. Out of range it ends with RANGE. R69, R72, R164: the ENGR reads of the SLE by a ready core that names an axis of a fitted sheet return the axis's state, each in
its own code, and change nothing but rd. -/
def Obligations.ServoCommandsAndReads : Prop :=
  (∀ (s : State) (d n : Nat) (c : CoreId) (rd ra rb : Reg) (bank : Bool), 1 ≤ d → d ≤ 6 → n < 24 →
    let u := s.fetched c
    let v := s.rd (sleReg d n 8) ++ s.rd (sleReg d n 4)
    (∀ x ∈ [((fun p => .load p : EngSrc → Instr), 0x01), (.free, 0x02), (.gtab, 0x03), (.coef, 0x04), (fun p => .bank (.cmd p), 0x05),
        (.lmode, 0x06), (.lmcfg, 0x07), (.inbind, 0x08), (.outbind, 0x09), (.axcfg, 0x0A), (.hocfg, 0x0B)],
      (s.blockLive d = true → s.inService d = true → sleRange x.2 v.toNat = true → Answers (x.1 (.reg d n)) s fun t =>
        (t.sleOf d).cmds = (s.sleOf d).cmds ++ [⟨n, x.2, v, s.mer.phase⟩] ∧ (t.sleAx d n).cmdSt = 0 ∧
        (∀ e, e ≠ d → t.sleOf e = s.sleOf e) ∧ { t with sle := s.sle } = s) ∧
      (s.blockLive d = true → sleRange x.2 v.toNat = false → Answers (x.1 (.reg d n)) s fun t =>
        (t.sleOf d).cmds = (s.sleOf d).cmds ∧ (t.sleAx d n).cmdSt = 6 ∧ { t with sle := s.sle } = s) ∧
      (s.ready c = true → (s.reg c rb).toNat = d + n * 256 → u.inService d = true → sleRange x.2 (s.reg c ra).toNat = true →
        Answers (x.1 (.engw c rd ra rb)) s fun t =>
          t.sleOf d = { s.sleOf d with cmds := (s.sleOf d).cmds ++ [⟨n, x.2, s.reg c ra, s.mer.phase⟩] } ∧
          (∀ r, t.reg c r = if r = rd then 0 else s.reg c r) ∧ (t.core c).pc = ((u.core c).pc + 4) % 2 ^ 64 ∧
          (∀ a, t.byte a = u.byte a) ∧ { t with sle := u.sle, cores := u.cores } = u)) ∧
    (s.blockLive d = true → s.inService d = true → Answers (.bank (.target d n bank)) s fun t =>
      (t.sleOf d).cmds = (s.sleOf d).cmds ++ [⟨n, 5, BitVec.ofNat 64 bank.toNat, s.mer.phase⟩] ∧
      t.rf (sleReg d n 0x18) 0 1 = bank.toNat ∧ { t with sle := s.sle, regs := s.regs } = s)) ∧
  (∀ (s : State) (c : CoreId) (rd rb : Reg) (d n : Nat) (i4 : Fin 4) (i8 : Fin 8) (i32 : Fin 32) (i5 : Fin 5) (b : Bool),
    s.ready c = true → n < 24 → s.sheetFitted d = true → (s.reg c rb).toNat = d + n * 256 →
    let u := s.fetched c
    let a := s.sleAx d n
    let gives (i : Instr) (v : W64) : Prop := Answers i s fun t => u.wrote t c rd v false
    gives (.sleReadStat c rd rb) (BitVec.ofNat 64 (u.sleStat d n)) ∧ gives (.sleReadFlag c rd rb) (BitVec.ofNat 64 (u.sleFlagReg d n)) ∧
    gives (.sleReadInteg c rd rb i4) (BitVec.ofInt 64 (a.loop.integ i4.val)) ∧ gives (.sleReadRmp c rd rb) (BitVec.ofInt 64 a.loop.rmp) ∧
    gives (.sleReadPred c rd rb) (BitVec.ofInt 64 a.loop.pred) ∧
    gives (.sleReadPlaus c rd rb) (BitVec.ofNat 64 (a.loop.pcount + a.loop.pvalid.toNat * 256)) ∧
    gives (.sleReadOutput c rd rb i4) (a.lastOut i4.val) ∧ gives (.sleReadInput c rd rb i8) (a.input i8.val) ∧
    gives (.sleReadAge c rd rb i8) (BitVec.ofNat 64 (a.inputAge i8.val)) ∧
    gives (.sleReadCoefA c rd rb i32) (BitVec.ofNat 64 (a.slot false i32.val)) ∧
    gives (.sleReadCoefB c rd rb i32) (BitVec.ofNat 64 (a.slot true i32.val)) ∧
    gives (.sleReadCfg c rd rb b) (if b then a.hocfg else a.axcfg) ∧
    gives (.sleReadLmcfg c rd rb b i4) (BitVec.ofNat 64 (a.entryOf b i4.val)) ∧
    gives (.sleReadInbind c rd rb i5) (BitVec.ofNat 64 (a.inBind (3 + i5.val))) ∧
    gives (.sleReadOutbind c rd rb i4) (BitVec.ofNat 64 (a.outBind i4.val)))

/-- R33, R145, R148, R153, R154: the sample of a live sheet, once its start instant is reached (the arrival of the last feedback, or the
latest start offset where one is missing), marks the cycle sampled, late exactly if it starts at that offset; an axis in DISABLING whose count has reached 0 is OFF
after the sample; a load whose record passes holds its program under its number, and one that fails changes no program. -/
def Obligations.ServoSampleAndLoad : Prop :=
  ∀ (s : State) (d n start : Nat) (order : List Nat), 1 ≤ d → s.blockLive d = true →
    let u := s.runTo start
    ((s.sleReady d = false → u.sleStart d = u.sleLso d) ∧ u.sleStart d ≤ u.sleLso d ∧
      (s.sleReady d = true → ∀ f ∈ s.sleFeedback d, min (u.sleLso d) (s.flow f).arrNs ≤ u.sleStart d)) ∧
    ((s.sleOf d).sampled = false → u.sleStart d ≤ u.phaseNs → Answers (.sleSample d start order) s fun t =>
      (t.sleOf d).sampled = true ∧ (t.sleOf d).tlast = u.sleStart d ∧ (t.sleOf d).late = decide (u.sleLso d ≤ u.sleStart d)) ∧
    ((s.sleOf d).sampled = false → u.phaseNs < u.sleStart d → Answers (.sleSample d start order) s fun t => t = s) ∧
    (n < 24 → (s.sleAx d n).st = .disabling → (s.sleAx d n).offcnt = 0 → (s.sleOf d).sampled = true → Answers (.offcntExpiry d n) s fun t =>
      t.sleAx d n = { s.sleAx d n with st := .off, shown := { st := .off } } ∧ (∀ a, t.byte a = s.byte a) ∧ ∀ c, t.core c = s.core c) ∧
    (∀ a, (s.sleOf d).loading = some a → Answers (.loadPerformed d) s fun t =>
      let (_, r, i, p, prog) := s.checkLoad d a
      (t.sleOf d).loading = none ∧ (t.sleOf d).result = r ∧ (t.sleOf d).index = i ∧ (t.sleOf d).prog = p ∧
      ∀ q, (t.sleOf d).prog' q = if prog.isSome = true ∧ q = p then prog else (s.sleOf d).prog' q)

/-! ### Triangulation Unit -/

/-- R170, R172, R174, R178–R185, R187, R190, R192: a started item of a batch that is not refused ends in the step of its own kernel with
the status, outputs and flags that the kernel's rule gives, with the τ and the slot's solution that it started with, when its
outputs can be written; one that breaks R174 ends with BADITEM; after the deadline or ABORT a running item ends with the status
of R190 or R192, one that has not started with that status alone. No byte of SRAM changes but the outputs and the 16 status
bytes. -/
def Obligations.TriangulationItems : Prop :=
  ∀ (s : State) (d i sw : Nat) (b : TriBatch), 1 ≤ d → s.blockLive d = true → s.triBatch d = some b → b.refused = false →
    i < b.count → b.status i = 0 →
    let it := (b.started[i]?.map TriStart.item).getD (s.triItem b i)
    let ended (t : State) : Option Nat := (t.triBatch d).map fun y => y.status i
    ∀ x ∈ [(Instr.chol d i, 1), (.ldlt d i, 2), (.lu d i, 3), (.qr d i, 4), (.trsv d i, 5), (.trsm d i, 6), (.refine d i, 7), (.boxqp d i sw, 8)],
      it.kernel = x.2 →
      let status (a : Nat) : Prop := b.items + 64 * i + 48 ≤ a ∧ a < b.items + 64 * i + 64
      let only (t : State) (outs : List (Nat × List Byte)) : Prop :=
        ∀ a, ¬ status a → (∀ o ∈ outs, ¬ (o.1 ≤ a ∧ a < o.1 + o.2.length)) → t.byte a = s.byte a
      (∀ p, b.started[i]? = some p → Answers x.1 s fun t => (∃ y, ended t = some y ∧ y ≠ 0) ∧ (∀ k, t.core k = s.core k) ∧
        (s.readable (b.items + 64 * i) 48 →
          let s1 := (s.readMem (b.items + 64 * i) 48 1).1
          let s2 := (s1.triFetch it).1
          let r : TriRes := if it.kernel ≤ 4 then s2.runFact it p.tau else if it.kernel ≤ 6 then s2.runTrs it p.tau
            else if it.kernel = 7 then s2.runRefine it p.x p.flags else s2.runBox it p.tau p.x p.flags (s.triCut b) sw
          (s.triGood it = false → ended t = some 3 ∧ (t.triOf d).slots = (s.triOf d).slots ∧ only t []) ∧
          (∀ c, s.triGood it = true → s.triCut b = some c → (x.2 ≠ 8 ∨ sw = 0) → ended t = some (c + p.flags) ∧
            (t.triOf d).slots = (s.triOf d).slots ∧ only t []) ∧
          (s.triGood it = true → (s.triCut b = none ∨ (x.2 = 8 ∧ sw ≠ 0)) → (s1.triFetch it).2 = true → (writeOuts r.outs s2).2 = true →
            ended t = some (r.istat + r.flags) ∧ only t r.outs ∧ (r.sol = none → (t.triOf d).slots = (s.triOf d).slots)))) ∧
      (∀ c, b.started[i]? = none → s.triCut b = some c → Answers x.1 s fun t => ended t = some c ∧ (t.triOf d).slots = (s.triOf d).slots ∧
        only t [])

/-- R168, R169, R171: the next batch starts when no event of the last is held; a descriptor with COUNT 0 is refused, a good one
runs with its count, items and deadline. When every item has ended, or the batch was refused, it ends: the queue moves up
and TRI_DONE holds its ticket and class, 0 if every item is OK without a flag, 2 if one is not OK, 3 if it was refused. -/
def Obligations.TriangulationBatches : Prop :=
  ∀ (s : State) (d : Nat) (b : TriBatch) (rest : List TriBatch), 1 ≤ d → s.blockLive d = true → (s.triOf d).queue = b :: rest →
    (b.run = false → s.holds (.tri d) = false → Answers (.batchStart d) s fun t =>
      (t.triOf d).queue.map (fun y => (y.ticket, y.run)) = (b.ticket, true) :: rest.map (fun y => (y.ticket, y.run)) ∧ s.spares t ∧
      (s.readable b.addr 32 →
        let l := s.bytes b.addr 32
        (fld (leAt l 0 4) 0 8 = 0 → (t.triOf d).queue.map (fun y => (y.ticket, y.run, y.refused)) =
          (b.ticket, true, true) :: rest.map fun y => (y.ticket, y.run, y.refused)) ∧
        (1 ≤ fld (leAt l 0 4) 0 8 → fld (leAt l 0 4) 0 8 ≤ 128 → fld (leAt l 0 4) 8 8 = 0 → fld (leAt l 0 4) 26 6 = 0 → leAt l 4 4 = 0 →
          leAt l 22 2 = 0 → leAt l 8 8 % 64 = 0 → s.sramRange (leAt l 8 8) (64 * fld (leAt l 0 4) 0 8) = true →
          (t.triOf d).queue.head?.map (fun y => (y.run, y.refused, y.count, y.items, y.deadline)) =
            some (true, b.refused, fld (leAt l 0 4) 0 8, leAt l 8 8, leAt l 16 6) ∧
          (b.refused = false → b.abortAt = none → b.started = [] → (leAt l 16 6 = 0 ∨ s.mer.cycle < leAt l 16 6) →
            ((t.triOf d).queue.head?.bind fun y => y.started.head?.map TriStart.item) = some (TriItem.ofBytes (s.bytes (leAt l 8 8) 48)))))) ∧
    (b.run = true →
      let ends (cls : Nat) : Prop := Answers (.batchEnd d) s fun t => (t.triOf d).queue = rest ∧ (t.triOf d).doneTicket = b.ticket ∧
        (t.triOf d).doneClass = cls ∧ (t.triOf d).doneValid = true
      let st (i : Nat) : Nat := Table.get (fun _ => 0) b.ended i
      (b.refused = true → ends 3) ∧
      (b.refused = false → (∀ i, i < b.count → st i = 1) → ends 0) ∧
      (b.refused = false → (∀ i, i < b.count → st i ≠ 0) → (∃ i, i < b.count ∧ st i % 256 ≠ 1) → ends 2) ∧
      (b.refused = false → (∃ i, i < b.count ∧ st i = 0) → Answers (.batchEnd d) s fun t => t = s))

/-- R69, R72, R188, R192, R194–R196: ABORT with 0, SLOTCLR of a slot or of all and TAU in its range, to a TRI in service, are accepted by
either path and wait for the datum, where ABORT marks every queued batch, SLOTCLR makes the slot invalid and TAU is in force;
the ENGR reads return TRI's registers. -/
def Obligations.TriangulationCommandsAndReads : Prop :=
  ∀ (s : State) (d k : Nat) (c : CoreId) (rd ra rb : Reg), 1 ≤ d → d ≤ 6 →
    let u := s.fetched c
    let v := (s.rd (triReg d 0x18) ++ s.rd (triReg d 0x14) : W64)
    (∀ x ∈ [((fun p => .abort p : EngSrc → Instr), 1, fun w => w == 0), (.slotclr, 2, fun w => decide (w < 128) || w == 256),
        (.tau, 3, fun w => decide (0x2B800000 ≤ w ∧ w ≤ 0x3F000000))],
      (s.blockLive d = true → s.inService d = true → x.2.2 v.toNat = true → Answers (x.1 (.reg d 0)) s fun t =>
        t.triOf d = { s.triOf d with cmds := (s.triOf d).cmds ++ [(x.2.1, v.toNat, s.mer.phase)], cmdSt := 0 } ∧ { t with tri := s.tri } = s) ∧
      (s.blockLive d = true → s.inService d = true → x.2.2 v.toNat = false → Answers (x.1 (.reg d 0)) s fun t =>
        t.triOf d = { s.triOf d with cmdSt := 6 } ∧ { t with tri := s.tri } = s) ∧
      (s.ready c = true → (s.reg c rb).toNat = d → u.inService d = true → x.2.2 (s.reg c ra).toNat = true → Answers (x.1 (.engw c rd ra rb)) s fun t =>
        t.triOf d = { s.triOf d with cmds := (s.triOf d).cmds ++ [(x.2.1, (s.reg c ra).toNat, s.mer.phase)] } ∧
        (∀ r, t.reg c r = if r = rd then 0 else s.reg c r) ∧ { t with tri := u.tri, cores := u.cores } = u)) ∧
    ((s.triApply d (1, 0, k)).triOf d).queue = (s.triOf d).queue.map (fun b => if b.abortAt.isNone then { b with abortAt := some s.mer.cycle } else b) ∧
    (k < 128 → (((s.triApply d (2, k, 0)).triOf d).slot k).valid = false) ∧ ((s.triApply d (3, k, 0)).triOf d).tau = k ∧
    (s.ready c = true → s.sheetFitted d = true → (s.reg c rb).toNat = d →
      let gives (i : Instr) (w : Option W64) : Prop := ∀ y, w = some y → Answers i s fun t => u.wrote t c rd y false
      gives (.triReadStat c rd rb) (u.triRead d 0) ∧ gives (.triReadDone c rd rb) (u.triRead d 1) ∧
      gives (.triReadTau c rd rb) (some (BitVec.ofNat 64 (s.triOf d).tau)) ∧ gives (.triReadCnt c rd rb) (u.triRead d 3) ∧
      gives (.triReadMiss c rd rb) (u.triRead d 4) ∧ ∀ j, j < 5 → (u.triRead d j).isSome = true)

/-! ### Contour -/

/-- R197, R198, R200, R202: the processor's result of a cycle, its own evaluation but for the arms named as deviating, is taken once
and enters if it comes before the decision and by 30 µs; the decision, formed once a cycle at 40 µs, leaves no arm with an image
below the level that either channel demands, whatever the state before; with a clock deviation every arm is in STO and every
output off; after a lockstep halt that stood at the datum, or with too many results missing, every arm is in SS1 or STO. -/
def Obligations.ContourDecision : Prop :=
  ∀ (s : State) (dev : List ProcArm), s.ctmUp = true →
    (s.ctm.wrst = false → s.ctm.procHeld = false → s.ctm.halted = false → s.ctm.proc = none → Answers (.processorResult dev) s fun t =>
      t = { s with ctm := { s.ctm with proc := some (s.procResult dev), procUsed := !s.ctm.decided && decide (s.mer.phase ≤ 30000 * unitNs) } } ∧
      ∀ x, x ∈ s.ctm.procVector s.armList → ((dev.find? fun y => y.arm == x.arm).getD x) ∈ s.procResult dev) ∧
    (s.ctm.decided = false → 40000 * unitNs ≤ s.mer.phase → Answers .decision s fun t => t.ctm.decided = true ∧ s.spares t ∧
      ∀ n i g, n ∈ s.armList → (s.ctm.arm n).img = some i → s.ctm.cell = some g →
        let a := s.ctm.arm n
        let b := t.ctm.arm n
        (a.view.lvl ≤ 3 → a.view.lvl ≤ sstLvl b.sst) ∧
        (∀ l x, s.ctm.procUsed = true → s.ctm.proc = some l → (l.find? fun y => y.arm == n + 1) = some x → a.view.lvl ≤ 3 →
          min x.demand 3 ≤ sstLvl b.sst) ∧
        (s.ctm.clkFail = true → a.sst ≤ 4 → b.sst = 4 ∧ ∀ k, k < 16 → (t.ctm.out k).cmd = false) ∧
        ((s.ctm.lostHalt = true ∨ s.ctm.procUsed = false ∧ g.pmiss ≤ min 31 (s.ctm.missing + 1)) → a.sst ≤ 4 → b.sst = 1 ∨ b.sst = 4))

/-- R197, R202, R206, R212, R223: a stop that has not reached standstill within TSS1 becomes a latched STO with cause 17, and the
outputs that its arm permits switch off; an SSM demand that AUTORESUME covers ends with the decision after RESUMECYC clear datums,
the arm in RUN and nothing latched, where neither channel nor the Contour die itself demands anything of the arm; a lost reference
clock puts every arm with an image into STO and switches every output off; a lockstep mismatch halts the processor channel and
keeps what it has delivered. -/
def Obligations.ContourStops : Prop :=
  ∀ (s : State) (n : Nat) (i : ArmImg), s.ctmUp = true → (s.ctm.arm n).img = some i →
    let a := s.ctm.arm n
    ((a.sst = 1 ∨ a.sst = 2) → a.k0 + i.tss1 * 1000000 ≤ s.upNs → Answers (.tss1Expiry (n + 1)) s fun t =>
      (t.ctm.arm n).sst = 4 ∧ (t.ctm.arm n).latch = true ∧ (t.ctm.arm n).cause = 17 ∧
      (∀ m, m ≠ n → (t.ctm.arm m).sst = (s.ctm.arm m).sst) ∧ s.spares t ∧
      ∀ k, k < 16 → let r := s.ctm.soutRec (k / 2)
        (r.src = 1 ∨ r.src = 2) → n < 18 → bitN r.arms n = true → (t.ctm.out k).cmd = false) ∧
    (∀ g, n ∈ s.armList → s.ctm.cell = some g → s.ctm.decided = false → 40000 * unitNs ≤ s.mer.phase → a.sst ≠ 0 → a.ssmOnly = true →
      a.amode = 3 → i.auto = true → a.view.clear = true → i.resumeCyc ≤ 255 → i.resumeCyc ≤ a.clear + 1 →
      a.view.lvl = 0 → a.view.others = false → s.ctm.procUsed = false → s.ctm.lostHalt = false → min 31 (s.ctm.missing + 1) < g.pmiss →
      s.ctm.clkFail = false → a.imgBad = false → s.ctm.cellBad = false → s.ctm.wrst = false → a.raised.lvl = 0 →
      Answers (.ssmAutoresume (n + 1)) s fun t => (t.ctm.arm n).sst = 0 ∧ (t.ctm.arm n).latch = false ∧ (t.ctm.arm n).cause = 0 ∧
        t.ctm.decided = true ∧ s.spares t) ∧
    (s.ctm.clkFail = false → Answers .clkFail s fun t => t.ctm.clkFail = true ∧ (n ∈ s.armList → (t.ctm.arm n).sst = 4) ∧
      (∀ k, k < 16 → (t.ctm.out k).cmd = false) ∧ s.spares t) ∧
    (s.ctm.wrst = false → s.ctm.halted = false → Answers .lockstep s fun t => t.ctm.halted = true ∧ t.ctm.proc = s.ctm.proc ∧
      t.ctm.procUsed = s.ctm.procUsed ∧ t.ctm.lastDiag = 15 ∧ (∀ m, t.ctm.arm m = s.ctm.arm m) ∧ s.spares t)

/-- R221, R222: a pin takes its new level and no other changes; a sample takes the level that two consecutive samples show; the
sample at which a disagreement of a pair has lasted longer than DISC raises IN_DISC; a test pulse, at its scheduled sample, masks
exactly the high inputs that its source feeds; at the end of a mask that has not seen the pulse, or whose input has not returned
high, IN_TEST is raised, and the pair is in demand at the next snapshot.
R223, R224: a readback mismatch on a pair in use switches both its outputs off and demands STO of its arms with the next
decision; a scheduled dark test starts on an output energised for 1 ms and is skipped and counted on one energised for less; one
that the readback follows to its end clears the skips, one that it does not follow is a mismatch, and one that meets a
switch-off is skipped. The commands of these rules run the block to the sample at which they fall due. -/
def Obligations.ContourInputsAndOutputs : Prop :=
  (∀ (s : State) (n : Fin 16) (pair : Fin 8) (level src f : Bool) (o : OutReadback) (k : Fin 16), s.ctmUp = true → s.caughtUp →
    let i := o.pair.val
    let r := s.ctm.soutRec (k.val / 2)
    Answers (.safeInputChange n level) s (fun t => t.ctm.pins.getLsbD n.val = level ∧
      (∀ k, k < 16 → k ≠ n.val → t.ctm.pins.getLsbD k = s.ctm.pins.getLsbD k) ∧ { t with ctm := { t.ctm with pins := s.ctm.pins } } = s) ∧
    (∀ k, (s.ctm.pair pair.val).since = some k → s.reaches (k + 100 * (s.ctm.sinRec pair.val).disc + 1) → Answers (.inDisc pair) s fun t =>
      t.ctm.samp = k + 100 * (s.ctm.sinRec pair.val).disc + 1 ∧ s.spares t) ∧
    (s.reaches (nextPulse s.sampNow src) → Answers (.testPulse src) s fun t => t.ctm.samp = nextPulse s.sampNow src ∧ s.spares t) ∧
    (∀ m, s.ctm.mask (2 * pair.val) = some m → s.reaches (m.at_ + 60) → Answers (.inTest pair) s fun t => t.ctm.samp = m.at_ + 60 ∧ s.spares t) ∧
    ((s.ctm.soutRec i).src ≠ 0 → bitN s.ctm.outFail i = false → s.ctm.mismatch i o.srb s.upNs = true → Answers (.outFail o) s fun t =>
      bitN t.ctm.outFail i = true ∧ (t.ctm.out (2 * i)).cmd = false ∧ (t.ctm.out (2 * i + 1)).cmd = false ∧ t.ctm.lastDiag = 10 ∧
      (∀ n, n ∈ s.armList → bitN (s.ctm.soutRec i).arms n = true → (t.ctm.arm n).raised = ⟨3, 16⟩) ∧ s.spares t) ∧
    (s.ctm.mismatch i o.srb s.upNs = false → Answers (.outFail o) s fun t => t = s) ∧
    (r.src ≠ 0 → r.tper ≠ 0 → s.reaches (r.next k.val s.sampNow) → Answers (.outputTestPulse k f) s fun t =>
      t.ctm.samp = r.next k.val s.sampNow ∧ s.spares t) ∧
    ((r.src = 0 ∨ r.tper = 0) → Answers (.outputTestPulse k f) s fun t => t = s)) ∧
  (∀ (c : Ctm) (k i : Nat) (src : Bool),
    (∀ b, (c.sample.sin.getLsbD b = if c.pins.getLsbD b = c.sampV.getLsbD b then c.pins.getLsbD b else c.sin.getLsbD b)) ∧
    c.sample.sampV = c.pins ∧ tpsAt (nextPulse k src) = some src ∧
    (i < 8 → (c.sinRec i).mode ≠ 0 → c.shows i false ≠ c.shows i true → (c.pair i).disc = false →
      (∀ t, (c.pair i).since = some t → t + 100 * (c.sinRec i).disc < k →
        (c.pairTick k i).pair i = { c.pair i with disc := true, both := false } ∧ (c.pairTick k i).found = c.found ++ [(8, 0, i)] ∧
        (((c.pairTick k i).snapPair i).pair i).demand = true) ∧
      ((c.pair i).since = none → ((c.pairTick k i).pair i).since = some k)) ∧
    (i < 16 →
      let r := c.sinRec (i / 2)
      let fed := r.mode ≠ 0 ∧ (r.tp = 1 ∧ i % 2 = 0 ∧ src = false ∨ r.tp = 2 ∧ i % 2 = 0 ∧ src = true ∨ r.tp = 3 ∧ i % 2 = src.toNat)
      (c.pulse k src).mask i = if fed ∧ c.sin.getLsbD i = true ∧ c.mask i = none then some { at_ := k } else c.mask i) ∧
    (∀ m, i < 16 → c.mask i = some m → m.at_ + 60 ≤ k →
      let seen := m.see k (c.pins.getLsbD i)
      (c.maskTick k i).mask i = none ∧ ((seen.low = false ∨ seen.back = false) → ((c.maskTick k i).pair (i / 2)).test = true ∧
        ((c.pair (i / 2)).test = false → (c.maskTick k i).found = c.found ++ [(9, 0, i / 2)])))) ∧
  (∀ (c : Ctm) (arms : List Nat) (dev : Option Nat) (k now j : Nat), j < 16 →
    let o := c.out j
    let r := c.soutRec (j / 2)
    (o.dark = none → r.due j k = true → o.cmd = true → o.since + 1000000 ≤ now →
      (c.outTick arms dev k now j).out j = { o with dark := some (k, dev != some j), stuck := none }) ∧
    (r.due j k = true → o.dark = none → o.cmd = true → now < o.since + 1000000 →
      (c.outTick arms dev k now j).out j = { o with skips := o.skips + 1, warn := o.warn || decide (8 < o.skips + 1) }) ∧
    (∀ t f, o.dark = some (t, f) → o.cmd = true →
      (f = true → t * 10 + r.twid ≤ k * 10 → (c.outTick arms dev k now j).out j = { o with dark := none, skips := 0, warn := false }) ∧
      (f = false → t + 15 < k → bitN (c.outTick arms dev k now j).outFail (j / 2) = true ∧ ((c.outTick arms dev k now j).out j).cmd = false) ∧
      (((c.drive now (j / 2) false).out j).cmd = false ∧ ((c.drive now (j / 2) false).out j).skips = o.skips + 1)))

/-- R226, R229: a copy of an image that fails its CRC is marked; GO takes the address and starts the check, or ends with BUSY while a
load runs; the check ends with the result of the first rule that fails, with 10 where the channels disagree, and else the load
waits; at a datum an image that waits takes effect when its arms rest, the arm keeping its state and its latch. -/
def Obligations.ContourImages : Prop :=
  ∀ (s : State) (n : Nat) (b h : Bool), s.ctmUp = true →
    ((s.ctm.arm n).img.isSome = true → (s.ctm.arm n).imgBad = false → Answers (.imgCrc (n + 1) h true) s fun t =>
      (t.ctm.arm n).imgBad = true ∧ (t.ctm.arm n).sst = (s.ctm.arm n).sst ∧ t.ctm.lastDiag = 14 ∧ s.spares t) ∧
    (s.ctm.cell.isSome = true → s.ctm.cellBad = false → Answers (.imgCrc 0 h true) s fun t =>
      t.ctm.cellBad = true ∧ t.ctm.lastDiag = 14 ∧ s.spares t) ∧
    Answers (.imgCrc n h false) s (fun t => t = s) ∧
    (s.ctm.wrst = false → s.ctm.load.isSome = true → Answers .safetyImageLoad s fun t => t = { s with ctm := { s.ctm with result := 2 } }) ∧
    (s.ctm.wrst = false → s.ctm.load = none → Answers .safetyImageLoad s fun t => t.ctm.checking = true ∧ t.ctm.load.isSome = true ∧
      t.ctm.ldAddr = (s.rd (ctmReg 0x04)).toNat * 256 ∧ { t with ctm := s.ctm } = s) ∧
    (s.ctm.wrst = false → s.ctm.checking = true → Answers (.imageCheckDone b) s fun t => t.ctm.checking = false ∧
      let k := (s.checkImage s.ctm.ldAddr).2
      (k.result ≠ 1 → t.ctm.result = k.result ∧ t.ctm.load = none) ∧
      (k.result = 1 → b = false → t.ctm.result = 10 ∧ t.ctm.load = none) ∧
      (k.result = 1 → b = true → t.ctm.load = some ⟨k.arm, k.cell, k.armImg⟩) ∧ t.ctm.cell = s.ctm.cell ∧ (∀ m, t.ctm.arm m = s.ctm.arm m)) ∧
    (∀ l, s.ctm.wrst = false → s.ctm.load = some l → s.cycleOver = true → s.caughtUp →
      (∀ g, l.cell = some g → (∀ m, m ∈ s.armList → 3 ≤ (s.ctm.arm m).sst) → Answers .imageTakesEffect s fun t =>
        t.ctm.cell = some g ∧ t.ctm.load = none ∧ t.ctm.result = 1 ∧ (∀ m, t.ctm.arm m = s.ctm.arm m) ∧ s.spares t) ∧
      (∀ i, l.cell = none → l.armImg = some i → 3 ≤ (s.ctm.arm (l.arm - 1)).sst → Answers .imageTakesEffect s fun t =>
        (t.ctm.arm (l.arm - 1)).img = some i ∧ (t.ctm.arm (l.arm - 1)).latch = true ∧
        (t.ctm.arm (l.arm - 1)).sst = (s.ctm.arm (l.arm - 1)).sst ∧ t.ctm.load = none ∧ t.ctm.result = 1 ∧
        (∀ m, m ≠ l.arm - 1 → t.ctm.arm m = s.ctm.arm m) ∧ s.spares t))

/-! ### Cartouche -/

/-- R235–R237: a conversion of an input of a running channel waits as gain × reading until every input of the channel has
delivered; the last one completes the channel value, the doubled sum less the doubled zeros, which reaches the moving average of a
STATIC channel without chopping; a conversion marked OVR marks the channel; an input of no channel keeps nothing. After P channel
values of a channel the pin EXC_CHOP changes, and with it every channel's half-period. -/
def Obligations.WeighingConversions : Prop :=
  ∀ (s : State) (i c : Fin 8) (reading : Int) (low : Bool) (lag : Nat), s.crtUp = true →
    let inp (k : Nat) : CrtIn := Table.get (fun _ => {}) s.crt.ins k
    let x := s.crtCh c.val
    let count := if low then min 10 ((inp i.val).low + 1) else 0
    let mine := (List.range 8).filter fun k => bitN (s.lcmask c.val) k
    (∀ ovr, s.chanOf i.val = none → Answers (.conversion i reading ovr low lag) s fun t => t.crt.chs = s.crt.chs ∧
      (∀ k, (Table.get (fun _ => {}) t.crt.ins k : CrtIn) = if k = i.val then { wait := none, low := count } else inp k) ∧
      { t with crt := s.crt, freeCtr := s.freeCtr } = s) ∧
    (s.chanOf i.val = some c.val → count < 10 → (∃ k ∈ mine, k ≠ i.val ∧ (inp k).wait = none) →
      Answers (.conversion i reading false low lag) s fun t => t.crt.chs = s.crt.chs ∧
        (∀ k, k ≠ i.val → (Table.get (fun _ => {}) t.crt.ins k : CrtIn) = inp k) ∧
        ((Table.get (fun _ => ({} : CrtIn)) t.crt.ins i.val).wait.map fun p => (p.v, p.bad)) = some (s.gain c.val i.val * reading, false) ∧
        { t with crt := s.crt, freeCtr := s.freeCtr } = s) ∧
    (s.chanOf i.val = some c.val → count < 10 → (∀ k ∈ mine, k ≠ i.val → (inp k).wait.isSome = true) → s.chop c.val = 0 → x.st = .static →
      x.samples.length + 1 < s.avgN c.val → Answers (.conversion i reading false low lag) s fun t =>
        let sum := mine.foldl (fun a k => a + if k = i.val then s.gain c.val k * reading else ((inp k).wait.map (·.v)).getD 0) 0
        (t.crtCh c.val).samples.map (·.v) = (2 * sum - 2 * s.zeroSum c.val) :: x.samples.map (·.v) ∧
        (∀ k, k ≠ c.val → t.crtCh k = s.crtCh k) ∧ s.spares t) ∧
    (s.chanOf i.val = some c.val → Answers (.conversion i reading true low lag) s fun t =>
      (t.crtCh c.val).ovrAt = some s.nowNs ∧ (∀ k, k ≠ c.val → t.crtCh k = s.crtCh k) ∧ s.spares t) ∧
    (x.st ≠ .off → s.chop c.val ≠ 0 → 4 * 2 ^ s.chop c.val ≤ x.sinceEdge → Answers (.chopEdge c) s fun t =>
      t.crt.exc = !s.crt.exc ∧ (∀ k, t.crtCh k = { s.crtCh k with sinceEdge := 0, half := if s.crt.exc then [] else (s.crtCh k).half }) ∧
      { t with crt := s.crt } = s)

/-- R238, R240: a command to a channel that can take it waits with CMDST 1 and nothing else changes; with a command waiting it ends with
BUSY, in another state of the channel with STATE; a static command whose condition has not held for 2 s is refused. -/
def Obligations.WeighingCommands : Prop :=
  ∀ (s : State) (c : Fin 8) (v : BitVec 24), s.crtUp = true →
    let x := s.crtCh c.val
    let waits (i : Instr) (code val : Nat) : Prop := Answers i s fun t =>
      t = { s with crt := { s.crt with cmdSt := 1, cmd := some { code := code, ch := c.val, val := val, since := s.upNs } } }
    let ends (i : Instr) (r : Nat) : Prop := Answers i s fun t => t = { s with crt := { s.crt with cmdSt := r } }
    (s.crt.cmd = none →
      (x.st = .transfer → s.allows c.val .static = true → waits (.modeStatic c) 1 0) ∧
      (x.st = .static → s.allows c.val .transfer = true → waits (.modeTransfer c) 2 0) ∧
      (x.st = .static → waits (.zero c) 3 0 ∧ waits (.tare c) 4 0 ∧ waits (.tareval c v) 5 v.toNat ∧ waits (.clrtare c) 6 0) ∧
      (x.st = .window → ends (.modeStatic c) 3 ∧ ends (.modeTransfer c) 3) ∧
      (x.st ≠ .static → ends (.zero c) 2 ∧ ends (.tare c) 2 ∧ ends (.tareval c v) 2 ∧ ends (.clrtare c) 2)) ∧
    (s.crt.cmd ≠ none → ends (.modeStatic c) 3 ∧ ends (.modeTransfer c) 3 ∧ ends (.zero c) 3 ∧ ends (.tare c) 3 ∧
      ends (.tareval c v) 3 ∧ ends (.clrtare c) 3) ∧
    (∀ k, s.crt.cmd = some k → k.ch = c.val → 3 ≤ k.code → k.since + 2000000000 ≤ s.upNs → Answers (.notstable c) s fun t =>
      t.crt.cmd = none ∧ (t.crt.cmdSt = 4 ∨ t.crt.cmdSt = 5) ∧ (∀ d, t.crtCh d = s.crtCh d) ∧ { t with crt := s.crt } = s)

/-- R239, R240, R248: a static update, after the zeros and the waiting command have taken effect, writes the mailbox with a new SEQ; the
weight is the reading less the zero, rounded to d, less the tare, when it lies in range. ZERO, TARE, TAREVAL and CLRTARE take effect when
their conditions hold, and are refused after 2 s. No byte of SRAM, no core and no other channel changes. -/
def Obligations.StaticWeighing : Prop :=
  ∀ (s : State) (c : Fin 8), s.crtUp = true → (s.crtCh c.val).st = .static →
    let z := (s.initialZero c.val).trackZero c.val
    let f := (z.reading c.val).getD 0
    Answers (.staticUpdate c) s (fun t =>
      let x := t.crtCh c.val
      x.st = .static ∧ x.seq = ((s.crtCh c.val).seq + 1) % 65536 ∧ (∀ k, k ≠ c.val → t.crtCh k = s.crtCh k) ∧ s.spares t ∧
      (∀ k, s.crt.cmd = some k → k.ch = c.val → 3 ≤ k.code → k.code ≤ 6 →
        (k.since + 2000000000 ≤ s.upNs → t.crt.cmd = none ∧ (t.crt.cmdSt = 4 ∨ t.crt.cmdSt = 5)) ∧
        (s.upNs < k.since + 2000000000 → z.crtCond k = false → t.crt.cmd = some k) ∧
        (s.upNs < k.since + 2000000000 → z.crtCond k = true → t.crt.cmd = none ∧ t.crt.cmdSt = 0 ∧
          (k.code = 3 → x.zero = f ∧ x.zeroSet = true) ∧
          (k.code = 4 → x.tare = roundHalfAway (f - (z.crtCh c.val).zero) (2 ^ 32) ∧ x.net = true) ∧
          (k.code = 5 → x.tare = k.val ∧ x.net = true) ∧ (k.code = 6 → x.tare = 0 ∧ x.net = false))) ∧
      (s.reading c.val = some f → x.zeroSet = true → f - x.zero ≤ s.maxQ c.val + 9 * oneD → -20 * oneD ≤ f - x.zero →
        x.mail.getD 1 0 = BitVec.ofNat 32 (wrapN 32 (roundHalfAway (f - x.zero) (2 ^ 32) - x.tare))))

/-- R244–R246: a window request that no rule refuses takes the channel to WINDOW with S, L and the tag of the registers and CRT_WST 0,
and a refused one changes CRT_WST only; a window ends two datums after its last with the channel in TRANSFER, the last result in
the mailbox and, unless it was a ZERO window that passed, the zero mass as it was; a failed condition gives no weight. -/
def Obligations.TransferWindows : Prop :=
  ∀ (s : State) (c : Fin 8), s.crtUp = true →
    let w := (s.rd (crtReg 0x30)).toNat
    let l := if fld w 4 12 = 0 then 4096 else fld w 4 12
    let S := s.rf (crtReg 0x34) 0 32 + s.rf (crtReg 0x38) 0 16 * 2 ^ 32
    (fld w 0 3 = c.val → s.winRefuse c.val S l = 0 → Answers .windowRequest s fun t => t.crt.wst = 0 ∧ (t.crtCh c.val).st = .window ∧
      ((t.crtCh c.val).win.map fun y => (y.s, y.l, y.tag, y.zero, y.got)) = some (S, l, s.rf (crtReg 0x3C) 16 16, bitN w 3, []) ∧
      (∀ k, k ≠ c.val → t.crtCh k = s.crtCh k) ∧ s.spares t) ∧
    (fld w 0 3 = c.val → s.winRefuse c.val S l ≠ 0 → Answers .windowRequest s fun t =>
      t = { s with crt := { s.crt with wst := s.winRefuse c.val S l } }) ∧
    (∀ y, (s.crtCh c.val).win = some y → (s.crtCh c.val).st = .window → y.s + y.l + 2 ≤ s.mer.cycle → Answers (.windowEnd c) s fun t =>
      (t.crtCh c.val).st = .transfer ∧ (t.crtCh c.val).win = none ∧ (t.crtCh c.val).seq = ((s.crtCh c.val).seq + 1) % 65536 ∧
      (∀ k, k ≠ c.val → t.crtCh k = s.crtCh k) ∧ s.spares t ∧
      (y.zero = false ∨ s.winResult c.val y ≠ 1 → (t.crtCh c.val).mg = (s.crtCh c.val).mg) ∧
      (s.winResult c.val y ≠ 1 → (t.crtCh c.val).last.getD 1 0 = 0 ∧ (t.crtCh c.val).mail.getD 1 0 = 0))

/-- R232, R252–R254: a legal request of each kind that can be read and is good takes its effect when the seal and the trail allow it:
UNSEAL opens the session, BENCHMARK writes its record, PROGRAM holds its image, TRAIL_ACK frees the entries up to its counter
value; each stores SEQNO and answers OK. A request that breaks the layout answers FORMAT and leaves the legal store as it is. -/
def Obligations.LegalRequests : Prop :=
  ∀ (s : State) (l : List Byte), s.legalRead.2 = some l →
    let s1 := s.legalRead.1
    let seq := leAt l 12 4
    let pay := (l.take (l.length - 64)).drop 32
    let st := s.crt.store
    let left := freeUpTo (leAt l 24 4) st.trail
    let counted (t : State) : Prop := st.evcnt + 1 < 2 ^ 32 → t.crt.store.evcnt = st.evcnt + 1
    let done (t : State) : Prop := t.crt.lst = 1 ∧ t.crt.store.seqno = seq ∧ s1.spares t
    (∀ x ∈ [(Instr.unseal, 1), (.benchmark, 3), (.program, 4), (.trailAck, 5)], s.legalKind x.2 = true → legalFormat l = false →
      Answers x.1 s fun t => t.crt.lst = 4 ∧ t.crt.store = st) ∧
    (s.legalGood l = true →
      (s.legalKind 1 = true → st.unsealed = false → st.trail.length ≤ 1022 → Answers .unseal s fun t => done t ∧ t.crt.store.unsealed = true ∧
        t.crt.timer = s.upNs ∧ counted t ∧ t.crt.store.trail.length = st.trail.length + 1) ∧
      (s.legalKind 3 = true → st.unsealed = true → st.trail.length ≤ 1022 → s.recRefused (leAt l 5 1) pay = false →
        Answers .benchmark s fun t => done t ∧ t.bench (leAt l 5 1) = pay ∧ (∀ i, i ≠ leAt l 5 1 → t.bench i = s.bench i) ∧
          t.crt.timer = s.upNs ∧ counted t) ∧
      (s.legalKind 4 = true → st.unsealed = true → st.trail.length ≤ 1022 → Answers .program s fun t => done t ∧ t.crt.held = some pay ∧
        t.crt.store.program = st.program ∧ t.crt.timer = s.upNs ∧ counted t) ∧
      (s.legalKind 5 = true → left.length + (if st.unsealed then 2 else 1) ≤ 1024 → Answers .trailAck s fun t => done t ∧
        t.crt.store.trail.take left.length = left ∧ t.crt.store.trail.length = left.length + 1 ∧ t.crt.store.evcnt = st.evcnt))

/-- R234, R254: RESEAL and the end of the session timer seal the Cartouche, and a held program then becomes the program and brings the
Cartouche down; a restart brings it up sealed, each channel in the state of its record, with its tare 0 and its zero mass from the
record; where the program or any record fails its check every channel is in OFF, and where a pair of records does not agree
its channel. While the seal is UNSEALED no mailbox shows a legal result. -/
def Obligations.SealAndRestart : Prop :=
  ∀ (s : State) (c : Fin 8),
    (s.crtUp = true → s.crt.store.unsealed = true →
      let closed (t : State) : Prop := t.crt.store.unsealed = false ∧ s.spares t ∧
        (s.crt.held = none → t.crt.store.program = s.crt.store.program ∧ t.crt.down = s.crt.down) ∧
        ∀ p, s.crt.held = some p → t.crt.store.program = p ∧ t.crt.store.swcrc = crcOf p ∧ t.crt.down = true ∧ t.crt.held = none
      Answers .reseal s closed ∧ (s.crt.timer + sessionNs ≤ s.upNs → Answers .timeout s closed)) ∧
    (s.powered = true → s.sys.wrst = false → s.crt.down = true → Answers .cartoucheRestart s fun t =>
      t.crt.down = false ∧ t.crt.store.unsealed = false ∧ t.crt.held = none ∧ s.spares t ∧
      let bad := crcOf s.crt.store.program ≠ s.crt.store.swcrc ∨ s.badRecs ≠ [] ∨ (s.hasRec c.val = true ∧ s.contOk c.val = false)
      (bad → (t.crtCh c.val).st = .off ∧ (t.crtCh c.val).fail = true) ∧
      (¬bad → (t.crtCh c.val).st = s.recState c.val ∧ (t.crtCh c.val).fail = false) ∧
      (t.crtCh c.val).tare = 0 ∧ (t.crtCh c.val).zeroSet = false ∧ (t.crtCh c.val).mg = s.bw c.val 100 * oneD) ∧
    (s.crt.store.unsealed = true → ((s.mailbox c.val).getD 0 0).getLsbD 24 = false)

/-! ### Vistonik bus -/

/-- R256, R257, R262: a write of a port's configuration stores its MODE and takes its link down; a frame cut through goes out of the
other port with the forwarder's terms in CORR and a new FCS, waits there while a frame is on the wire, and is dropped and counted if one
waits already; a held frame goes out when the wire is free. No other port changes.
R269: on a port with link a Vistonik frame of any type whose FCS is bad, or whose VER or TYPE is not assigned, is counted and nothing
else; in a state that keeps frames, one that fails a check against the Graticule is counted by that check; where frames are not
kept nothing changes. -/
def Obligations.BusForwardingAndChecks : Prop :=
  (∀ (s : State) (chB port : Bool) (v : W32) (rx : BusRx) (res : Nat),
    let eg := s.port chB (!port)
    let dl := (s.port chB port).dlink
    let others (t : State) (p : Bool) : Prop := ∀ c q, portKey c q ≠ portKey chB p → t.port c q = s.port c q
    (s.busUp = true → Answers (.portCfgWrite chB port v) s fun t => t.portMode chB port = v.toNat % 4 ∧
      t.port chB port = { s.port chB port with link := false } ∧ others t port ∧ { t with bus := s.bus, regs := s.regs } = s) ∧
    (s.forwards chB = true → rx.vistonik = true → rx.frame.typ ≠ 5 → rx.frame.typ ≠ 6 →
      (eg.busyTill ≤ s.mer.clocks → eg.held = none → Answers (.cutThroughForward chB port rx res) s fun t =>
        (t.port chB (!port)).sent = forwardBytes rx.bytes res dl ∧ s.mer.clocks ≤ (t.port chB (!port)).busyTill ∧
        others t (!port) ∧ { t with bus := s.bus, regs := s.regs } = s) ∧
      (s.mer.clocks < eg.busyTill → eg.held = none → Answers (.cutThroughForward chB port rx res) s fun t =>
        t.port chB (!port) = { eg with held := some (rx.bytes, dl) } ∧ others t (!port) ∧ { t with bus := s.bus } = s) ∧
      (eg.held.isSome = true → Answers (.cutThroughForward chB port rx res) s fun t =>
        t = s.count (vbx chB 0x20) 0 16)) ∧
    (∀ l d, (s.port chB port).held = some (l, d) → s.forwards chB = true → (s.port chB port).busyTill ≤ s.mer.clocks →
      Answers (.heldFrameSend chB port res) s fun t => (t.port chB port).held = none ∧
        (t.port chB port).sent = forwardBytes l res d ∧ others t port ∧
        { t with bus := s.bus, regs := s.regs, mer := s.mer, wdx := s.wdx } = s)) ∧
  (∀ (s : State) (chB port : Bool) (rx : BusRx), s.busUp = true → (s.port chB port).link = true → rx.vistonik = true →
    ∀ x ∈ [(Instr.dataReceive chB port rx, 1), (.syncReceive chB port rx, 2), (.coldstartReceive chB port rx, 3), (.claimReceive chB port rx, 4),
        (.dlyreqReceive chB port rx, 5), (.dlyrespReceive chB port rx, 6)],
      (rx.fcsOk = false → Answers x.1 s fun t => t = s.count (vbx chB 0x14) 16 16) ∧
      (rx.fcsOk = true → (rx.frame.ver ≠ 1 ∨ rx.frame.typ = 0 ∨ 6 < rx.frame.typ ∨ rx.fits = false) → Answers x.1 s fun t => t = s.count (vbx chB 0x18) 0 16) ∧
      (rx.fcsOk = true → rx.fits = true → rx.frame.ver = 1 → rx.frame.typ = x.2 → s.bus.st = .active → ∀ o lo, s.checkFrame chB port rx = .bad o lo →
        Answers x.1 s fun t => t = s.count (vbx chB o) lo 16) ∧
      (rx.fcsOk = true → rx.fits = true → rx.frame.ver = 1 → rx.frame.typ = x.2 → s.bus.st = .off → Answers x.1 s fun t => t = s))

/-- R272, R273, R278, R277, R284, R286, R289: what a kept frame brings. A DATA record of a valid receive flow, among up to 32 of other flows,
becomes the flow's newest copy; a SYNC frame of another node gives its offset; a DLYREQ is answered on its port with a DLYRESP that names the requester; a
DLYRESP to this node gives a link delay; a CLAIM answers at the leader with a grant or a refusal. In LISTEN a COLDSTART frame or a leader
SYNC that is followed brings INTEGRATE in the sender's mode. -/
def Obligations.BusKeptFrames : Prop :=
  ∀ (s : State) (chB port : Bool) (rx : BusRx), s.busUp = true → (s.port chB port).link = true → rx.vistonik = true → rx.fcsOk = true →
    rx.fits = true → rx.frame.ver = 1 →
    let f := rx.frame
    let m := leAt f.body 6 1 % 8
    let ch := bitN (leAt f.body 0 4) 10
    let o : Int := s.rxAt chB port rx - ((f.tsSec * 1000000000 + f.tsNs) * 16 : Nat) - f.corr - (s.port chB port).dlink
    (∀ e, s.bus.st = .active → s.checkFrame chB port rx = .ok e →
      (∀ r as bs, f.typ = 1 → f.recs = as ++ r :: bs → (∀ x ∈ as ++ bs, x.flow ≠ r.flow) → (s.gaz r.flow).valid = true → (s.gaz r.flow).producer = f.sender → (s.gaz r.flow).chan chB = true →
        (s.gaz r.flow).words = r.words → r.data.length = r.words → (s.gaz r.flow).rx = true →
        ¬((s.flow r.flow).got = true ∧ (s.flow r.flow).kfresh = s.busCycle % 2 ^ 32) → Answers (.dataReceive chB port rx) s fun t =>
          t.flow r.flow = { got := true, kfresh := s.busCycle % 2 ^ 32, arrNs := s.phaseNs, rage := r.age % 256, chA := !chB, chB := chB, seq := ((s.flow r.flow).seq + 2) % 65536, tsNs := f.tsNs, tsSec := f.tsSec % 2 ^ 32, data := r.data } ∧
          (∀ k, (∀ x ∈ f.recs, x.flow ≠ k) → t.flow k = s.flow k) ∧ f.sender ∈ t.bus.kept ∧ ∀ c, t.core c = s.core c) ∧
      (f.typ = 2 → f.leader = false → f.sender ≠ s.nodeId → Answers (.syncReceive chB port rx) s fun t =>
        (Table.get (fun _ => {}) t.bus.offs f.sender : SyncOff) =
          (if chB then { (Table.get (fun _ => {}) s.bus.offs f.sender : SyncOff) with b := some o }
            else { (Table.get (fun _ => {}) s.bus.offs f.sender : SyncOff) with a := some o }) ∧
        t.bus.anySync = true ∧ t.bus.st = .active ∧ f.sender ∈ t.bus.kept ∧ s.spares t) ∧
      (f.typ = 4 → Answers (.claimReceive chB port rx) s fun t => s.spares t ∧
        Table.get (fun _ => none) t.bus.claims (2 * f.sender + ch.toNat) = some (leAt f.body 8 2 % 4096) ∧
        (s.bus.leader = false → t.bus.grants.length = s.bus.grants.length ∧ t.bus.lastRes = s.bus.lastRes) ∧
        (s.bus.leader = true → t.bus.lastNode = f.sender ∧
          (t.bus.lastRes = 0 ∧ t.bus.grants.length = s.bus.grants.length + 1 ∨
            t.bus.lastRes ≠ 0 ∧ t.bus.grants.length = s.bus.grants.length ∧ t.bus.refusals.length = s.bus.refusals.length + 1))) ∧
      (f.typ = 5 → Answers (.dlyreqReceive chB port rx) s fun t => { t with bus := s.bus } = s ∧
        ∃ y, (t.port chB port).sent = wireBytes y ∧ y.typ = 6 ∧ y.sender = s.nodeId ∧ y.slot = e.slotno ∧ leAt y.body 12 1 = f.sender % 256) ∧
      (∀ t1, f.typ = 6 → (s.port chB port).t1 = some t1 → leAt f.body 12 1 = s.nodeId → Answers (.dlyrespReceive chB port rx) s fun t =>
        (t.port chB port).t1 = none ∧ { t with bus := s.bus } = s ∧ (t.port chB port).delays.head? =
          some ((s.rxAt chB port rx - t1) - ((16 * (f.tsSec * 1000000000 + f.tsNs) : Nat) - (16 * (leAt f.body 4 6 * 1000000000 + leAt f.body 0 4) : Nat)))) ∧
      (f.typ = 3 → Answers (.coldstartReceive chB port rx) s fun t => f.sender ∈ t.bus.kept ∧ t.bus.st = .active ∧ s.spares t)) ∧
    (s.bus.st = .listen → s.follows f.sender = true → f.chB = chB → bitN s.bus.store.modes m = true → (s.bus.syncEntry m chB f.sender).isSome = true →
      let joins (i : Instr) : Prop := Answers i s fun t => t.bus.st = .integrate ∧ t.bus.gmode = m ∧ t.bus.follow = some f.sender ∧
        t.bus.leader = false ∧ t.mer.place.isSome = true ∧ s.spares t
      (f.typ = 3 → s.bus.follow ≠ some f.sender → joins (.coldstartReceive chB port rx)) ∧
      (f.typ = 2 → f.leader = true → joins (.syncReceive chB port rx)))

/-- R268, R274, R277–R280: in an entry of its own whose START has come, the XN sends once in a cycle, on every port with link that is
free by START + PREC: a sync frame in a sync entry, in a data entry the record of the entry's flow and of the flows bundled with it, as they
were 1 µs before START; at the link window's START it sends a DLYREQ. After the
last sync entry it forms the correction once: the mean of the offsets left after the trim, in whole ns, and beyond the limit
it leaves for LISTEN. -/
def Obligations.BusSending : Prop :=
  ∀ (s : State) (chB port : Bool) (slot : Nat) (x : SlotSend) (e : GEntry), s.busUp = true → e.start * unitNs ≤ s.busPos.2 →
    let gone := s.busPos.2 / unitNs - e.start
    let free (u : State) (f : BusFrame) : Prop := (u.port chB port).link = true ∧ u.startsAt chB port x.by_ gone ≤ u.bus.mode.prec ∧ frameWire f (u.portMode chB port) ≤ 10 * e.len
    let out (u t : State) (typ flow : Nat) (recs : List FlowRec) : Prop :=
      (∃ y, (t.port chB port).sent = wireBytes y ∧ y.typ = typ ∧ y.sender = u.nodeId ∧ y.slot = slot ∧ y.flow = flow ∧ y.recs = recs) ∧
      (chB, slot) ∈ t.bus.done ∧ u.spares t
    (((s.bus.entries s.bus.gmode chB).find? fun y => y.slotno == slot && y.sender == s.nodeId && decide (y.kind ≤ 1)) = some e →
      s.maySend e.kind = true → s.doneSlots.contains (chB, slot) = false →
      (e.kind = 0 → Answers (.slotTransmit chB slot x) s fun t =>
        let (u, rs, bad) := (s.markSlot chB slot).txRead chB e.start e.flow x.bundle
        (chB, slot) ∈ t.bus.done ∧ s.spares t ∧ (bad = true → t = u.count (vbx chB 0x1C) 0 16) ∧ (bad = false → rs = [] → t = u) ∧
        (bad = false → rs ≠ [] → free u (u.mkFrame 1 chB u.bus.leader e.slotno e.flow 0 rs []) → out u t 1 e.flow rs)) ∧
      (e.kind = 1 → s.bus.st = .active → s.bus.leader = false → free s (s.mkFrame 2 chB false e.slotno 0 0 [] []) →
        Answers (.slotTransmit chB slot x) s fun t => out s t 2 0 [] ∧ t.bus.ownSync = true)) ∧
    (((s.bus.entries s.bus.gmode chB).find? fun y => y.kind == 4) = some e → s.linksNow = true → s.doneSlots.contains (chB, e.slotno) = false →
      (s.port chB port).link = true → Answers (.linkWindow chB) s fun t => (t.port chB port).t1.isSome = true ∧
        (∃ y, (t.port chB port).sent = wireBytes y ∧ y.typ = 5 ∧ y.sender = s.nodeId ∧ y.slot = e.slotno) ∧ { t with bus := s.bus } = s) ∧
    (s.bus.st.phased = true → s.bus.corrCyc ≠ some s.busCycle → s.syncsEnd * unitNs ≤ s.busPos.2 → Answers .clockCorrection s fun t =>
      t.bus.corrCyc = some s.busCycle ∧ s.spares t ∧
      let vs := s.sortedOffs
      let k := if vs.length ≤ 2 then 0 else if vs.length ≤ 6 then 1 else 2
      let c := Int.tdiv (vs.getD k 0 + vs.getD (vs.length - 1 - k) 0) 64
      (1 ≤ vs.length → s.bus.mode.cycle ≠ 0 → t.bus.corr = c ∧ t.bus.nval = vs.length ∧
        (c.natAbs ≤ s.bus.mode.limit → t.bus.corrNew = some c ∧ t.bus.st = s.bus.st) ∧ (s.bus.mode.limit < c.natAbs → t.bus.st = .listen)))

/-- R282–R287: the steps of the protocol. The listen time of a cold-start node that has a sync entry in its boot mode ends in COLDSTART; a round
that fails returns to LISTEN and counts; the second clean cycle of an integration is noted; four cycles without a sync frame bring
LISTEN, eight without a leader SYNC the lead to a node that may take it; EN takes OFF to LISTEN, and EN 0 brings OFF without the lead; START
re-arms cold start. -/
def Obligations.BusProtocolSteps : Prop :=
  ∀ (s : State),
    (s.busUp = true → s.bus.st = .listen → s.bus.csoff = false → s.mute = false → s.listenOver = true → bitN s.bus.store.modes s.bootMode = true →
      (s.bus.hdr s.bootMode).cycle ≠ 0 → ((s.bus.syncEntry s.bootMode false s.nodeId).isSome = true ∨ (s.bus.syncEntry s.bootMode true s.nodeId).isSome = true) →
      Answers .listenTimeout s fun t => t.bus.st = .coldstart ∧ t.bus.gmode = s.bootMode ∧ t.bus.csStart = s.busCycle ∧ t.mer.place.isSome = true ∧ s.spares t) ∧
    (s.cycleOver = true → s.bus.st = .coldstart → s.bus.csStart + 5 ≤ s.busCycle → Answers .roundFailed s fun t => t.bus.st = .listen ∧
      t.bus.csfails = min (s.bus.csfails + 1) 7 ∧ (7 ≤ s.bus.csfails + 1 → t.bus.csoff = true) ∧ s.spares t) ∧
    (s.bus.st = .integrate → s.bus.leaderSync = true → s.bus.corrCyc = some s.busCycle → s.bus.clean = 1 → Answers .integrateDone s fun t =>
      t = { s with bus := { s.bus with clean := 2 } }) ∧
    (s.cycleOver = true → s.bus.st = .active → s.bus.leader = false → s.bus.anySync = false → 4 ≤ s.bus.noSync + 1 → Answers .lostsync s fun t =>
      t.bus.st = .listen ∧ t.bus.grants = [] ∧ (s.bus.afterWrst = false → t.bus.reason = 2) ∧ s.spares t) ∧
    (s.cycleOver = true → s.bus.leaderSync = false → s.leadDue (s.bus.noLeader + 1) (s.busCycle + 1) = true → Answers .leaderTakeover s fun t =>
      t.bus.leader = true ∧ t.bus.leaderId = s.nodeId ∧ t.bus.st = .active ∧ s.spares t) ∧
    (s.busUp = true →
      (s.bus.st = .off → Answers (.busEnable true) s fun t => t.bus.st = .listen ∧ s.spares t) ∧
      (s.bus.st ≠ .off → Answers (.busEnable true) s fun t => t.bus = s.bus ∧ s.spares t) ∧
      Answers (.busEnable false) s (fun t => t.bus.st = .off ∧ (s.bus.st ≠ .off → t.bus.leader = false ∧ t.bus.grants = [] ∧ t.bus.req = none) ∧ s.spares t) ∧
      Answers .vbaStart s fun t => t = { s with bus := { s.bus with csfails := 0, csoff := false, listenAt := s.mer.clocks } })

/-- R271, R290–R294: RELEASE and the silence of a slot end a grant of the leader two cycles on; a mode request is pending or refused with
its code; at its datum a switch puts the mode in force with its cycle length, and a node without that mode goes to LISTEN; a
cancelled request names the nodes that did not acknowledge; the staging word and the commits of Gazetteer entries; the result of
a Graticule load. -/
def Obligations.BusGrantsAndModes : Prop :=
  ∀ (s : State) (chB : Bool) (slot : BitVec 10) (m : BitVec 3) (v : W32) (who : Master),
    (s.busUp = true → Answers (.release chB slot) s fun t => { t with bus := s.bus } = s ∧
      t.bus.grants = s.bus.grants.map fun g => if s.bus.leader = true ∧ g.slot = slot.toNat ∧ g.chB = chB ∧ g.endAt = none then { g with endAt := some (s.busCycle + 2) } else g) ∧
    (Answers (.grantRelease chB slot.toNat) s fun t => { t with bus := s.bus } = s ∧
      t.bus.grants = s.bus.grants.map fun g => if s.cycleOver = true ∧ s.bus.leader = true ∧ g.slot = slot.toNat ∧ g.chB = chB ∧ g.live s.busCycle = true ∧
        g.heard = false ∧ s.rf (vba 0x138) 0 16 ≤ g.silent + 1 ∧ g.endAt = none then { g with endAt := some (s.busCycle + 2) } else g) ∧
    (s.busUp = true → s.modeRefuse m.toNat = 0 → Answers (.modeRequest m) s fun t => t.bus.modeRes = 1 ∧ (t.bus.req.map fun r => (r.target, r.reqno, r.swcyc)) =
      some (m.toNat, (s.bus.reqno + 1) % 256, none) ∧ { t with bus := s.bus, regs := s.regs } = s) ∧
    (s.busUp = true → s.modeRefuse m.toNat ≠ 0 → Answers (.modeRequest m) s fun t => t.bus = { s.bus with modeRes := 4, modeRef := s.modeRefuse m.toNat } ∧
      { t with bus := s.bus, regs := s.regs } = s) ∧
    (∀ r w, s.bus.req = some r → r.swcyc = some w → w ≤ s.busCycle →
      (bitN s.bus.store.modes r.target = true → Answers .modeSwitch s fun t => t.bus.gmode = r.target ∧ t.bus.req = none ∧ t.bus.grants = [] ∧
        t.mer.cycleLen = (s.bus.hdr r.target).cycle ∧ t.bus.st = s.bus.st ∧ s.spares t) ∧
      (bitN s.bus.store.modes r.target = false → Answers .modeSwitch s fun t => t.bus.st = .listen ∧ t.bus.gmode = s.bus.gmode ∧ s.spares t)) ∧
    (∀ r, s.cycleOver = true → s.bus.req = some r → s.cancelDue r s.busCycle = true → Answers .modeCancel s fun t => t.bus.req = some { r with cancel := true } ∧ t.bus.modeRes = 3 ∧
      t.bus.missing = min (r.active.filter fun n => !r.acked.contains n).length 255 ∧ s.spares t) ∧
    (s.busUp = true → Answers (.zw0Write v) s fun t => t = { s with bus := { s.bus with staging := v &&& 0x01FFFF7F#32 } }) ∧
    (s.busUp = true →
      let f := s.rf (vba 0x140) 0 12
      (s.gazLocked f = true → Answers (.zw1Write who v) s fun t => t.bus = s.bus ∧ t.fb = (s.log 0x0020 2 0 3 (vba 0x148) v.toNat 0).fb) ∧
      (s.gazLocked f = false → v.toNat % 512 ≤ 366 → Answers (.zw1Write who v) s fun t =>
        t = { s with bus := { s.bus with gazNext := s.bus.gazNext ++ [(f, { w0 := s.bus.staging, w1 := v })] } }) ∧
      (s.gazLocked f = false → 366 < v.toNat % 512 → Answers (.zw1Write who v) s fun t => t = s)) ∧
    (s.busUp = true → let a := (s.rd (vba 0x110)).toNat * 256
      (hubRange a 288 = false → Answers .graticuleLoad s fun t => t.bus.gres = 8 ∧ t.bus.store = s.bus.store ∧ t.bus.storeNext = s.bus.storeNext) ∧
      let h := s.bytes a 12
      let l := s.bytes a (leAt h 4 4)
      (hubRange a 288 = true → leAt h 0 4 = 0x41545247 → leAt h 4 4 = 288 + 16 * fld (leAt h 8 4) 0 12 →
        hubRange a (leAt h 4 4) = true → s.readable a (leAt h 4 4) → Answers .graticuleLoad s fun t =>
          t.bus.gres = (s.checkGraticule l).1 ∧ t.bus.gentry = (s.checkGraticule l).2.1 ∧ t.bus.store = s.bus.store ∧
          t.bus.storeNext = if (s.checkGraticule l).1 = 1 then some (s.checkGraticule l).2.2 else s.bus.storeNext))

/-! ### Meridian and host ports -/

/-- R298, R299, R302, R309: a step request waits for the datum while the clock runs free and is refused and logged while it follows the bus; a
binding request waits with the staged words. A read of a time-stamp FIFO takes its oldest entry and captures its words, or reads
zeros when the FIFO is empty.
R256, R303, R306, R307, R310: EN and link of a host port, link of a bus port; a frame with a bad FCS or length is counted; one that the filter keeps
joins the receive FIFO when it fits and is counted as an overrun when it does not, one that it does not keep leaves no trace; frames
leave, each with its FCS, in the order heartbeat, passed-through frame, oldest of the FIFO. Pass-through is off in these receptions. -/
def Obligations.MeridianAndHostPorts : Prop :=
  (∀ (s : State) (b : Bool), s.powered = true →
    let h := s.host b
    (s.mer.bus = false → Answers .stepRequest s fun t =>
      t = { s with mer := { s.mer with stepPend := some (signedNs (s.rd (merR 0x30)) (s.rd (merR 0x34)) (s.rd (merR 0x38))) } }) ∧
    (s.mer.bus = true → Answers .stepRequest s fun t => t.mer = s.mer ∧ t.fb = (s.log 0x0021 2 0 2 (merR 0x3C) 1 0).fb ∧ { t with fb := s.fb } = s) ∧
    Answers .bindRequest s (fun t =>
      t = { s with mer := { s.mer with bindPend := some (s.rd (merR 0x40), s.rd (merR 0x44), s.rd (merR 0x48), s.rd (merR 0x4C)) } }) ∧
    (∀ e rest, h.rxTs = e :: rest → Answers (.rxtsRead b) s fun t => t.host b = { h with rxTs := rest } ∧ t.host (!b) = s.host (!b) ∧
      t.busData = BitVec.ofNat 32 (e.seqId + e.msgType * 65536 + e.domain * 2 ^ 20 + 2 ^ 31) ∧
      { t with hostA := s.hostA, hostB := s.hostB, cap := s.cap, busData := s.busData } = s) ∧
    (h.rxTs = [] → Answers (.rxtsRead b) s fun t => t.host b = h ∧ t.busData = 0) ∧
    (∀ e rest, h.txTs = e :: rest → Answers (.txtsRead b) s fun t => t.host b = { h with txTs := rest } ∧ t.host (!b) = s.host (!b) ∧
      t.busData = BitVec.ofNat 32 (e.seqId + e.msgType * 65536 + e.domain * 2 ^ 20 + 2 ^ 31) ∧
      { t with hostA := s.hostA, hostB := s.hostB, cap := s.cap, busData := s.busData } = s) ∧
    (h.txTs = [] → Answers (.txtsRead b) s fun t => t.host b = h ∧ t.busData = 0)) ∧
  (∀ (s : State) (b on port speed : Bool) (rx : HostRx) (frac : BitVec 16), s.powered = true →
    let h := s.host b
    let n := rx.bytes.length + 4
    let ts := h.txAt (s.now16 + frac.toNat)
    let wire (l : List Byte) : List Byte := l ++ fcsOf l
    Answers (.hostPortEnable b on) s (fun t => t.rb (hn b 0x04) 0 = on ∧ t.host b = { h with on := on && !s.sys.wrst, link := h.link && on } ∧
      t.host (!b) = s.host (!b) ∧ { t with hostA := s.hostA, hostB := s.hostB, regs := s.regs } = s) ∧
    (s.hostUp b = true → Answers (.linkChange on b true port speed) s fun t => t.host b = { h with link := port && speed } ∧
      { t with hostA := s.hostA, hostB := s.hostB, regs := s.regs } = s) ∧
    (s.busUp = true → Answers (.linkChange b on false port speed) s fun t =>
      t.port b on = { s.port b on with link := port && s.portMode b on != 0 && (s.portMode b on != 3 || speed) } ∧ { t with bus := s.bus } = s) ∧
    (s.hostUp b = true → h.link = true →
      (rx.fcsOk = false ∨ n < 64 ∨ 1522 < n → Answers (.hostFrameReceive b rx) s fun t => t = s.count (hn b 0x60) 16 16) ∧
      (rx.fcsOk = true → 64 ≤ n → n ≤ 1522 → s.hostA.tscfg.getLsbD 2 = false → s.isBeat b rx.bytes = false →
        (s.hostKeeps b rx.bytes = false → Answers (.hostFrameReceive b rx) s fun t => t = s) ∧
        (s.hostKeeps b rx.bytes = true → fifoBytes h.rx + rx.bytes.length ≤ 16384 → Answers (.hostFrameReceive b rx) s fun t =>
          (t.host b).rx = h.rx ++ [rx.bytes] ∧ t.host (!b) = s.host (!b) ∧ { t with hostA := s.hostA, hostB := s.hostB, regs := s.regs } = s) ∧
        (s.hostKeeps b rx.bytes = true → 16384 < fifoBytes h.rx + rx.bytes.length → Answers (.hostFrameReceive b rx) s fun t =>
          (t.host b).rx = h.rx ∧ { t with hostA := s.hostA, hostB := s.hostB, regs := s.regs } = s)) ∧
      (∀ l, h.beat = some l → Answers (.hostFrameTransmit b frac) s fun t => (t.host b).beat = none ∧ (t.host b).tx = h.tx ∧ (t.host b).held = h.held ∧
        (t.host b).sent = wire (beatAt l (ts / 65536 % 1000000000) (ts / 65536 / 1000000000))) ∧
      (∀ l t0, h.beat = none → h.held = some (l, t0) → Answers (.hostFrameTransmit b frac) s fun t => (t.host b).held = none ∧ (t.host b).tx = h.tx ∧
        (t.host b).sent = wire (s.passed h l t0 ts)) ∧
      (∀ l rest, h.beat = none → h.held = none → h.tx = l :: rest → Answers (.hostFrameTransmit b frac) s fun t =>
        (t.host b).tx = rest ∧ (t.host b).sent = wire (s.oneStep h l ts) ∧ t.host (!b) = s.host (!b)) ∧
      (h.beat = none → h.held = none → h.tx = [] → Answers (.hostFrameTransmit b frac) s fun t => t = s)))

/-! ### DMA and banks -/

/-- R69, R72, R327–R329, R337: START and HALT to a channel of a die in service are accepted by either path and wait for the datum; START to a die
that answers but is not in service ends with STATE; the ENGR reads return the channel's registers and change nothing but rd. -/
def Obligations.DmaCommands : Prop :=
  ∀ (s : State) (d n : Nat) (c : CoreId) (rd ra rb : Reg), n < 16 →
    let u := s.fetched c
    (∀ x ∈ [((fun p => .start p : EngSrc → Instr), 1), (.halt, 2)],
      (s.blockLive d = true → s.inService d = true → s.sys.mode ≠ .shutdown → Answers (x.1 (.reg d n)) s fun t =>
        t.ch d n = { s.ch d n with cmds := (s.ch d n).cmds ++ [(x.2, s.mer.phase)], cmdSt := 0 } ∧
        (∀ e m, 16 * e + m ≠ 16 * d + n → t.ch e m = s.ch e m) ∧ { t with dma := s.dma } = s) ∧
      (s.ready c = true → d ≤ 6 → (s.reg c rb).toNat = d + n * 256 → s.reg c ra = 0 → u.inService d = true → s.sys.mode ≠ .shutdown →
        Answers (x.1 (.engw c rd ra rb)) s fun t =>
          t.ch d n = { s.ch d n with cmds := (s.ch d n).cmds ++ [(x.2, s.mer.phase)] } ∧
          (∀ r, t.reg c r = if r = rd then 0 else s.reg c r) ∧ (t.core c).pc = ((u.core c).pc + 4) % 2 ^ 64 ∧
          (∀ a, t.byte a = u.byte a) ∧ { t with dma := u.dma, cores := u.cores } = u)) ∧
    (s.blockLive d = true → s.inService d = false → Answers (.start (.reg d n)) s fun t =>
      t.ch d n = { s.ch d n with cmdSt := 8 } ∧ { t with dma := s.dma } = s) ∧
    (s.ready c = true → d ≤ 6 → s.dieFitted d = true → (s.reg c rb).toNat = d + n * 256 →
      let gives (i : Instr) (v : W64) : Prop := Answers i s fun t => u.wrote t c rd v false
      gives (.dmaReadStat c rd rb) (BitVec.ofNat 64 (s.ch d n).stat) ∧
      gives (.dmaReadCnt c rd rb) ((u.rd (dmaReg d n 0x20)).setWidth 64) ∧
      gives (.dmaReadLevel c rd rb) (BitVec.ofNat 64 ((s.ch d n).level + u.rf (dmaReg d n 0x1C) 16 16 * 65536)))

/-- R319–R323: a running channel takes the owned descriptor at its index in the step of the descriptor's kind, and no byte of SRAM changes;
a reserved bit ends it with BADDESC; a good LINEAR, FILL, STRIDED, GATHER or SCATTER descriptor has the segments of its kind to do. -/
def Obligations.DmaDescriptors : Prop :=
  ∀ (s : State) (d n : Nat),
    let x := s.ch d n
    let a := x.ring * 256 + 32 * x.idx
    let l := s.bytes a 32
    s.blockLive d = true → n < 16 → x.st = .running → x.cur = none → s.holds (.dma d n) = false → s.readable a 32 → leAt l 28 4 % 2 = 1 →
    let src := leAt l 0 8
    let dst := leAt l 8 8
    let len := fld (leAt l 16 4) 0 24
    let ss := leAt l 24 2
    let ds := leAt l 26 2
    let count := fld (leAt l 28 4) 16 16
    let clear := fld (leAt l 16 4) 24 8 = 0 ∧ leAt l 20 4 = 0 ∧ fld (leAt l 28 4) 5 3 = 0 ∧ fld (leAt l 28 4) 8 8 = 0
    let does (i : Instr) (todo : List Seg) : Prop := Answers i s fun t =>
      ((t.ch d n).cur.map fun y => (y.dstat, y.todo, y.moved)) = some (0, todo, 0) ∧ s.spares t
    (∀ y ∈ [(Instr.linear d n, 0), (.fill d n, 1), (.strided d n, 2), (.gather d n, 3), (.scatter d n, 4)], fld (leAt l 28 4) 1 3 = y.2 →
      Answers y.1 s (fun t => ((t.ch d n).cur.map fun z => (z.kind, z.at_, z.moved)) = some (y.2, x.idx, 0) ∧ (t.ch d n).st = .running ∧ s.spares t) ∧
      (¬clear → Answers y.1 s fun t => ((t.ch d n).cur.map fun z => (z.dstat, z.todo)) = some (4, []))) ∧
    (clear → dst < 2 ^ 40 → fld x.pace 0 3 = 0 →
      (fld (leAt l 28 4) 1 3 = 0 → src < 2 ^ 40 → 1 ≤ len → ss = 0 → ds = 0 → count = 0 → s.sramRange src len = true → s.sramRange dst len = true →
        does (.linear d n) [⟨src, dst, len⟩]) ∧
      (fld (leAt l 28 4) 1 3 = 1 → 1 ≤ len → ss = 0 → ds = 0 → count = 0 → s.sramRange dst len = true → does (.fill d n) [⟨0, dst, len⟩]) ∧
      (fld (leAt l 28 4) 1 3 = 2 → src < 2 ^ 40 → 1 ≤ len → len ≤ 65535 → 1 ≤ count →
        let sp := strideSpan src (sxt 16 ss) count len
        let dp := strideSpan dst (sxt 16 ds) count len
        s.spanIn sp = true → s.spanIn dp = true → meets sp.1.toNat sp.2 dp.1.toNat dp.2 = false → does (.strided d n)
          ((List.range count).map fun (i : Nat) => ⟨((src : Int) + (i : Int) * sxt 16 ss).toNat, ((dst : Int) + (i : Int) * sxt 16 ds).toNat, len⟩)) ∧
      (∀ es, src < 2 ^ 40 → len = 0 → ss = 0 → ds = 0 → 1 ≤ count → count ≤ 4096 →
        listEntries count (s.bytes (if fld (leAt l 28 4) 1 3 = 3 then src else dst) (16 * count)) = some es → (∀ e ∈ es, s.sramRange e.1 e.2 = true) →
        (fld (leAt l 28 4) 1 3 = 3 → src % 16 = 0 → s.sramRange src (16 * count) = true → s.readable src (16 * count) → s.sramRange dst (es.map (·.2)).sum = true →
          (∀ e ∈ es, meets e.1 e.2 dst (es.map (·.2)).sum = false) → does (.gather d n) (gatherSegs dst es)) ∧
        (fld (leAt l 28 4) 1 3 = 4 → dst % 16 = 0 → s.sramRange dst (16 * count) = true → s.readable dst (16 * count) → s.sramRange src (es.map (·.2)).sum = true →
          (∀ e ∈ es, meets e.1 e.2 src (es.map (·.2)).sum = false) → does (.scatter d n) (scatterSegs src es))))

/-- R321, R324–R327: a burst keeps its descriptor in hand; one of an unpaced ascending copy or fill moves exactly its bytes, up to the next burst
boundary of the destination, and the last one ends the descriptor with DONE; one whose source or,
after a good read, destination lies on a die that does not answer moves nothing and ends it with BUSERR, and one whose source has an
uncorrectable error with ECC; a hand-back writes MOVED, DSTAT and OWN 0 into the
descriptor's word and no other byte, moves the index on and halts the channel after an error; a poll that finds OWN waits no more. -/
def Obligations.DmaBursts : Prop :=
  ∀ (s : State) (d n : Nat) (c : DmaCur), s.blockLive d = true → n < 16 → s.holds (.dma d n) = false →
    let x := s.ch d n
    let b := 32 * 2 ^ fld x.cfg 0 2
    (x.cur = some c →
      (∀ e, c.dstat = 0 → (x.st = .running ∨ x.st = .paced) → Answers (.burstComplete d n e) s fun t => (∀ k, t.core k = s.core k) ∧
        ((t.ch d n).cur.map fun y => (y.kind, y.at_)) = some (c.kind, c.at_)) ∧
      (∀ g rest, c.dstat = 0 → (x.st = .running ∨ x.st = .paced) → fld x.pace 0 3 = 0 → c.kind ≠ 3 → c.down = false → c.todo = g :: rest →
        let m := min g.len (b - g.dst % b)
        let left := if g.len ≤ b - g.dst % b then rest else { src := g.src + m, dst := g.dst + m, len := g.len - m } :: rest
        ((c.kind ≠ 1 → s.rangeAnswers g.src m = true) → s.rangeAnswers g.dst m = true → (∀ w, s.badSyms w ≤ 4) →
          Answers (.burstComplete d n 0) s fun t =>
            let l := if c.kind = 1 then fillBytes c.src g.src m else s.bytes g.src m
            ((t.ch d n).cur.map fun y => (y.dstat, y.todo, y.moved)) = some (if left = [] then 1 else 0, left, c.moved + m) ∧ (t.ch d n).st = .running ∧
            (∀ a, t.byte a = if g.dst ≤ a ∧ a < g.dst + m then l.getD (a - g.dst) 0 else s.byte a) ∧ ∀ k, t.core k = s.core k) ∧
        let ends (st : Nat) : Prop := Answers (.burstComplete d n 0) s fun t =>
          ((t.ch d n).cur.map fun y => (y.dstat, y.moved)) = some (st, c.moved) ∧ s.spares t
        (c.kind ≠ 1 → s.rangeAnswers g.src m = false → ends 2) ∧
        (c.kind ≠ 1 → s.rangeAnswers g.src m = true → (∃ w ∈ wordsOf g.src m, 4 < s.badSyms w) → ends 5) ∧
        ((c.kind = 1 ∨ s.readable g.src m) → s.rangeAnswers g.dst m = false → ends 2)) ∧
      (c.dstat ≠ 0 →
        let a := x.ring * 256 + 32 * c.at_
        s.rangeAnswers a 32 = true → Answers (.handBack d n) s fun t =>
          t.bytes a 32 = s.bytes a 16 ++ toBytes 4 c.moved ++ s.bytes (a + 20) 8 ++ toBytes 4 (setFld (setFld c.w28 0 1 0) 8 8 c.dstat) ∧
          (∀ y, y < a ∨ a + 32 ≤ y → t.byte y = s.byte y) ∧ (t.ch d n).idx = (c.at_ + 1) % 2 ^ x.log2 ∧
          ((c.dstat = 2 ∨ c.dstat = 5) → (t.ch d n).st = .halted ∧ (t.ch d n).err = true ∧ (t.ch d n).cur = none))) ∧
    (let l := s.bytes x.descAddr 32;
      x.st = .wait → s.readable x.descAddr 32 →
      (leAt l 28 4 % 2 = 0 → Answers (.poll d n) s fun t => t.ch d n = x ∧ s.spares t) ∧
      (leAt l 28 4 % 2 = 1 → fld (leAt l 28 4) 1 3 < 5 → Answers (.poll d n) s fun t => t.ch d n = { x with st := .running } ∧ s.spares t))

/-- R315, R316, R318: the scrubber corrects a word with up to 4 bad symbols and leaves one with more as it is; MEM_RET puts a bank whose bit
rises into retention and takes one whose bit falls out of it; a wake-up ends the retention of its bank. No byte changes. -/
def Obligations.MemoryBanks : Prop :=
  ∀ (s : State) (d b : Nat) (v : W32),
    let m := s.md d
    let k := Table.get (fun _ => 0) m.scrub b
    let w := (bankWords d b).1 + k
    let old := s.rd (rg d (memBlk d) 0x1C)
    let new := plainWrite (rg d (memBlk d) 0x1C) old v
    (s.sys.porst = false → s.sys.internal = false → s.dieFitted d = true → b < banksOf d →
      s.rb (rg d (memBlk d) 0x04) 0 = true → m.retained.getLsbD b = false → Answers (.scrubVisit d b) s fun t =>
        (∀ a, t.byte a = s.byte a) ∧ (∀ c, t.core c = s.core c) ∧ t.badSyms w = (if s.badSyms w ≤ 4 then 0 else s.badSyms w) ∧
        (∀ y, y ≠ w → t.badSyms y = s.badSyms y) ∧ Table.get (fun _ => 0) (t.md d).scrub b = (k + 1) % (bankWords d b).2) ∧
    (s.blockLive d = true → s.dieFitted d = true →
      Answers (.memRetWrite d v) s (fun t => t.rd (rg d (memBlk d) 0x1C) = new ∧
        (∀ i, i < 32 → (t.md d).retained.getLsbD i = (new.getLsbD i && (m.retained.getLsbD i || !old.getLsbD i))) ∧
        { t with regs := s.regs, memDie := s.memDie } = s) ∧
      (b < banksOf d → Answers (.bankWake d b) s fun t => (t.md d).retained.getLsbD b = false ∧
        (∀ i, i ≠ b → (t.md d).retained.getLsbD i = m.retained.getLsbD i) ∧ { t with memDie := s.memDie } = s))

/-! ### Sheets and the cell mode -/

/-- R337, R338, R379–R381: with Surveyor's firmware running and free, RETIRE, READMIT and SURVEY of a sheet in a state that takes them wait for
the datum, and elsewhere end with ARG or STATE; a survey ends with the failures among its tests; readmission that passes leaves
every byte of the sheet 0 and no other byte changed, and one that fails notes the failed check; a completed drain ends in RETIRED, or in READMIT where one is pending. -/
def Obligations.SheetCommands : Prop :=
  ∀ (s : State),
    let d := s.sfyDie
    let x := s.sheet d
    (s.powered = true → s.sfyRestarting = false → s.sfy.booted = true → s.sfy.surv = none →
      (∀ y ∈ [(Instr.retire, 1), (.readmit, 3)],
        (s.sheetFitted d = false → Answers y.1 s fun t => t.sfy = { s.sfy with result := 4 } ∧ s.spares t) ∧
        (s.sheetFitted d = true → s.sheetModeRefuses = true → Answers y.1 s fun t => t.sfy = { s.sfy with result := 3 } ∧ s.spares t)) ∧
      (s.sheetFitted d = true → s.sheetModeRefuses = false →
        (x.st = .inService → Answers .retire s fun t => t.sfy = { s.sfy with result := 1, sheetReqs := s.sfy.sheetReqs ++ [(1, d)] } ∧ s.spares t) ∧
        (x.st ≠ .inService → (x.st ≠ .draining ∨ x.pend = false) → Answers .retire s fun t => t.sfy = { s.sfy with result := 3 } ∧ s.spares t) ∧
        ((x.st = .retired ∨ x.st = .draining) → Answers .readmit s fun t =>
          t.sfy = { s.sfy with result := 1, sheetReqs := s.sfy.sheetReqs ++ [(3, d)] } ∧ s.spares t) ∧
        (x.st ≠ .retired → x.st ≠ .draining → Answers .readmit s fun t => t.sfy = { s.sfy with result := 3 } ∧ s.spares t)) ∧
      (s.sheetFitted d = true → x.st = .retired → Answers .survey s fun t =>
        t = { s with sfy := { s.sfy with result := 0, surv := some (d, s.rf (sfyReg 0x28) 0 4), sheetReqs := s.sfy.sheetReqs ++ [(2, d)] } }) ∧
      (s.sheetFitted d = true → x.st ≠ .retired → Answers .survey s fun t => t.sfy = { s.sfy with result := 3 } ∧ s.spares t)) ∧
    (∀ e tests, ∀ m : BitVec 4, s.sfy.surv = some (e, tests) → s.powered = true → (s.sheet e).st = .survey → Answers (.surveyEnd m) s fun t =>
      t.sfy.surv = none ∧ t.sfy.survFail = m.toNat &&& tests ∧ t.sfy.survDie = e ∧ t.sfy.result = 1 ∧
      t.sheet e = { s.sheet e with surveyed := true } ∧ s.spares t) ∧
    (∀ e f, s.powered = true → s.sheetFitted e = true → (s.sheet e).st = .readmit → (s.sheet e).checked = none →
      Answers (.readmissionChecks e 0) s (fun t => t.sheet e = { s.sheet e with checked := some 0 } ∧
        ∀ a, t.byte a = if 0x10000000 + (e - 1) * 0x01000000 ≤ a ∧ a < 0x10000000 + (e - 1) * 0x01000000 + 0x01000000 then 0 else s.byte a) ∧
      (1 ≤ f → f ≤ 5 → Answers (.readmissionChecks e f) s fun t => t.sheet e = { s.sheet e with checked := some f } ∧ s.spares t)) ∧
    (∀ e, s.blockLive 0 = true → s.sheetFitted e = true → s.atDatum = true → s.drained e = true → Answers (.drainComplete e) s fun t =>
      (t.sheet e).st = (if (s.sheet e).pend then .readmit else .retired) ∧ ∀ k, k ≠ e → t.sheet k = s.sheet k)

/-- R336, R337: SHUT is noted unless the cell is in BOOT and takes a RESUME that waits with it; RESUME is noted unless SHUT waits; a
completed shut-down turns the bus off and leaves the cell in SHUTDOWN, or in INTEGRATE where RUN is pending. At a datum a running
cell enters SAFE_HOLD when the bus or the redundancy state is lost, and else is in RUN, or DEGRADED with a DG bit set. -/
def Obligations.CellMode : Prop :=
  ∀ (s : State), 
    (s.blockLive 0 = true →
      (s.sys.mode ≠ .boot → Answers .shut s fun t => t = { s with sys := { s.sys with shutReq := true, resumeReq := false } }) ∧
      (s.sys.mode = .boot → Answers .shut s fun t => t = s) ∧
      (s.sys.shutReq = false → Answers .resume s fun t => t = { s with sys := { s.sys with resumeReq := true } }) ∧
      (s.sys.shutReq = true → Answers .resume s fun t => t = s) ∧
      (s.atDatum = true → s.shutOver = true → Answers .shutdownComplete s fun t => t.bus.st = .off ∧ s.spares t ∧
        (s.sys.pendRun = false → t.sys.mode = .shutdown ∧ t.sys.shutDone = true) ∧ (s.sys.pendRun = true → t.sys.mode = .integrate ∧ t.sys.enNext = true))) ∧
    (s.sys.enNext = false → s.sys.shutReq = false →
      let lost := s.bus.st ≠ .active ∨ s.rdnActive = false
      ((s.sys.mode = .run ∨ s.sys.mode = .degraded) → (lost → (s.cellDatum).sys.mode = .safeHold) ∧
        (¬lost → (s.cellDatum).sys.mode = if (s.dgUpdate).sys.degraded then .degraded else .run)) ∧
      (s.sys.mode = .integrate → (s.mayRun = true → (s.cellDatum).sys.mode = if (s.dgUpdate).sys.degraded then .degraded else .run) ∧
        (s.mayRun = false → (s.cellDatum).sys.mode = .integrate)) ∧
      (s.sys.mode = .safeHold → s.sys.resumeReq = false → (s.cellDatum).sys.mode = .safeHold)) ∧
    (s.sys.enNext = false → s.sys.shutReq = true → (s.sys.mode = .run ∨ s.sys.mode = .degraded ∨ s.sys.mode = .integrate ∨ s.sys.mode = .safeHold) →
      (s.cellDatum).sys.mode = .shutdown)

/-! ### Surveyor -/

/-- R361, R367, R370, R375, R376: CONFIRM makes the image in use GOOD by clearing bits of its STATE and, where it is asked to, raises MINSEQ to its SEQNO; SFYSWITCH to a valid
flash starts a restart; the end of a restart puts its image in use; without CONFIRM for 60 s the image is marked BAD and the
other one restarts; FLASHWR refuses its bad arguments and the image in use, and else programs the bytes of hub SRAM. -/
def Obligations.SurveyorImages : Prop :=
  ∀ (s : State), s.powered = true →
    let b := s.sfy.useB
    let fb (t : State) (x : Bool) : Nat := if x then t.sfy.stateB else t.sfy.stateA
    (s.sfyRestarting = false → s.sfy.booted = true → s.sfy.surv = none → Answers .confirm s fun t =>
      t.flashStat b 0 = s.flashStat b 0 &&& 0x0F ∧ fb t b = t.flashState b ∧ (s.flashState b ≠ 2 → t.flashState b = 1) ∧ t.sfy.confirmBy = none ∧ t.sfy.result = 1 ∧ s.spares t ∧
      t.sfy.minSeq = (if s.rb (sfyReg 0x24) 0 = true ∧ s.sfy.minSeq < s.flashSeq b ∧ s.sfy.raises < 255 then s.flashSeq b else s.sfy.minSeq)) ∧
    (s.sfyRestarting = false → s.sfy.booted = true → s.sfy.surv = none → s.bootCheck (!b) = 0 → let u := (s.scanFlash (!b)).1
      (u.flashState (!b) ≠ 2 → Answers .sfyswitch s fun t => t.sfy.busy = .restart (!b) false ∧ t.sfy.useB = b ∧ s.spares t) ∧
      (u.flashState (!b) = 2 → Answers .sfyswitch s fun t => t.sfy.busy = s.sfy.busy ∧ t.sfy.result = 3 ∧ s.spares t)) ∧
    (∀ x r, s.sfy.busy = .restart x r → Answers .sfyRestart s fun t => t.sfy.busy = .none ∧ t.sfy.useB = x ∧ t.sfy.booted = true ∧
      (r = false → t.sfy.confirmBy = some (s.upNs + 60000000000) ∧ t.sfy.result = 1) ∧ (r = true → t.sfy.confirmBy = none) ∧ s.spares t) ∧
    (∀ k, s.sfy.confirmBy = some k → s.sfyRestarting = false → k ≤ s.upNs → Answers .rollback s fun t =>
      t.flashState b = 2 ∧ fb t b = 2 ∧ t.sfy.busy = .restart (!b) true ∧ s.spares t) ∧
    (s.sfyRestarting = false → s.sfy.surv = none →
      let a0 := (s.rd (sfyReg 0x24)).toNat
      let src := (s.rd (sfyReg 0x28)).toNat
      let n := (s.rd (sfyReg 0x3C)).toNat
      let x := bitN a0 0
      let o := a0 / 4096 * 4096
      let bad := n < 256 ∨ 1048576 < n ∨ n % 256 ≠ 0 ∨ hubRange src n = false ∨ 0x1000000 < o + n
      (bad → Answers (.flashwr true) s fun t => t.sfy = { s.sfy with result := 4 } ∧ s.spares t) ∧
      (¬bad → s.sfy.booted = true → x = b → Answers (.flashwr true) s fun t => t.sfy = { s.sfy with result := 11 } ∧ s.spares t) ∧
      (¬bad → (s.sfy.booted = false ∨ x ≠ b) → s.readable src n → 0x10000 ≤ o → Answers (.flashwr true) s fun t =>
        (t.flash x).read o n = s.bytes src n ∧ t.flash (!x) = s.flash (!x) ∧ t.sfy.result = 1 ∧ s.spares t))

/-- R364–R366, R374: an unsigned KEYENROL of a blank role from the console enrols its key, one from the port ends with SIG; a record with
a bad layout ends with FORMAT; a record signed under the newest key, with a SEQNO above the last, takes its effect: the key is
enrolled, or WRST_N is ignored from then on. The port or the console is answered with the SFY_CMDST value. -/
def Obligations.SignedCommands : Prop :=
  ∀ (s : State) (l : List Byte), s.powered = true → s.sfyRestarting = false → s.sfy.booted = true → s.sfy.surv = none →
    let r := l.take (leAt l 8 4)
    let sig := r.drop (r.length - 64)
    let role := leAt r 5 1
    let keys (t : State) (k : Nat) : List (List Byte) := Table.get (fun _ => []) t.sfy.keys k
    let here := leAt r 16 4 = s.sys.uid0 ∧ leAt r 20 4 = s.sys.uid1
    let good (k : Nat) := (s.sfy.lastSeq.any fun x => x.1 == k && decide (leAt r 12 4 ≤ x.2)) = false ∧
      ∃ y, s.topKey k = some y ∧ ecdsaOk y sig (sha256 (r.take (r.length - 64))) = true
    let enrols (t : State) : Prop := keys t role = keys s role ++ [(r.drop 32).take 64] ∧ (∀ k, k ≠ role → keys t k = keys s k) ∧
      t.sfy.result = 1 ∧ s.spares t
    (∀ p ∈ [SignedSrc.port l, .console l],
      (signedFormat 2 l = false → Answers (.keyenrol p) s fun t => t.sfy = { s.sfy with result := 9, answer := some (isConsole p, 9) } ∧ s.spares t) ∧
      (signedFormat 1 l = false → Answers (.resetMask p []) s fun t => t.sfy = { s.sfy with result := 9, answer := some (isConsole p, 9) } ∧ s.spares t) ∧
      (signedFormat 2 l = true → ¬here → Answers (.keyenrol p) s fun t => t.sfy = { s.sfy with result := 7, answer := some (isConsole p, 7) } ∧ s.spares t) ∧
      (signedFormat 2 l = true → here → good role → (keys s role).length < 4 → Answers (.keyenrol p) s fun t => enrols t ∧ t.sfy.answer = some (isConsole p, 1)) ∧
      (signedFormat 1 l = true → here → good 1 → s.sys.wrst = false → Answers (.resetMask p []) s fun t =>
        t.sfy.masked = true ∧ t.sfy.result = 1 ∧ s.spares t)) ∧
    (signedFormat 2 l = true → here → s.topKey role = none → (keys s role).length < 4 →
      (sig.all (· == 0#8) = true → Answers (.keyenrol (.console l)) s enrols) ∧
      Answers (.keyenrol (.port l)) s fun t => t.sfy = { s.sfy with result := 5, answer := some (false, 5) } ∧ s.spares t)

/-! ### Power-on, warm reset, datum -/

/-- R234, R301, R317, R344, R372–R374: while power-on or the internal reset is asserted no register, core, item or byte of SRAM keeps its
value, and fuses, flashes and the legal store keep theirs; WRST_N low holds the cores, the dispatcher, the engines and the bus in
their reset state and keeps hub SRAM; ignored by the mask, it changes none of them; a reset of more than 10 s is reported. BOOT runs the
image that R370 selects, or leaves Surveyor in its ROM; the release of WRST_N keeps the image in use. -/
def Obligations.Resets : Prop :=
  ∀ (s : State),
    let wiped (t : State) : Prop := t.mem = [] ∧ t.regs = [] ∧ t.cores = [] ∧ t.wdx = {} ∧ t.trv = [] ∧ t.sle = [] ∧ t.tri = [] ∧ t.dma = [] ∧
      t.bus = {} ∧ t.ctm = { pins := s.ctm.pins, off := s.ctm.off } ∧ t.sfy.flashA = s.sfy.flashA ∧ t.sfy.flashB = s.sfy.flashB ∧ t.sfy.keys = s.sfy.keys ∧ t.sfy.minSeq = s.sfy.minSeq ∧
      t.crt = { store := s.crt.store } ∧ t.pending = s.pending
    Answers .porstNLow s (fun t => wiped t ∧ t.sys.porst = true ∧ t.sys.internal = s.sys.internal ∧ t.sfy.lastRst = 1) ∧
    (s.sys.internal = false → Answers .internalReset s fun t => wiped t ∧ t.sys.internal = true ∧ t.sys.porst = s.sys.porst ∧ t.sfy.lastRst = 3) ∧
    (s.sys.internal = true → Answers .internalReset s fun t => t = { s with sys := { s.sys with orOk := 0 } }) ∧
    (s.powered = true → s.sfy.wrstPin = false →
      (s.sfy.masked = false → Answers .wrstNLow s fun t => t.sys.wrst = true ∧ t.sfy.wrstPin = true ∧ t.sfy.lowAt = s.upNs ∧ t.sys.mode = .boot ∧
        t.wdx.items = [] ∧ t.dma = [] ∧ t.trv = [] ∧ t.sle = [] ∧ t.tri = [] ∧ t.bus.st = .off ∧ t.ctm.wrst = true ∧
        (∀ a, a < 0x02000000 → t.byte a = s.byte a) ∧ ∀ c, c.die = 0 → c.idx < 4 → (t.core c).item = none) ∧
      (s.sfy.masked = true → Answers .wrstNLow s fun t => t.sys = s.sys ∧ t.sfy = { s.sfy with wrstPin := true, lowAt := s.upNs } ∧ s.spares t)) ∧
    (s.powered = true → s.sfy.wrstPin = true → s.sfy.masked = true → Answers (.wrstNRelease []) s fun t =>
      t.sys = s.sys ∧ t.sfy = { s.sfy with wrstPin := false, heldMs := s.lowMs, stuck := false } ∧ s.spares t) ∧
    (∀ f, s.powered = true → s.sfy.wrstPin = true → s.sfy.masked = false → Answers (.wrstNRelease f) s fun t =>
      t.sys.wrst = false ∧ t.sfy.wrstPin = false ∧ t.sfy.useB = s.sfy.useB ∧ t.ctm.wrst = false ∧ (s.sfy.booted = false → ∀ a, t.byte a = s.byte a)) ∧
    (s.powered = true → s.sys.wrst = true → s.sfy.stuck = false → 10000000000 ≤ s.upNs - s.sfy.lowAt → Answers .resetStuck s fun t =>
      t.sfy.stuck = true ∧ s.spares t) ∧
    (∀ c p f, s.powered = false → s.held = false → Answers (.boot c p f) s fun t =>
      let u := ((s.scanFlash false).1.scanFlash true).1
      t.sys.porst = false ∧ t.sys.internal = false ∧ t.sys.strapCompat = c ∧ t.sys.priSel = p ∧
      (∀ b, u.pickFlash = some b → t.sfy.booted = true ∧ t.sfy.useB = b) ∧
      (u.pickFlash = none → t.sfy.booted = false ∧ (∀ a, t.byte a = s.byte a) ∧ ∀ k, k.die = 0 → k.idx < 4 → (t.core k).relClk = s.mer.clocks))

/-- R30, R335: a datum does its shares in this order: what the ending cycle owes, the sample of the pins, Meridian, the encoder
latches, the Contour pass, the states of redundancy, sheets, cell and bus, the engines and streams, and the outputs of SYS. Meridian's
share counts the cycle and restarts the phase; the Contour share opens a decision; the pins are sampled where they are inputs. -/
def Obligations.DatumOrder : Prop :=
  ∀ (s : State) (pins : W32) (clocks : Nat),
    (s.powered = true → Answers (.datum pins clocks) s fun t =>
      let a := (((s.datumOwed).gpioSample pins).merDatum).latchEnc.contourDatum clocks
      t = ((a.statesDatum a.planDatum).blocksDatum ((s.datumOwed).mer.target - 1000 * unitNs) a.planDatum ((s.datumOwed).mer.target / unitNs)).sysDatum) ∧
    (s.powered = false → Answers (.datum pins clocks) s fun t => t = s) ∧
    (s.mer.place = none → (s.merDatum).mer.cycle = (s.mer.cycle + 1) % 2 ^ 48 ∧ (s.merDatum).mer.place = none ∧
      (0 < s.mer.inc → s.mer.phase < s.mer.target → (s.merDatum).mer.phase < s.mer.inc)) ∧
    ((s.contourDatum clocks).ctm.decided = false ∧ (s.contourDatum clocks).ctm.proc = none) ∧
    (∀ i, i < 32 → (s.gpioSample pins).sys.gpioIn.getLsbD i = if s.sys.gpioDir.getLsbD i then s.sys.gpioOut.getLsbD i else pins.getLsbD i) ∧
    (s.sysDatum).sys.gpioOut = s.rd (rg 0 0 0x24) ∧ (s.sysDatum).sys.gpioDir = s.rd (rg 0 0 0x20)

/-- R359, R360, R392: a sample of a fitted sensor is what its register reports; a temperature above the maximum so far becomes the maximum; one
above CRIT shuts the cell down where that is enabled; a rail outside 5 % of its nominal voltage sets LOW or HIGH. -/
def Obligations.SensorSamples : Prop :=
  ∀ (s : State) (n : Nat) (v : Int) (mv : Nat), s.powered = true →
    let r := sfyReg (0x100 + 4 * n)
    let q := sfyReg (0x140 + 4 * n)
    let lim (i : Nat) : Int := (s.rf (sfyReg 0x80) (8 * i) 8 : Nat)
    (s.tempFitted n = true → -32768 ≤ v → v ≤ 32767 → Answers (.sensorSample [(n, v)] []) s fun t =>
      (Table.get (fun _ => ({} : TSensor)) t.sfy.temps n).t = v ∧ s.spares t ∧
      (sxt 16 (s.rf r 16 16) < v → sxt 16 (t.rf r 16 16) = v) ∧
      (lim 1 * 16 < v → (Table.get (fun _ => ({} : TSensor)) s.sfy.temps n).crit = false → s.rb (sfyReg 0x80) 16 = true → s.sys.mode ≠ .boot →
        t.sys.shutReq = true)) ∧
    (s.railFitted n = true → mv < 65536 → Answers (.sensorSample [] [(n, mv)]) s fun t => Table.get (fun _ => 0) t.sfy.vmon n = mv ∧ s.spares t ∧
      (mv * 100 < railNominal n * 95 → t.rb q 16 = true) ∧ (railNominal n * 105 < mv * 100 → t.rb q 17 = true) ∧
      (railNominal n * 95 ≤ mv * 100 → mv * 100 ≤ railNominal n * 105 → t.regs = s.regs)) ∧
    (s.tempFitted n = false → s.railFitted n = false → Answers (.sensorSample [(n, v)] [(n, mv)]) s fun t => t = s)

/-! ### Redundancy and feeds -/

/-- R339, R345–R354: a change of ACT_IN without a conflict is noted with its time; with ACT_OUT high it is a conflict, which the unit
that does not count as primary ends in STANDBY, counted once; an expired hold time is noted for the datum; one heartbeat of a cycle goes,
50 µs after the datum, to the partner port with the next HBSEQ; a heartbeat that fails a check is counted, one that passes ends PLOST and brings the partner's state; too many
cycles without one set PLOST, from 50 µs after the datum on; SHADOW_DIGEST forms the CRC of its region; ISOLATE and REJOIN wait for the datum and take effect there. -/
def Obligations.Redundancy : Prop :=
  ∀ (s : State) (level : Bool) (l : List Byte),
    let r := s.rdn
    (s.powered = true →
      (r.actIn = level → Answers (.actInChange level) s fun t => t = s) ∧
      (r.actIn ≠ level → (r.paired = false ∨ level = false ∨ r.actOut = false) → Answers (.actInChange level) s fun t =>
        t = { s with rdn := { r with actIn := level, lowSince := if level then r.lowSince else s.upNs, holdDone := false } }) ∧
      (r.actIn = false → r.paired = true → r.actOut = true → Answers (.actInChange true) s fun t => t.rdn.actIn = true ∧ s.spares t ∧
        t.rf (rdnReg 0x2C) 0 16 = min (s.rf (rdnReg 0x2C) 0 16 + 1) 65535 ∧
        (s.priHigh = true → t.rdn.st = r.st) ∧ (s.priHigh = false → t.rdn.st = .standby)) ∧
      (r.paired = true → r.beatCyc ≠ some s.mer.cycle → Answers .heartbeatSend s fun t =>
        let u := s.runTo 50000
        t.rdn = { r with hbseq := (r.hbseq + 1) % 65536, beatCyc := some s.mer.cycle } ∧
        t.host (!r.portB) = u.host (!r.portB) ∧ { t with rdn := u.rdn, hostA := u.hostA, hostB := u.hostB } = u ∧
        ((s.host r.portB).on = true → (t.host r.portB).beat = some u.beatFrame)) ∧
      (r.paired = true → r.beatCyc = some s.mer.cycle → Answers .heartbeatSend s fun t => t = s) ∧
      (r.paired = true → (l.length < 64 ∨ crcOf (l.take 60) ≠ leAt l 60 4 ∨ leAt l 0 1 % 16 ≠ 1 ∨ leAt l 2 1 ≠ s.partner) →
        Answers (.heartbeatReceive l) s fun t => t = s.count (rdnReg 0x14) 16 16) ∧
      (r.paired = true → 64 ≤ l.length → crcOf (l.take 60) = leAt l 60 4 → leAt l 0 1 % 16 = 1 → leAt l 2 1 = s.partner →
        (leAt l 8 6 = s.mer.cycle ∨ (leAt l 8 6 + 1) % 2 ^ 48 = s.mer.cycle) → Answers (.heartbeatReceive l) s fun t =>
          t.rdn.kept = true ∧ t.rdn.plost = false ∧ t.rdn.miss = 0 ∧ t.rdn.pstate = leAt l 1 1 % 4 ∧ t.rdn.phealth = leAt l 28 4 ∧ s.spares t) ∧
      (Answers .isolate s fun t => t = { s with rdn := { r with cmdPend := 1 } }) ∧
      (Answers .rejoin s fun t => t = { s with rdn := { r with cmdPend := 2 } })) ∧
    (s.sys.wrst = false → r.paired = true → r.st = .standby → r.actIn = false → r.lowSince + (if s.priHigh then 2000000 else 6000000) ≤ s.upNs →
      Answers .takeover s fun t => t = { s with rdn := { r with holdDone := true } }) ∧
    (r.paired = true → r.kept = false → 50000 * unitNs ≤ s.mer.phase → fld r.cfg.toNat 16 8 ≤ r.miss + 1 → Answers .plost s fun t => t.rdn.plost = true ∧ s.spares t) ∧
    (r.paired = true → s.mer.cycle % s.mer.planN = 0 → r.digestOk = false → r.st ≠ .isolated → s.rf (rdnReg 0x1C) 0 17 ≠ 0 →
      hubRange ((s.rd (rdnReg 0x18)).toNat * 256) (s.rf (rdnReg 0x1C) 0 17) = true →
      s.readable ((s.rd (rdnReg 0x18)).toNat * 256) (s.rf (rdnReg 0x1C) 0 17) → Answers .shadowDigest s fun t =>
        t.rdn = { r with digest := crcOf (s.bytes ((s.rd (rdnReg 0x18)).toNat * 256) (s.rf (rdnReg 0x1C) 0 17)), planCyc := s.mer.cycle, digestOk := true, compared := false } ∧ s.spares t) ∧
    (r.cmdPend = 1 → s.rdnCommand.rdn.st = .isolated ∧ s.rdnCommand.rdn.result = 1) ∧
    (r.cmdPend = 2 → r.st = .isolated → healthClean s.healthBits = true → s.rdnCommand.rdn.st = .standby ∧ s.rdnCommand.rdn.result = 1) ∧
    (r.cmdPend = 2 → r.st ≠ .isolated → s.rdnCommand.rdn = { r with cmdPend := 0, result := 2 })

/-- R342–R344, R355, R356: a sample gives each feed the class of its run of samples; 1 ms of undervoltage is UV, 1 ms of overvoltage OV, 10 ms of overcurrent
OC; below 9.5 V after the OR elements the internal reset is asserted, and it holds until that voltage has been above 10.0 V for 10 ms; a reverse current sets REV; a write ends a BLOCK; the latent items are noted each second. -/
def Obligations.SupplyFeeds : Prop :=
  ∀ (s : State) (va aa vb ab vo : Nat) (b : Bool), s.powered = true →
    let f := s.feed b
    (9500 ≤ vo → Answers (.feedSample va aa vb ab vo) s fun t => s.spares t ∧
      t.feedA.cls = (s.feedA.sample va aa).classify ∧ t.feedB.cls = (s.feedB.sample vb ab).classify ∧
      t.feedA.mv = va % 65536 ∧ t.feedB.mv = vb % 65536 ∧
      (va < 10800 → 19 ≤ s.feedA.nUv → t.feedA.cls = 1) ∧ (13200 < va → 19 ≤ s.feedA.nOv → t.feedA.cls = 2) ∧
      (10800 ≤ va → va ≤ 13200 → 5000 < aa → 199 ≤ s.feedA.nOc → t.feedA.cls = 3)) ∧
    (vo < 9500 → s.sys.internal = false → Answers (.feedSample va aa vb ab vo) s fun t => t.sys.internal = true ∧ t.mem = [] ∧ t.held = true) ∧
    (∀ h : State, h.sys.internal = true →
      (∀ y ∈ [Instr.boot true true [], .boot false false []], h.held = true → Answers y h fun t => t = h) ∧
      (vo < 9500 → Answers (.feedSample va aa vb ab vo) h fun t => t = { h with sys := { h.sys with orOk := 0 } }) ∧
      (9500 ≤ vo → vo ≤ 10000 → h.sys.orOk < 200 → Answers (.feedSample va aa vb ab vo) h fun t => t = { h with sys := { h.sys with orOk := 0 } }) ∧
      (10000 < vo → h.sys.orOk < 200 → Answers (.feedSample va aa vb ab vo) h fun t =>
        t = { h with sys := { h.sys with orOk := h.sys.orOk + 1 } } ∧ (t.held = true ↔ h.sys.orOk < 199))) ∧
    Answers (.rev b) s (fun t => t.rb (pwrReg 0) (8 + b.toNat) = true ∧ s.spares t) ∧
    Answers (.block b false) s (fun t => t.feed b = { f with blocked := false } ∧ t.feed (!b) = s.feed (!b) ∧ t.rb (pwrReg 0x0C) b.toNat = false) ∧
    Answers .latentUpdate s fun t => t.feed b = (if f.carry then { f with lat := s.mer.sec % 2 ^ 32 } else f) ∧
      t.rdn.latTx = (if s.rdn.st = .active then s.mer.sec % 2 ^ 32 else s.rdn.latTx) ∧ { t with feedA := s.feedA, feedB := s.feedB, rdn := s.rdn } = s

/-- R356: BLOCK is refused, and leaves the field at 0, when the other feed is not OK or is itself blocked; else it stands for BLKTMO seconds.
It is released when the other feed leaves OK, by its class or by REV, and when its time is up, not before; each release counts
in BLKREL. -/
def Obligations.SupplyBlocks : Prop :=
  ∀ (s : State) (va aa vb ab vo : Nat) (b : Bool), s.powered = true →
    let f := s.feed b
    let o := s.feed (!b)
    let released (t : State) : Prop := (t.feed b).blocked = false ∧ t.rb (pwrReg 0x0C) b.toNat = false ∧
      t.rf (pwrReg 0x18) 16 8 = min (s.rf (pwrReg 0x18) 16 8 + 1) 255 ∧ s.spares t
    (f.blocked = false → (s.feedOk (!b) = false ∨ o.blocked = true) → Answers (.block b true) s fun t =>
      t.feed b = f ∧ t.feed (!b) = o ∧ t.rb (pwrReg 0x0C) b.toNat = false ∧ { t with regs := s.regs } = s) ∧
    (f.blocked = false → s.feedOk (!b) = true → o.blocked = false → Answers (.block b true) s fun t =>
      t.feed b = { f with blocked := true, blkUntil := s.upNs + s.rf (pwrReg 0x0C) 8 8 * 1000000000 } ∧ t.feed (!b) = o ∧
      t.rb (pwrReg 0x0C) b.toNat = true ∧ s.spares t) ∧
    (f.blocked = true → o.blocked = false →
      (9500 ≤ vo → (if b then (o.sample va aa).classify else (o.sample vb ab).classify) ≠ 0 → Answers (.feedSample va aa vb ab vo) s released) ∧
      Answers (.rev (!b)) s released ∧
      (f.blkUntil ≤ s.upNs → Answers (.blktmoExpiry b) s fun t => released t ∧ t.feed (!b) = o) ∧
      (s.upNs < f.blkUntil → Answers (.blktmoExpiry b) s fun t => t = s))

/-! ### The register path -/

/-- R9–R13, R23, R24, R48: a write of a register that only stores takes its fields under their access codes and changes nothing else; an
unaligned or unmapped access and one to CSM change nothing; the set and clear registers of the outputs; COMPAT, ignored while the strap is low and refused while an axis
moves; a read returns the stored and the computed bits, and one of MER_TIME0 captures the words above it; LW, LWU and SW of a
core reach the register of their address, SW of CSM raises BUSERR. -/
def Obligations.RegisterPath : Prop :=
  ∀ (s : State) (m : Master) (a : BitVec 40) (v : W32),
    (∀ r ∈ [rg 0 0 0x20, rg 0 0 0x24, merR 0x20, merR 0x30, merR 0x34, merR 0x38, merR 0x40, vba 0x110, vba 0x11C, sfyReg 0x24, sfyReg 0x28, crtReg 0x34,
        pwrReg 0x1C, rdnReg 0x18, ctmReg 0x04, ctmReg 0x14, dmaReg 0 0 0x00, trvReg 1 0 0x04, sleReg 1 0 0x04, triReg 1 0x14],
      (r = dmaReg 0 0 0x00 → (s.ch 0 0).st = .idle ∨ (s.ch 0 0).st = .halted) → whereIs a.toNat = .reg r → a.toNat % 4 = 0 → s.regLive r = true →
        Answers (.registerWrite m a v) s fun t => t = s.wr r (plainWrite r (s.rd r) v)) ∧
    ((a.toNat % 4 ≠ 0 ∨ whereIs a.toNat = .none ∨ ∃ r, whereIs a.toNat = .reg r ∧ (r / 2 ^ 24 = 0x0C ∨ s.regOk r = false)) →
      Answers (.registerWrite m a v) s fun t => t = s) ∧
    (∀ r, whereIs a.toNat = .reg r → a.toNat % 4 = 0 → s.regLive r = true →
      (r = merR 0x08 → Answers (.captureRead m a) s fun t => t.busData = BitVec.ofNat 32 s.ns ∧ t.capOf (merR 0x0C) = BitVec.ofNat 32 (s.mer.sec % 2 ^ 32) ∧
        t.capOf (merR 0x10) = BitVec.ofNat 32 (s.mer.sec / 2 ^ 32) ∧ { t with busData := s.busData, cap := s.cap } = s) ∧
      (r = merR 0x0C ∨ r = merR 0x10 → Answers (.captureRead m a) s fun t => t = { s with busData := s.capOf r }) ∧
      (r ∈ [rg 0 0 0x20, rg 0 0 0x24, merR 0x20, merR 0x30, vba 0x110, sfyReg 0x24, rdnReg 0x18, ctmReg 0x04] →
        Answers (.captureRead m a) s fun t => t = { s with busData := s.rd r })) ∧
    (s.powered = true →
      Answers (.sysGpioset v) s (fun t => t = s.wr (rg 0 0 0x24) (s.rd (rg 0 0 0x24) ||| v)) ∧
      Answers (.sysGpioclr v) s (fun t => t = s.wr (rg 0 0 0x24) (s.rd (rg 0 0 0x24) &&& ~~~v)) ∧
      ∀ b, (s.sys.strapCompat = false ∨ b = s.rb (rg 0 0 0x04) 0 → Answers (.sysCompatWrite b) s fun t => t = s) ∧
        (s.sys.strapCompat = true → b ≠ s.rb (rg 0 0 0x04) 0 →
          (s.anyMoving = false → Answers (.sysCompatWrite b) s fun t => t.rb (rg 0 0 0x04) 0 = b ∧ t.sys = { s.sys with compatNext := some b } ∧
            { t with regs := s.regs, sys := s.sys } = s))) ∧
    (∀ (c : CoreId) (hint : BitVec 2) (rt ra : Reg) (disp : BitVec 14) (r : Nat), s.ready c = true → hint ≠ 3 →
      let u := s.fetched c
      whereIs (s.address c ra disp) = .reg r → s.address c ra disp % 4 = 0 → u.regOk r = true →
        Answers (.lw c hint rt ra disp) s (fun t => t = (u.regRead (.core c) r).2.put c rt (BitVec.ofInt 64 (u.regRead (.core c) r).1.toInt)) ∧
        Answers (.lwu c hint rt ra disp) s (fun t => t = (u.regRead (.core c) r).2.put c rt (BitVec.ofNat 64 (u.regRead (.core c) r).1.toNat)) ∧
        (r / 2 ^ 24 ≠ 0x0C → Answers (.sw c hint rt ra disp) s fun t => t = (u.regWrite (.core c) r ((s.reg c rt).setWidth 32)).pc4 c) ∧
        (r / 2 ^ 24 = 0x0C → s.hasHandler c → Answers (.sw c hint rt ra disp) s fun t => u.trapped t c (excBus (s.address c ra disp))))

/-- R23: a write that would change TRV_LEGACY while an axis is in motion, by the command or by the register's address, leaves the field and
all else as it is, and the refusal joins the Field Book. -/
def Obligations.CompatChangeRefused : Prop :=
  ∀ (s : State) (m : Master) (v : W32), s.powered = true → s.anyMoving = true → s.sys.strapCompat = true → v.getLsbD 0 ≠ s.rb (rg 0 0 0x04) 0 →
    ∀ x ∈ [Instr.sysCompatWrite (v.getLsbD 0), Instr.registerWrite m 0xF000000004#40 v], Answers x s fun t =>
      t.rb (rg 0 0 0x04) 0 = s.rb (rg 0 0 0x04) 0 ∧ t.fb = (s.log 0x0021 2 0 0 0x00000004 (v.getLsbD 0).toNat 0).fb ∧ { t with fb := s.fb } = s

/-- R43, R44, R61: the word that spells a well-formed command of a core reads as that command, unless a reserved value in an operand makes it ILLEGAL;
and every word without an instruction reads as ILLEGAL. R62, R69, R112, R165, R196, R328, R381: a command with a code that its unit does not assign ends
with BADCMD, 5 in CMDST or in rd, or 12 for Surveyor, and has no other effect; ENGR with such a code raises ENGADDR sub-code 3 once its selector
passed. -/
def Obligations.UnassignedCodes : Prop :=
  (∀ (i : Instr) (c : CoreId) (w : W32), i.wf = true → encodeWord i = some (c, w) → decodeWord c w = if wordIllegal w then .illegal c w else i) ∧
  (∀ (c : CoreId) (w : W32), wordIllegal w = true → decodeWord c w = .illegal c w) ∧
  ∀ (s : State) (d n : Nat) (k : BitVec 8), d ≤ 6 → s.blockLive d = true →
    (n < trvAxes d → trvCodes.contains k.toNat = false → Answers (.badcmd (.trv d n k)) s fun t =>
      t.trvAx d n = { s.trvAx d n with cmdSt := 5 } ∧ { t with trv := s.trv } = s) ∧
    (1 ≤ d → n < 24 → (k = 0 ∨ 0x0B < k.toNat) → Answers (.badcmd (.sle d n k)) s fun t =>
      (t.sleAx d n).cmdSt = 5 ∧ (t.sleOf d).cmds = (s.sleOf d).cmds ∧ { t with sle := s.sle } = s) ∧
    (1 ≤ d → (k = 0 ∨ 3 < k.toNat) → Answers (.badcmd (.tri d k)) s fun t => t.triOf d = { s.triOf d with cmdSt := 5 } ∧ { t with tri := s.tri } = s) ∧
    (n < 16 → (k = 0 ∨ 2 < k.toNat) → Answers (.badcmd (.dma d n k)) s fun t => t.ch d n = { s.ch d n with cmdSt := 5 } ∧ { t with dma := s.dma } = s) ∧
    (s.powered = true → s.sfyRestarting = false → s.sfy.booted = true → s.sfy.surv = none → (k = 0 ∨ (6 < k.toNat ∧ k.toNat ≠ 0x10)) →
      Answers (.badcmd (.sfy k)) s fun t => t.sfy = { s.sfy with result := 12 } ∧ s.spares t) ∧
    (∀ (c : CoreId) (eng : BitVec 3) (rd ra rb : Reg), s.ready c = true → s.selector eng.toNat (s.reg c rb).toNat = .inr (d, n) →
      ((eng.toNat ≤ 1 ∧ trvCodes.contains k.toNat = false) ∨ (eng = 2 ∧ (k = 0 ∨ 0x0B < k.toNat)) ∨ (eng = 3 ∧ (k = 0 ∨ 3 < k.toNat)) ∨
        (eng = 4 ∧ (k = 0 ∨ 2 < k.toNat))) →
      Answers (.badcmd (.engw c eng k rd ra rb)) s fun t => (s.fetched c).wrote t c rd (refusal 5) false) ∧
    (∀ (c : CoreId) (eng : BitVec 3) (rd rb : Reg), s.ready c = true → s.hasHandler c → (s.fetched c).selector eng.toNat (s.reg c rb).toNat = .inr (d, n) →
      eng.toNat ≤ 4 → codeIn (engrAssigned eng.toNat) k.toNat = false →
      Answers (.badcmd (.engr c eng k rd rb)) s fun t => (s.fetched c).trapped t c (excEng 3 (s.reg c rb).toNat))

/-! ### The machine -/

/-- A step takes the command at the front of the queue and gives it its effect on the state with the queue's rest. The order of
the queue is the model's own frame. -/
def Obligations.StepTakesFront : Prop :=
  ∀ (c : Instr) (s : State) (rest : List Instr), s.pending = c :: rest → step s = exec c { s with pending := rest }

/-- Reset and idling. The block after reset has its power-on reset asserted, an empty queue, memory with nothing listed and the values that
the spec gives for reset; with an empty queue a step lets one Meridian clock pass, none while a reset is asserted or at the
cycle's end (assumption log 1). -/
def Obligations.ResetAndIdle : Prop :=
  (State.reset.pending = [] ∧ State.reset.sys.porst = true ∧ State.reset.mem = [] ∧ Memory.wf State.reset.mem = true ∧ State.reset.mer.cycle = 0 ∧
    State.reset.sys.mode = .boot ∧ State.reset.bus.st = .off ∧ (∀ n, (State.reset.ctm.arm n).sst = 4) ∧ (∀ d, (State.reset.sheet d).st = .retired) ∧
    (∀ d n, (State.reset.trvAx d n).st = .off) ∧ (∀ d n, (State.reset.ch d n).st = .idle) ∧ ∀ c, (State.reset.core c).item = none) ∧
  ∀ s : State, s.pending = [] →
    ((s.sys.porst = true ∨ s.sys.internal = true ∨ s.mer.target ≤ s.mer.phase + s.mer.inc) → step s = .next s) ∧
    (s.sys.porst = false → s.sys.internal = false → s.mer.phase + s.mer.inc < s.mer.target → ∃ t, step s = .next t ∧
      t.mer.phase = s.mer.phase + s.mer.inc ∧ t.mer.clocks = s.mer.clocks + 1 ∧ t.mer.cycle = s.mer.cycle ∧ s.spares t ∧
      { t with mer := s.mer, wdx := s.wdx } = s)

/-- The memory keeps its canonical form in every step: addresses strictly rising, and no entry equal to what an unlisted address reads as. -/
def Obligations.StepKeepsMemoryCanonical : Prop :=
  ∀ (s t : State), Memory.wf s.mem = true → step s = .next t → Memory.wf t.mem = true

/-- R208, R212: no step but a decision of the Contour die takes an arm back to RUN: the command is DECISION, the datum, which forms a
decision that is still owed, or SSM_AUTORESUME. No command of software is among them. -/
def Obligations.OnlyDecisionsReleaseArms : Prop :=
  ∀ (s t : State) (n : Nat), step s = .next t → (s.ctm.arm n).sst ≠ 0 → (t.ctm.arm n).sst = 0 →
    s.pending.head? = some .decision ∨ (∃ g k, s.pending.head? = some (.datum g k)) ∨ ∃ a, s.pending.head? = some (.ssmAutoresume a)
end

