-- ==== Sys2Proof/Laws/Table.lean ====
section
/-! SUPPORT. Reading and writing sparse tables, and the canonical form that every write keeps. -/

namespace Sys2Proof.Machine

variable {α : Type}

@[simp] theorem Table.get_nil (d : Nat → α) (k : Nat) : Table.get d [] k = d k := rfl

theorem Table.get_cons (d : Nat → α) (t : Table α) (i j : Nat) (w : α) :
    Table.get d ((i, w) :: t) j = if i = j then w else Table.get d t j := rfl

theorem Table.get_put (d : Nat → α) (t : Table α) (k j : Nat) (v : α) :
    Table.get d (Table.put t k v) j = if j = k then v else Table.get d t j := by
  induction t with
  | nil =>
    by_cases h : j = k
    · subst h; simp [Table.put, Table.get_cons]
    · have h' : ¬ k = j := fun e => h e.symm
      simp [Table.put, Table.get_cons, h, h']
  | cons x t ih =>
    obtain ⟨i, w⟩ := x
    unfold Table.put
    by_cases h : j = k
    · subst h
      by_cases hi : i = j
      · simp [hi, Table.get_cons]
      · by_cases hk : j < i <;> simp [hi, hk, Table.get_cons, ih]
    · have h' : ¬ k = j := fun e => h e.symm
      by_cases hi : i = k
      · subst hi; simp [Table.get_cons, h, h']
      · by_cases hk : k < i <;> simp [hi, hk, Table.get_cons, ih, h, h']

theorem Table.get_drop (d : Nat → α) (t : Table α) (k j : Nat) :
    Table.get d (Table.drop t k) j = if j = k then d j else Table.get d t j := by
  induction t with
  | nil => simp [Table.drop]
  | cons x t ih =>
    obtain ⟨i, w⟩ := x
    simp only [Table.drop, List.filter] at ih ⊢
    by_cases hi : i = k
    · subst hi
      simp only [bne_self_eq_false, ih, Table.get_cons]
      by_cases h : j = i
      · simp [h]
      · simp [h, Ne.symm h]
    · have hb : (i != k) = true := by simpa using hi
      simp only [hb, Table.get_cons, ih]
      by_cases h : i = j
      · subst h; simp [hi]
      · simp [h]

/-- A read after a write: the written value at the key, the old value elsewhere. -/
@[simp] theorem Table.get_set [DecidableEq α] (d : Nat → α) (t : Table α) (k j : Nat) (v : α) :
    Table.get d (Table.set d t k v) j = if j = k then v else Table.get d t j := by
  unfold Table.set
  by_cases h : v = d k
  · rw [if_pos h, Table.get_drop]
    by_cases hj : j = k
    · subst hj; simp [h]
    · simp [hj]
  · rw [if_neg h, Table.get_put]

/-! ### The canonical form -/

/-- Keys rise strictly, as a pairwise property. -/
theorem Table.rising_iff (t : Table α) : Table.rising t = true ↔ t.Pairwise fun a b => a.1 < b.1 := by
  induction t with
  | nil => simp [Table.rising]
  | cons x t ih =>
    obtain ⟨j, v⟩ := x
    simp only [Table.rising, Bool.and_eq_true, ih, List.pairwise_cons]
    constructor
    · rintro ⟨h, p⟩
      refine ⟨?_, p⟩
      cases t with
      | nil => simp
      | cons y t =>
        simp only [List.head?_cons, Option.all_some, decide_eq_true_eq] at h
        intro z hz
        rcases List.mem_cons.1 hz with rfl | hz
        · exact h
        · exact h.trans ((List.pairwise_cons.1 p).1 z hz)
    · rintro ⟨h, p⟩
      refine ⟨?_, p⟩
      cases t with
      | nil => simp
      | cons y t => simpa using h y (by simp)

/-- The canonical form as a property of the list. -/
theorem Table.wf_iff [DecidableEq α] (d : Nat → α) (t : Table α) :
    Table.wf d t = true ↔ t.Pairwise (fun a b => a.1 < b.1) ∧ ∀ x ∈ t, x.2 ≠ d x.1 := by
  simp [Table.wf, Table.rising_iff, List.all_eq_true]

theorem Table.mem_put {t : Table α} {k : Nat} {v : α} {x : Nat × α} (h : x ∈ Table.put t k v) : x = (k, v) ∨ x ∈ t := by
  induction t with
  | nil => simpa [Table.put] using h
  | cons y t ih =>
    obtain ⟨j, w⟩ := y
    simp only [Table.put] at h
    split_ifs at h
    · rcases List.mem_cons.1 h with h | h <;> simp_all
    · rcases List.mem_cons.1 h with h | h <;> simp_all
    · rcases List.mem_cons.1 h with h | h
      · simp_all
      · rcases ih h with h | h <;> simp_all

theorem Table.put_rising {t : Table α} (k : Nat) (v : α) (h : t.Pairwise fun a b => a.1 < b.1) :
    (Table.put t k v).Pairwise fun a b => a.1 < b.1 := by
  induction t with
  | nil => simp [Table.put]
  | cons y t ih =>
    obtain ⟨j, w⟩ := y
    rw [List.pairwise_cons] at h
    simp only [Table.put]
    split_ifs with h1 h2
    · subst h1; exact List.pairwise_cons.2 ⟨h.1, h.2⟩
    · refine List.pairwise_cons.2 ⟨?_, List.pairwise_cons.2 h⟩
      intro z hz
      rcases List.mem_cons.1 hz with rfl | hz
      · exact h2
      · exact h2.trans (h.1 z hz)
    · refine List.pairwise_cons.2 ⟨?_, ih h.2⟩
      intro z hz
      rcases Table.mem_put hz with rfl | hz
      · simp; omega
      · exact h.1 z hz

/-- A write keeps the canonical form. -/
theorem Table.wf_set [DecidableEq α] (d : Nat → α) (t : Table α) (k : Nat) (v : α) (h : Table.wf d t = true) :
    Table.wf d (Table.set d t k v) = true := by
  rw [Table.wf_iff] at h ⊢
  unfold Table.set
  split_ifs with hv
  · exact ⟨h.1.filter _, fun x hx => h.2 x (List.mem_filter.1 hx).1⟩
  · refine ⟨Table.put_rising k v h.1, fun x hx => ?_⟩
    rcases Table.mem_put hx with rfl | hx
    · exact hv
    · exact h.2 x hx

/-- Taking a key off the list keeps the canonical form. -/
theorem Table.wf_drop [DecidableEq α] (d : Nat → α) (t : Table α) (k : Nat) (h : Table.wf d t = true) :
    Table.wf d (Table.drop t k) = true := by
  rw [Table.wf_iff] at h ⊢
  exact ⟨h.1.filter _, fun x hx => h.2 x (List.mem_filter.1 hx).1⟩

/-- The reset of a range keeps the canonical form. -/
theorem Table.wf_wipe [DecidableEq α] (d : Nat → α) (t : Table α) (p : Nat → Bool) (h : Table.wf d t = true) :
    Table.wf d (Table.wipe t p) = true := by
  rw [Table.wf_iff] at h ⊢
  exact ⟨h.1.filter _, fun x hx => h.2 x (List.mem_filter.1 hx).1⟩

end Sys2Proof.Machine
end

