-- ==== Sys2Proof/Laws/State.lean ====
section
/-! SUPPORT. What the named updates of State leave unchanged, one lemma per field, and what they write. -/

namespace Sys2Proof.Machine

variable (s : State)

/-! ### State.wr -/

@[simp] theorem State.wr_pending (r : Nat) (v : W32) : (s.wr r v).pending = s.pending := rfl
@[simp] theorem State.wr_sys (r : Nat) (v : W32) : (s.wr r v).sys = s.sys := rfl
@[simp] theorem State.wr_mer (r : Nat) (v : W32) : (s.wr r v).mer = s.mer := rfl
@[simp] theorem State.wr_cap (r : Nat) (v : W32) : (s.wr r v).cap = s.cap := rfl
@[simp] theorem State.wr_busData (r : Nat) (v : W32) : (s.wr r v).busData = s.busData := rfl
@[simp] theorem State.wr_parIn (r : Nat) (v : W32) : (s.wr r v).parIn = s.parIn := rfl
@[simp] theorem State.wr_parQ (r : Nat) (v : W32) : (s.wr r v).parQ = s.parQ := rfl
@[simp] theorem State.wr_mem (r : Nat) (v : W32) : (s.wr r v).mem = s.mem := rfl
@[simp] theorem State.wr_ecc (r : Nat) (v : W32) : (s.wr r v).ecc = s.ecc := rfl
@[simp] theorem State.wr_memDie (r : Nat) (v : W32) : (s.wr r v).memDie = s.memDie := rfl
@[simp] theorem State.wr_fb (r : Nat) (v : W32) : (s.wr r v).fb = s.fb := rfl
@[simp] theorem State.wr_wdx (r : Nat) (v : W32) : (s.wr r v).wdx = s.wdx := rfl
@[simp] theorem State.wr_cores (r : Nat) (v : W32) : (s.wr r v).cores = s.cores := rfl
@[simp] theorem State.wr_dma (r : Nat) (v : W32) : (s.wr r v).dma = s.dma := rfl
@[simp] theorem State.wr_trv (r : Nat) (v : W32) : (s.wr r v).trv = s.trv := rfl
@[simp] theorem State.wr_enc (r : Nat) (v : W32) : (s.wr r v).enc = s.enc := rfl
@[simp] theorem State.wr_sle (r : Nat) (v : W32) : (s.wr r v).sle = s.sle := rfl
@[simp] theorem State.wr_tri (r : Nat) (v : W32) : (s.wr r v).tri = s.tri := rfl
@[simp] theorem State.wr_bus (r : Nat) (v : W32) : (s.wr r v).bus = s.bus := rfl
@[simp] theorem State.wr_ctm (r : Nat) (v : W32) : (s.wr r v).ctm = s.ctm := rfl
@[simp] theorem State.wr_crt (r : Nat) (v : W32) : (s.wr r v).crt = s.crt := rfl
@[simp] theorem State.wr_hostA (r : Nat) (v : W32) : (s.wr r v).hostA = s.hostA := rfl
@[simp] theorem State.wr_hostB (r : Nat) (v : W32) : (s.wr r v).hostB = s.hostB := rfl
@[simp] theorem State.wr_rdn (r : Nat) (v : W32) : (s.wr r v).rdn = s.rdn := rfl
@[simp] theorem State.wr_feedA (r : Nat) (v : W32) : (s.wr r v).feedA = s.feedA := rfl
@[simp] theorem State.wr_feedB (r : Nat) (v : W32) : (s.wr r v).feedB = s.feedB := rfl
@[simp] theorem State.wr_sfy (r : Nat) (v : W32) : (s.wr r v).sfy = s.sfy := rfl
@[simp] theorem State.wr_freeCtr (r : Nat) (v : W32) : (s.wr r v).freeCtr = s.freeCtr := rfl

/-! ### State.setRf -/

@[simp] theorem State.setRf_pending (r lo w x : Nat) : (s.setRf r lo w x).pending = s.pending := rfl
@[simp] theorem State.setRf_sys (r lo w x : Nat) : (s.setRf r lo w x).sys = s.sys := rfl
@[simp] theorem State.setRf_mer (r lo w x : Nat) : (s.setRf r lo w x).mer = s.mer := rfl
@[simp] theorem State.setRf_cap (r lo w x : Nat) : (s.setRf r lo w x).cap = s.cap := rfl
@[simp] theorem State.setRf_busData (r lo w x : Nat) : (s.setRf r lo w x).busData = s.busData := rfl
@[simp] theorem State.setRf_parIn (r lo w x : Nat) : (s.setRf r lo w x).parIn = s.parIn := rfl
@[simp] theorem State.setRf_parQ (r lo w x : Nat) : (s.setRf r lo w x).parQ = s.parQ := rfl
@[simp] theorem State.setRf_mem (r lo w x : Nat) : (s.setRf r lo w x).mem = s.mem := rfl
@[simp] theorem State.setRf_ecc (r lo w x : Nat) : (s.setRf r lo w x).ecc = s.ecc := rfl
@[simp] theorem State.setRf_memDie (r lo w x : Nat) : (s.setRf r lo w x).memDie = s.memDie := rfl
@[simp] theorem State.setRf_fb (r lo w x : Nat) : (s.setRf r lo w x).fb = s.fb := rfl
@[simp] theorem State.setRf_wdx (r lo w x : Nat) : (s.setRf r lo w x).wdx = s.wdx := rfl
@[simp] theorem State.setRf_cores (r lo w x : Nat) : (s.setRf r lo w x).cores = s.cores := rfl
@[simp] theorem State.setRf_dma (r lo w x : Nat) : (s.setRf r lo w x).dma = s.dma := rfl
@[simp] theorem State.setRf_trv (r lo w x : Nat) : (s.setRf r lo w x).trv = s.trv := rfl
@[simp] theorem State.setRf_enc (r lo w x : Nat) : (s.setRf r lo w x).enc = s.enc := rfl
@[simp] theorem State.setRf_sle (r lo w x : Nat) : (s.setRf r lo w x).sle = s.sle := rfl
@[simp] theorem State.setRf_tri (r lo w x : Nat) : (s.setRf r lo w x).tri = s.tri := rfl
@[simp] theorem State.setRf_bus (r lo w x : Nat) : (s.setRf r lo w x).bus = s.bus := rfl
@[simp] theorem State.setRf_ctm (r lo w x : Nat) : (s.setRf r lo w x).ctm = s.ctm := rfl
@[simp] theorem State.setRf_crt (r lo w x : Nat) : (s.setRf r lo w x).crt = s.crt := rfl
@[simp] theorem State.setRf_hostA (r lo w x : Nat) : (s.setRf r lo w x).hostA = s.hostA := rfl
@[simp] theorem State.setRf_hostB (r lo w x : Nat) : (s.setRf r lo w x).hostB = s.hostB := rfl
@[simp] theorem State.setRf_rdn (r lo w x : Nat) : (s.setRf r lo w x).rdn = s.rdn := rfl
@[simp] theorem State.setRf_feedA (r lo w x : Nat) : (s.setRf r lo w x).feedA = s.feedA := rfl
@[simp] theorem State.setRf_feedB (r lo w x : Nat) : (s.setRf r lo w x).feedB = s.feedB := rfl
@[simp] theorem State.setRf_sfy (r lo w x : Nat) : (s.setRf r lo w x).sfy = s.sfy := rfl
@[simp] theorem State.setRf_freeCtr (r lo w x : Nat) : (s.setRf r lo w x).freeCtr = s.freeCtr := rfl

/-! ### State.count -/

@[simp] theorem State.count_pending (r lo w n : Nat) : (s.count r lo w n).pending = s.pending := rfl
@[simp] theorem State.count_sys (r lo w n : Nat) : (s.count r lo w n).sys = s.sys := rfl
@[simp] theorem State.count_mer (r lo w n : Nat) : (s.count r lo w n).mer = s.mer := rfl
@[simp] theorem State.count_cap (r lo w n : Nat) : (s.count r lo w n).cap = s.cap := rfl
@[simp] theorem State.count_busData (r lo w n : Nat) : (s.count r lo w n).busData = s.busData := rfl
@[simp] theorem State.count_parIn (r lo w n : Nat) : (s.count r lo w n).parIn = s.parIn := rfl
@[simp] theorem State.count_parQ (r lo w n : Nat) : (s.count r lo w n).parQ = s.parQ := rfl
@[simp] theorem State.count_mem (r lo w n : Nat) : (s.count r lo w n).mem = s.mem := rfl
@[simp] theorem State.count_ecc (r lo w n : Nat) : (s.count r lo w n).ecc = s.ecc := rfl
@[simp] theorem State.count_memDie (r lo w n : Nat) : (s.count r lo w n).memDie = s.memDie := rfl
@[simp] theorem State.count_fb (r lo w n : Nat) : (s.count r lo w n).fb = s.fb := rfl
@[simp] theorem State.count_wdx (r lo w n : Nat) : (s.count r lo w n).wdx = s.wdx := rfl
@[simp] theorem State.count_cores (r lo w n : Nat) : (s.count r lo w n).cores = s.cores := rfl
@[simp] theorem State.count_dma (r lo w n : Nat) : (s.count r lo w n).dma = s.dma := rfl
@[simp] theorem State.count_trv (r lo w n : Nat) : (s.count r lo w n).trv = s.trv := rfl
@[simp] theorem State.count_enc (r lo w n : Nat) : (s.count r lo w n).enc = s.enc := rfl
@[simp] theorem State.count_sle (r lo w n : Nat) : (s.count r lo w n).sle = s.sle := rfl
@[simp] theorem State.count_tri (r lo w n : Nat) : (s.count r lo w n).tri = s.tri := rfl
@[simp] theorem State.count_bus (r lo w n : Nat) : (s.count r lo w n).bus = s.bus := rfl
@[simp] theorem State.count_ctm (r lo w n : Nat) : (s.count r lo w n).ctm = s.ctm := rfl
@[simp] theorem State.count_crt (r lo w n : Nat) : (s.count r lo w n).crt = s.crt := rfl
@[simp] theorem State.count_hostA (r lo w n : Nat) : (s.count r lo w n).hostA = s.hostA := rfl
@[simp] theorem State.count_hostB (r lo w n : Nat) : (s.count r lo w n).hostB = s.hostB := rfl
@[simp] theorem State.count_rdn (r lo w n : Nat) : (s.count r lo w n).rdn = s.rdn := rfl
@[simp] theorem State.count_feedA (r lo w n : Nat) : (s.count r lo w n).feedA = s.feedA := rfl
@[simp] theorem State.count_feedB (r lo w n : Nat) : (s.count r lo w n).feedB = s.feedB := rfl
@[simp] theorem State.count_sfy (r lo w n : Nat) : (s.count r lo w n).sfy = s.sfy := rfl
@[simp] theorem State.count_freeCtr (r lo w n : Nat) : (s.count r lo w n).freeCtr = s.freeCtr := rfl

/-! ### State.setCap -/

@[simp] theorem State.setCap_pending (r : Nat) (v : W32) : (s.setCap r v).pending = s.pending := rfl
@[simp] theorem State.setCap_sys (r : Nat) (v : W32) : (s.setCap r v).sys = s.sys := rfl
@[simp] theorem State.setCap_mer (r : Nat) (v : W32) : (s.setCap r v).mer = s.mer := rfl
@[simp] theorem State.setCap_regs (r : Nat) (v : W32) : (s.setCap r v).regs = s.regs := rfl
@[simp] theorem State.setCap_busData (r : Nat) (v : W32) : (s.setCap r v).busData = s.busData := rfl
@[simp] theorem State.setCap_parIn (r : Nat) (v : W32) : (s.setCap r v).parIn = s.parIn := rfl
@[simp] theorem State.setCap_parQ (r : Nat) (v : W32) : (s.setCap r v).parQ = s.parQ := rfl
@[simp] theorem State.setCap_mem (r : Nat) (v : W32) : (s.setCap r v).mem = s.mem := rfl
@[simp] theorem State.setCap_ecc (r : Nat) (v : W32) : (s.setCap r v).ecc = s.ecc := rfl
@[simp] theorem State.setCap_memDie (r : Nat) (v : W32) : (s.setCap r v).memDie = s.memDie := rfl
@[simp] theorem State.setCap_fb (r : Nat) (v : W32) : (s.setCap r v).fb = s.fb := rfl
@[simp] theorem State.setCap_wdx (r : Nat) (v : W32) : (s.setCap r v).wdx = s.wdx := rfl
@[simp] theorem State.setCap_cores (r : Nat) (v : W32) : (s.setCap r v).cores = s.cores := rfl
@[simp] theorem State.setCap_dma (r : Nat) (v : W32) : (s.setCap r v).dma = s.dma := rfl
@[simp] theorem State.setCap_trv (r : Nat) (v : W32) : (s.setCap r v).trv = s.trv := rfl
@[simp] theorem State.setCap_enc (r : Nat) (v : W32) : (s.setCap r v).enc = s.enc := rfl
@[simp] theorem State.setCap_sle (r : Nat) (v : W32) : (s.setCap r v).sle = s.sle := rfl
@[simp] theorem State.setCap_tri (r : Nat) (v : W32) : (s.setCap r v).tri = s.tri := rfl
@[simp] theorem State.setCap_bus (r : Nat) (v : W32) : (s.setCap r v).bus = s.bus := rfl
@[simp] theorem State.setCap_ctm (r : Nat) (v : W32) : (s.setCap r v).ctm = s.ctm := rfl
@[simp] theorem State.setCap_crt (r : Nat) (v : W32) : (s.setCap r v).crt = s.crt := rfl
@[simp] theorem State.setCap_hostA (r : Nat) (v : W32) : (s.setCap r v).hostA = s.hostA := rfl
@[simp] theorem State.setCap_hostB (r : Nat) (v : W32) : (s.setCap r v).hostB = s.hostB := rfl
@[simp] theorem State.setCap_rdn (r : Nat) (v : W32) : (s.setCap r v).rdn = s.rdn := rfl
@[simp] theorem State.setCap_feedA (r : Nat) (v : W32) : (s.setCap r v).feedA = s.feedA := rfl
@[simp] theorem State.setCap_feedB (r : Nat) (v : W32) : (s.setCap r v).feedB = s.feedB := rfl
@[simp] theorem State.setCap_sfy (r : Nat) (v : W32) : (s.setCap r v).sfy = s.sfy := rfl
@[simp] theorem State.setCap_freeCtr (r : Nat) (v : W32) : (s.setCap r v).freeCtr = s.freeCtr := rfl

/-! ### State.wipeRegs -/

@[simp] theorem State.wipeRegs_pending (p : Nat → Bool) : (s.wipeRegs p).pending = s.pending := rfl
@[simp] theorem State.wipeRegs_sys (p : Nat → Bool) : (s.wipeRegs p).sys = s.sys := rfl
@[simp] theorem State.wipeRegs_mer (p : Nat → Bool) : (s.wipeRegs p).mer = s.mer := rfl
@[simp] theorem State.wipeRegs_busData (p : Nat → Bool) : (s.wipeRegs p).busData = s.busData := rfl
@[simp] theorem State.wipeRegs_mem (p : Nat → Bool) : (s.wipeRegs p).mem = s.mem := rfl
@[simp] theorem State.wipeRegs_ecc (p : Nat → Bool) : (s.wipeRegs p).ecc = s.ecc := rfl
@[simp] theorem State.wipeRegs_memDie (p : Nat → Bool) : (s.wipeRegs p).memDie = s.memDie := rfl
@[simp] theorem State.wipeRegs_fb (p : Nat → Bool) : (s.wipeRegs p).fb = s.fb := rfl
@[simp] theorem State.wipeRegs_wdx (p : Nat → Bool) : (s.wipeRegs p).wdx = s.wdx := rfl
@[simp] theorem State.wipeRegs_cores (p : Nat → Bool) : (s.wipeRegs p).cores = s.cores := rfl
@[simp] theorem State.wipeRegs_dma (p : Nat → Bool) : (s.wipeRegs p).dma = s.dma := rfl
@[simp] theorem State.wipeRegs_trv (p : Nat → Bool) : (s.wipeRegs p).trv = s.trv := rfl
@[simp] theorem State.wipeRegs_enc (p : Nat → Bool) : (s.wipeRegs p).enc = s.enc := rfl
@[simp] theorem State.wipeRegs_sle (p : Nat → Bool) : (s.wipeRegs p).sle = s.sle := rfl
@[simp] theorem State.wipeRegs_tri (p : Nat → Bool) : (s.wipeRegs p).tri = s.tri := rfl
@[simp] theorem State.wipeRegs_bus (p : Nat → Bool) : (s.wipeRegs p).bus = s.bus := rfl
@[simp] theorem State.wipeRegs_ctm (p : Nat → Bool) : (s.wipeRegs p).ctm = s.ctm := rfl
@[simp] theorem State.wipeRegs_crt (p : Nat → Bool) : (s.wipeRegs p).crt = s.crt := rfl
@[simp] theorem State.wipeRegs_hostA (p : Nat → Bool) : (s.wipeRegs p).hostA = s.hostA := rfl
@[simp] theorem State.wipeRegs_hostB (p : Nat → Bool) : (s.wipeRegs p).hostB = s.hostB := rfl
@[simp] theorem State.wipeRegs_rdn (p : Nat → Bool) : (s.wipeRegs p).rdn = s.rdn := rfl
@[simp] theorem State.wipeRegs_feedA (p : Nat → Bool) : (s.wipeRegs p).feedA = s.feedA := rfl
@[simp] theorem State.wipeRegs_feedB (p : Nat → Bool) : (s.wipeRegs p).feedB = s.feedB := rfl
@[simp] theorem State.wipeRegs_sfy (p : Nat → Bool) : (s.wipeRegs p).sfy = s.sfy := rfl
@[simp] theorem State.wipeRegs_freeCtr (p : Nat → Bool) : (s.wipeRegs p).freeCtr = s.freeCtr := rfl

/-! ### State.setSheet -/

@[simp] theorem State.setSheet_pending (d : Nat) (x : Sheet) : (s.setSheet d x).pending = s.pending := rfl
@[simp] theorem State.setSheet_sys (d : Nat) (x : Sheet) : (s.setSheet d x).sys = s.sys := rfl
@[simp] theorem State.setSheet_mer (d : Nat) (x : Sheet) : (s.setSheet d x).mer = s.mer := rfl
@[simp] theorem State.setSheet_regs (d : Nat) (x : Sheet) : (s.setSheet d x).regs = s.regs := rfl
@[simp] theorem State.setSheet_cap (d : Nat) (x : Sheet) : (s.setSheet d x).cap = s.cap := rfl
@[simp] theorem State.setSheet_busData (d : Nat) (x : Sheet) : (s.setSheet d x).busData = s.busData := rfl
@[simp] theorem State.setSheet_parIn (d : Nat) (x : Sheet) : (s.setSheet d x).parIn = s.parIn := rfl
@[simp] theorem State.setSheet_parQ (d : Nat) (x : Sheet) : (s.setSheet d x).parQ = s.parQ := rfl
@[simp] theorem State.setSheet_mem (d : Nat) (x : Sheet) : (s.setSheet d x).mem = s.mem := rfl
@[simp] theorem State.setSheet_ecc (d : Nat) (x : Sheet) : (s.setSheet d x).ecc = s.ecc := rfl
@[simp] theorem State.setSheet_memDie (d : Nat) (x : Sheet) : (s.setSheet d x).memDie = s.memDie := rfl
@[simp] theorem State.setSheet_fb (d : Nat) (x : Sheet) : (s.setSheet d x).fb = s.fb := rfl
@[simp] theorem State.setSheet_wdx (d : Nat) (x : Sheet) : (s.setSheet d x).wdx = s.wdx := rfl
@[simp] theorem State.setSheet_cores (d : Nat) (x : Sheet) : (s.setSheet d x).cores = s.cores := rfl
@[simp] theorem State.setSheet_dma (d : Nat) (x : Sheet) : (s.setSheet d x).dma = s.dma := rfl
@[simp] theorem State.setSheet_trv (d : Nat) (x : Sheet) : (s.setSheet d x).trv = s.trv := rfl
@[simp] theorem State.setSheet_enc (d : Nat) (x : Sheet) : (s.setSheet d x).enc = s.enc := rfl
@[simp] theorem State.setSheet_sle (d : Nat) (x : Sheet) : (s.setSheet d x).sle = s.sle := rfl
@[simp] theorem State.setSheet_tri (d : Nat) (x : Sheet) : (s.setSheet d x).tri = s.tri := rfl
@[simp] theorem State.setSheet_bus (d : Nat) (x : Sheet) : (s.setSheet d x).bus = s.bus := rfl
@[simp] theorem State.setSheet_ctm (d : Nat) (x : Sheet) : (s.setSheet d x).ctm = s.ctm := rfl
@[simp] theorem State.setSheet_crt (d : Nat) (x : Sheet) : (s.setSheet d x).crt = s.crt := rfl
@[simp] theorem State.setSheet_hostA (d : Nat) (x : Sheet) : (s.setSheet d x).hostA = s.hostA := rfl
@[simp] theorem State.setSheet_hostB (d : Nat) (x : Sheet) : (s.setSheet d x).hostB = s.hostB := rfl
@[simp] theorem State.setSheet_rdn (d : Nat) (x : Sheet) : (s.setSheet d x).rdn = s.rdn := rfl
@[simp] theorem State.setSheet_feedA (d : Nat) (x : Sheet) : (s.setSheet d x).feedA = s.feedA := rfl
@[simp] theorem State.setSheet_feedB (d : Nat) (x : Sheet) : (s.setSheet d x).feedB = s.feedB := rfl
@[simp] theorem State.setSheet_freeCtr (d : Nat) (x : Sheet) : (s.setSheet d x).freeCtr = s.freeCtr := rfl

/-! ### State.setCore -/

@[simp] theorem State.setCore_pending (c : CoreId) (x : Core) : (s.setCore c x).pending = s.pending := rfl
@[simp] theorem State.setCore_sys (c : CoreId) (x : Core) : (s.setCore c x).sys = s.sys := rfl
@[simp] theorem State.setCore_mer (c : CoreId) (x : Core) : (s.setCore c x).mer = s.mer := rfl
@[simp] theorem State.setCore_regs (c : CoreId) (x : Core) : (s.setCore c x).regs = s.regs := rfl
@[simp] theorem State.setCore_cap (c : CoreId) (x : Core) : (s.setCore c x).cap = s.cap := rfl
@[simp] theorem State.setCore_busData (c : CoreId) (x : Core) : (s.setCore c x).busData = s.busData := rfl
@[simp] theorem State.setCore_parIn (c : CoreId) (x : Core) : (s.setCore c x).parIn = s.parIn := rfl
@[simp] theorem State.setCore_parQ (c : CoreId) (x : Core) : (s.setCore c x).parQ = s.parQ := rfl
@[simp] theorem State.setCore_mem (c : CoreId) (x : Core) : (s.setCore c x).mem = s.mem := rfl
@[simp] theorem State.setCore_ecc (c : CoreId) (x : Core) : (s.setCore c x).ecc = s.ecc := rfl
@[simp] theorem State.setCore_memDie (c : CoreId) (x : Core) : (s.setCore c x).memDie = s.memDie := rfl
@[simp] theorem State.setCore_fb (c : CoreId) (x : Core) : (s.setCore c x).fb = s.fb := rfl
@[simp] theorem State.setCore_wdx (c : CoreId) (x : Core) : (s.setCore c x).wdx = s.wdx := rfl
@[simp] theorem State.setCore_dma (c : CoreId) (x : Core) : (s.setCore c x).dma = s.dma := rfl
@[simp] theorem State.setCore_trv (c : CoreId) (x : Core) : (s.setCore c x).trv = s.trv := rfl
@[simp] theorem State.setCore_enc (c : CoreId) (x : Core) : (s.setCore c x).enc = s.enc := rfl
@[simp] theorem State.setCore_sle (c : CoreId) (x : Core) : (s.setCore c x).sle = s.sle := rfl
@[simp] theorem State.setCore_tri (c : CoreId) (x : Core) : (s.setCore c x).tri = s.tri := rfl
@[simp] theorem State.setCore_bus (c : CoreId) (x : Core) : (s.setCore c x).bus = s.bus := rfl
@[simp] theorem State.setCore_ctm (c : CoreId) (x : Core) : (s.setCore c x).ctm = s.ctm := rfl
@[simp] theorem State.setCore_crt (c : CoreId) (x : Core) : (s.setCore c x).crt = s.crt := rfl
@[simp] theorem State.setCore_hostA (c : CoreId) (x : Core) : (s.setCore c x).hostA = s.hostA := rfl
@[simp] theorem State.setCore_hostB (c : CoreId) (x : Core) : (s.setCore c x).hostB = s.hostB := rfl
@[simp] theorem State.setCore_rdn (c : CoreId) (x : Core) : (s.setCore c x).rdn = s.rdn := rfl
@[simp] theorem State.setCore_feedA (c : CoreId) (x : Core) : (s.setCore c x).feedA = s.feedA := rfl
@[simp] theorem State.setCore_feedB (c : CoreId) (x : Core) : (s.setCore c x).feedB = s.feedB := rfl
@[simp] theorem State.setCore_sfy (c : CoreId) (x : Core) : (s.setCore c x).sfy = s.sfy := rfl
@[simp] theorem State.setCore_freeCtr (c : CoreId) (x : Core) : (s.setCore c x).freeCtr = s.freeCtr := rfl

/-! ### State.updCore -/

@[simp] theorem State.updCore_pending (c : CoreId) (f : Core → Core) : (s.updCore c f).pending = s.pending := rfl
@[simp] theorem State.updCore_sys (c : CoreId) (f : Core → Core) : (s.updCore c f).sys = s.sys := rfl
@[simp] theorem State.updCore_mer (c : CoreId) (f : Core → Core) : (s.updCore c f).mer = s.mer := rfl
@[simp] theorem State.updCore_regs (c : CoreId) (f : Core → Core) : (s.updCore c f).regs = s.regs := rfl
@[simp] theorem State.updCore_cap (c : CoreId) (f : Core → Core) : (s.updCore c f).cap = s.cap := rfl
@[simp] theorem State.updCore_busData (c : CoreId) (f : Core → Core) : (s.updCore c f).busData = s.busData := rfl
@[simp] theorem State.updCore_parIn (c : CoreId) (f : Core → Core) : (s.updCore c f).parIn = s.parIn := rfl
@[simp] theorem State.updCore_parQ (c : CoreId) (f : Core → Core) : (s.updCore c f).parQ = s.parQ := rfl
@[simp] theorem State.updCore_mem (c : CoreId) (f : Core → Core) : (s.updCore c f).mem = s.mem := rfl
@[simp] theorem State.updCore_ecc (c : CoreId) (f : Core → Core) : (s.updCore c f).ecc = s.ecc := rfl
@[simp] theorem State.updCore_memDie (c : CoreId) (f : Core → Core) : (s.updCore c f).memDie = s.memDie := rfl
@[simp] theorem State.updCore_fb (c : CoreId) (f : Core → Core) : (s.updCore c f).fb = s.fb := rfl
@[simp] theorem State.updCore_wdx (c : CoreId) (f : Core → Core) : (s.updCore c f).wdx = s.wdx := rfl
@[simp] theorem State.updCore_dma (c : CoreId) (f : Core → Core) : (s.updCore c f).dma = s.dma := rfl
@[simp] theorem State.updCore_trv (c : CoreId) (f : Core → Core) : (s.updCore c f).trv = s.trv := rfl
@[simp] theorem State.updCore_enc (c : CoreId) (f : Core → Core) : (s.updCore c f).enc = s.enc := rfl
@[simp] theorem State.updCore_sle (c : CoreId) (f : Core → Core) : (s.updCore c f).sle = s.sle := rfl
@[simp] theorem State.updCore_tri (c : CoreId) (f : Core → Core) : (s.updCore c f).tri = s.tri := rfl
@[simp] theorem State.updCore_bus (c : CoreId) (f : Core → Core) : (s.updCore c f).bus = s.bus := rfl
@[simp] theorem State.updCore_ctm (c : CoreId) (f : Core → Core) : (s.updCore c f).ctm = s.ctm := rfl
@[simp] theorem State.updCore_crt (c : CoreId) (f : Core → Core) : (s.updCore c f).crt = s.crt := rfl
@[simp] theorem State.updCore_hostA (c : CoreId) (f : Core → Core) : (s.updCore c f).hostA = s.hostA := rfl
@[simp] theorem State.updCore_hostB (c : CoreId) (f : Core → Core) : (s.updCore c f).hostB = s.hostB := rfl
@[simp] theorem State.updCore_rdn (c : CoreId) (f : Core → Core) : (s.updCore c f).rdn = s.rdn := rfl
@[simp] theorem State.updCore_feedA (c : CoreId) (f : Core → Core) : (s.updCore c f).feedA = s.feedA := rfl
@[simp] theorem State.updCore_feedB (c : CoreId) (f : Core → Core) : (s.updCore c f).feedB = s.feedB := rfl
@[simp] theorem State.updCore_sfy (c : CoreId) (f : Core → Core) : (s.updCore c f).sfy = s.sfy := rfl
@[simp] theorem State.updCore_freeCtr (c : CoreId) (f : Core → Core) : (s.updCore c f).freeCtr = s.freeCtr := rfl

/-! ### State.pc4 -/

@[simp] theorem State.pc4_pending (c : CoreId) : (s.pc4 c).pending = s.pending := rfl
@[simp] theorem State.pc4_sys (c : CoreId) : (s.pc4 c).sys = s.sys := rfl
@[simp] theorem State.pc4_mer (c : CoreId) : (s.pc4 c).mer = s.mer := rfl
@[simp] theorem State.pc4_regs (c : CoreId) : (s.pc4 c).regs = s.regs := rfl
@[simp] theorem State.pc4_cap (c : CoreId) : (s.pc4 c).cap = s.cap := rfl
@[simp] theorem State.pc4_busData (c : CoreId) : (s.pc4 c).busData = s.busData := rfl
@[simp] theorem State.pc4_parIn (c : CoreId) : (s.pc4 c).parIn = s.parIn := rfl
@[simp] theorem State.pc4_parQ (c : CoreId) : (s.pc4 c).parQ = s.parQ := rfl
@[simp] theorem State.pc4_mem (c : CoreId) : (s.pc4 c).mem = s.mem := rfl
@[simp] theorem State.pc4_ecc (c : CoreId) : (s.pc4 c).ecc = s.ecc := rfl
@[simp] theorem State.pc4_memDie (c : CoreId) : (s.pc4 c).memDie = s.memDie := rfl
@[simp] theorem State.pc4_fb (c : CoreId) : (s.pc4 c).fb = s.fb := rfl
@[simp] theorem State.pc4_wdx (c : CoreId) : (s.pc4 c).wdx = s.wdx := rfl
@[simp] theorem State.pc4_dma (c : CoreId) : (s.pc4 c).dma = s.dma := rfl
@[simp] theorem State.pc4_trv (c : CoreId) : (s.pc4 c).trv = s.trv := rfl
@[simp] theorem State.pc4_enc (c : CoreId) : (s.pc4 c).enc = s.enc := rfl
@[simp] theorem State.pc4_sle (c : CoreId) : (s.pc4 c).sle = s.sle := rfl
@[simp] theorem State.pc4_tri (c : CoreId) : (s.pc4 c).tri = s.tri := rfl
@[simp] theorem State.pc4_bus (c : CoreId) : (s.pc4 c).bus = s.bus := rfl
@[simp] theorem State.pc4_ctm (c : CoreId) : (s.pc4 c).ctm = s.ctm := rfl
@[simp] theorem State.pc4_crt (c : CoreId) : (s.pc4 c).crt = s.crt := rfl
@[simp] theorem State.pc4_hostA (c : CoreId) : (s.pc4 c).hostA = s.hostA := rfl
@[simp] theorem State.pc4_hostB (c : CoreId) : (s.pc4 c).hostB = s.hostB := rfl
@[simp] theorem State.pc4_rdn (c : CoreId) : (s.pc4 c).rdn = s.rdn := rfl
@[simp] theorem State.pc4_feedA (c : CoreId) : (s.pc4 c).feedA = s.feedA := rfl
@[simp] theorem State.pc4_feedB (c : CoreId) : (s.pc4 c).feedB = s.feedB := rfl
@[simp] theorem State.pc4_sfy (c : CoreId) : (s.pc4 c).sfy = s.sfy := rfl
@[simp] theorem State.pc4_freeCtr (c : CoreId) : (s.pc4 c).freeCtr = s.freeCtr := rfl

/-! ### State.put -/

@[simp] theorem State.put_pending (c : CoreId) (rd : Reg) (v : W64) : (s.put c rd v).pending = s.pending := rfl
@[simp] theorem State.put_sys (c : CoreId) (rd : Reg) (v : W64) : (s.put c rd v).sys = s.sys := rfl
@[simp] theorem State.put_mer (c : CoreId) (rd : Reg) (v : W64) : (s.put c rd v).mer = s.mer := rfl
@[simp] theorem State.put_regs (c : CoreId) (rd : Reg) (v : W64) : (s.put c rd v).regs = s.regs := rfl
@[simp] theorem State.put_cap (c : CoreId) (rd : Reg) (v : W64) : (s.put c rd v).cap = s.cap := rfl
@[simp] theorem State.put_busData (c : CoreId) (rd : Reg) (v : W64) : (s.put c rd v).busData = s.busData := rfl
@[simp] theorem State.put_parIn (c : CoreId) (rd : Reg) (v : W64) : (s.put c rd v).parIn = s.parIn := rfl
@[simp] theorem State.put_parQ (c : CoreId) (rd : Reg) (v : W64) : (s.put c rd v).parQ = s.parQ := rfl
@[simp] theorem State.put_mem (c : CoreId) (rd : Reg) (v : W64) : (s.put c rd v).mem = s.mem := rfl
@[simp] theorem State.put_ecc (c : CoreId) (rd : Reg) (v : W64) : (s.put c rd v).ecc = s.ecc := rfl
@[simp] theorem State.put_memDie (c : CoreId) (rd : Reg) (v : W64) : (s.put c rd v).memDie = s.memDie := rfl
@[simp] theorem State.put_fb (c : CoreId) (rd : Reg) (v : W64) : (s.put c rd v).fb = s.fb := rfl
@[simp] theorem State.put_wdx (c : CoreId) (rd : Reg) (v : W64) : (s.put c rd v).wdx = s.wdx := rfl
@[simp] theorem State.put_dma (c : CoreId) (rd : Reg) (v : W64) : (s.put c rd v).dma = s.dma := rfl
@[simp] theorem State.put_trv (c : CoreId) (rd : Reg) (v : W64) : (s.put c rd v).trv = s.trv := rfl
@[simp] theorem State.put_enc (c : CoreId) (rd : Reg) (v : W64) : (s.put c rd v).enc = s.enc := rfl
@[simp] theorem State.put_sle (c : CoreId) (rd : Reg) (v : W64) : (s.put c rd v).sle = s.sle := rfl
@[simp] theorem State.put_tri (c : CoreId) (rd : Reg) (v : W64) : (s.put c rd v).tri = s.tri := rfl
@[simp] theorem State.put_bus (c : CoreId) (rd : Reg) (v : W64) : (s.put c rd v).bus = s.bus := rfl
@[simp] theorem State.put_ctm (c : CoreId) (rd : Reg) (v : W64) : (s.put c rd v).ctm = s.ctm := rfl
@[simp] theorem State.put_crt (c : CoreId) (rd : Reg) (v : W64) : (s.put c rd v).crt = s.crt := rfl
@[simp] theorem State.put_hostA (c : CoreId) (rd : Reg) (v : W64) : (s.put c rd v).hostA = s.hostA := rfl
@[simp] theorem State.put_hostB (c : CoreId) (rd : Reg) (v : W64) : (s.put c rd v).hostB = s.hostB := rfl
@[simp] theorem State.put_rdn (c : CoreId) (rd : Reg) (v : W64) : (s.put c rd v).rdn = s.rdn := rfl
@[simp] theorem State.put_feedA (c : CoreId) (rd : Reg) (v : W64) : (s.put c rd v).feedA = s.feedA := rfl
@[simp] theorem State.put_feedB (c : CoreId) (rd : Reg) (v : W64) : (s.put c rd v).feedB = s.feedB := rfl
@[simp] theorem State.put_sfy (c : CoreId) (rd : Reg) (v : W64) : (s.put c rd v).sfy = s.sfy := rfl
@[simp] theorem State.put_freeCtr (c : CoreId) (rd : Reg) (v : W64) : (s.put c rd v).freeCtr = s.freeCtr := rfl

/-! ### State.putSat -/

@[simp] theorem State.putSat_pending (c : CoreId) (rd : Reg) (v : W64 × Bool) : (s.putSat c rd v).pending = s.pending := rfl
@[simp] theorem State.putSat_sys (c : CoreId) (rd : Reg) (v : W64 × Bool) : (s.putSat c rd v).sys = s.sys := rfl
@[simp] theorem State.putSat_mer (c : CoreId) (rd : Reg) (v : W64 × Bool) : (s.putSat c rd v).mer = s.mer := rfl
@[simp] theorem State.putSat_regs (c : CoreId) (rd : Reg) (v : W64 × Bool) : (s.putSat c rd v).regs = s.regs := rfl
@[simp] theorem State.putSat_cap (c : CoreId) (rd : Reg) (v : W64 × Bool) : (s.putSat c rd v).cap = s.cap := rfl
@[simp] theorem State.putSat_busData (c : CoreId) (rd : Reg) (v : W64 × Bool) : (s.putSat c rd v).busData = s.busData := rfl
@[simp] theorem State.putSat_parIn (c : CoreId) (rd : Reg) (v : W64 × Bool) : (s.putSat c rd v).parIn = s.parIn := rfl
@[simp] theorem State.putSat_parQ (c : CoreId) (rd : Reg) (v : W64 × Bool) : (s.putSat c rd v).parQ = s.parQ := rfl
@[simp] theorem State.putSat_mem (c : CoreId) (rd : Reg) (v : W64 × Bool) : (s.putSat c rd v).mem = s.mem := rfl
@[simp] theorem State.putSat_ecc (c : CoreId) (rd : Reg) (v : W64 × Bool) : (s.putSat c rd v).ecc = s.ecc := rfl
@[simp] theorem State.putSat_memDie (c : CoreId) (rd : Reg) (v : W64 × Bool) : (s.putSat c rd v).memDie = s.memDie := rfl
@[simp] theorem State.putSat_fb (c : CoreId) (rd : Reg) (v : W64 × Bool) : (s.putSat c rd v).fb = s.fb := rfl
@[simp] theorem State.putSat_wdx (c : CoreId) (rd : Reg) (v : W64 × Bool) : (s.putSat c rd v).wdx = s.wdx := rfl
@[simp] theorem State.putSat_dma (c : CoreId) (rd : Reg) (v : W64 × Bool) : (s.putSat c rd v).dma = s.dma := rfl
@[simp] theorem State.putSat_trv (c : CoreId) (rd : Reg) (v : W64 × Bool) : (s.putSat c rd v).trv = s.trv := rfl
@[simp] theorem State.putSat_enc (c : CoreId) (rd : Reg) (v : W64 × Bool) : (s.putSat c rd v).enc = s.enc := rfl
@[simp] theorem State.putSat_sle (c : CoreId) (rd : Reg) (v : W64 × Bool) : (s.putSat c rd v).sle = s.sle := rfl
@[simp] theorem State.putSat_tri (c : CoreId) (rd : Reg) (v : W64 × Bool) : (s.putSat c rd v).tri = s.tri := rfl
@[simp] theorem State.putSat_bus (c : CoreId) (rd : Reg) (v : W64 × Bool) : (s.putSat c rd v).bus = s.bus := rfl
@[simp] theorem State.putSat_ctm (c : CoreId) (rd : Reg) (v : W64 × Bool) : (s.putSat c rd v).ctm = s.ctm := rfl
@[simp] theorem State.putSat_crt (c : CoreId) (rd : Reg) (v : W64 × Bool) : (s.putSat c rd v).crt = s.crt := rfl
@[simp] theorem State.putSat_hostA (c : CoreId) (rd : Reg) (v : W64 × Bool) : (s.putSat c rd v).hostA = s.hostA := rfl
@[simp] theorem State.putSat_hostB (c : CoreId) (rd : Reg) (v : W64 × Bool) : (s.putSat c rd v).hostB = s.hostB := rfl
@[simp] theorem State.putSat_rdn (c : CoreId) (rd : Reg) (v : W64 × Bool) : (s.putSat c rd v).rdn = s.rdn := rfl
@[simp] theorem State.putSat_feedA (c : CoreId) (rd : Reg) (v : W64 × Bool) : (s.putSat c rd v).feedA = s.feedA := rfl
@[simp] theorem State.putSat_feedB (c : CoreId) (rd : Reg) (v : W64 × Bool) : (s.putSat c rd v).feedB = s.feedB := rfl
@[simp] theorem State.putSat_sfy (c : CoreId) (rd : Reg) (v : W64 × Bool) : (s.putSat c rd v).sfy = s.sfy := rfl
@[simp] theorem State.putSat_freeCtr (c : CoreId) (rd : Reg) (v : W64 × Bool) : (s.putSat c rd v).freeCtr = s.freeCtr := rfl

/-! ### State.poke -/

@[simp] theorem State.poke_pending (a : Nat) (l : List Byte) : (s.poke a l).pending = s.pending := rfl
@[simp] theorem State.poke_sys (a : Nat) (l : List Byte) : (s.poke a l).sys = s.sys := rfl
@[simp] theorem State.poke_mer (a : Nat) (l : List Byte) : (s.poke a l).mer = s.mer := rfl
@[simp] theorem State.poke_regs (a : Nat) (l : List Byte) : (s.poke a l).regs = s.regs := rfl
@[simp] theorem State.poke_cap (a : Nat) (l : List Byte) : (s.poke a l).cap = s.cap := rfl
@[simp] theorem State.poke_busData (a : Nat) (l : List Byte) : (s.poke a l).busData = s.busData := rfl
@[simp] theorem State.poke_parIn (a : Nat) (l : List Byte) : (s.poke a l).parIn = s.parIn := rfl
@[simp] theorem State.poke_parQ (a : Nat) (l : List Byte) : (s.poke a l).parQ = s.parQ := rfl
@[simp] theorem State.poke_ecc (a : Nat) (l : List Byte) : (s.poke a l).ecc = s.ecc := rfl
@[simp] theorem State.poke_memDie (a : Nat) (l : List Byte) : (s.poke a l).memDie = s.memDie := rfl
@[simp] theorem State.poke_fb (a : Nat) (l : List Byte) : (s.poke a l).fb = s.fb := rfl
@[simp] theorem State.poke_wdx (a : Nat) (l : List Byte) : (s.poke a l).wdx = s.wdx := rfl
@[simp] theorem State.poke_cores (a : Nat) (l : List Byte) : (s.poke a l).cores = s.cores := rfl
@[simp] theorem State.poke_dma (a : Nat) (l : List Byte) : (s.poke a l).dma = s.dma := rfl
@[simp] theorem State.poke_trv (a : Nat) (l : List Byte) : (s.poke a l).trv = s.trv := rfl
@[simp] theorem State.poke_enc (a : Nat) (l : List Byte) : (s.poke a l).enc = s.enc := rfl
@[simp] theorem State.poke_sle (a : Nat) (l : List Byte) : (s.poke a l).sle = s.sle := rfl
@[simp] theorem State.poke_tri (a : Nat) (l : List Byte) : (s.poke a l).tri = s.tri := rfl
@[simp] theorem State.poke_bus (a : Nat) (l : List Byte) : (s.poke a l).bus = s.bus := rfl
@[simp] theorem State.poke_ctm (a : Nat) (l : List Byte) : (s.poke a l).ctm = s.ctm := rfl
@[simp] theorem State.poke_crt (a : Nat) (l : List Byte) : (s.poke a l).crt = s.crt := rfl
@[simp] theorem State.poke_hostA (a : Nat) (l : List Byte) : (s.poke a l).hostA = s.hostA := rfl
@[simp] theorem State.poke_hostB (a : Nat) (l : List Byte) : (s.poke a l).hostB = s.hostB := rfl
@[simp] theorem State.poke_rdn (a : Nat) (l : List Byte) : (s.poke a l).rdn = s.rdn := rfl
@[simp] theorem State.poke_feedA (a : Nat) (l : List Byte) : (s.poke a l).feedA = s.feedA := rfl
@[simp] theorem State.poke_feedB (a : Nat) (l : List Byte) : (s.poke a l).feedB = s.feedB := rfl
@[simp] theorem State.poke_sfy (a : Nat) (l : List Byte) : (s.poke a l).sfy = s.sfy := rfl
@[simp] theorem State.poke_freeCtr (a : Nat) (l : List Byte) : (s.poke a l).freeCtr = s.freeCtr := rfl

/-! ### State.setMd -/

@[simp] theorem State.setMd_pending (d : Nat) (x : MemDie) : (s.setMd d x).pending = s.pending := rfl
@[simp] theorem State.setMd_sys (d : Nat) (x : MemDie) : (s.setMd d x).sys = s.sys := rfl
@[simp] theorem State.setMd_mer (d : Nat) (x : MemDie) : (s.setMd d x).mer = s.mer := rfl
@[simp] theorem State.setMd_regs (d : Nat) (x : MemDie) : (s.setMd d x).regs = s.regs := rfl
@[simp] theorem State.setMd_cap (d : Nat) (x : MemDie) : (s.setMd d x).cap = s.cap := rfl
@[simp] theorem State.setMd_busData (d : Nat) (x : MemDie) : (s.setMd d x).busData = s.busData := rfl
@[simp] theorem State.setMd_parIn (d : Nat) (x : MemDie) : (s.setMd d x).parIn = s.parIn := rfl
@[simp] theorem State.setMd_parQ (d : Nat) (x : MemDie) : (s.setMd d x).parQ = s.parQ := rfl
@[simp] theorem State.setMd_mem (d : Nat) (x : MemDie) : (s.setMd d x).mem = s.mem := rfl
@[simp] theorem State.setMd_ecc (d : Nat) (x : MemDie) : (s.setMd d x).ecc = s.ecc := rfl
@[simp] theorem State.setMd_fb (d : Nat) (x : MemDie) : (s.setMd d x).fb = s.fb := rfl
@[simp] theorem State.setMd_wdx (d : Nat) (x : MemDie) : (s.setMd d x).wdx = s.wdx := rfl
@[simp] theorem State.setMd_cores (d : Nat) (x : MemDie) : (s.setMd d x).cores = s.cores := rfl
@[simp] theorem State.setMd_dma (d : Nat) (x : MemDie) : (s.setMd d x).dma = s.dma := rfl
@[simp] theorem State.setMd_trv (d : Nat) (x : MemDie) : (s.setMd d x).trv = s.trv := rfl
@[simp] theorem State.setMd_enc (d : Nat) (x : MemDie) : (s.setMd d x).enc = s.enc := rfl
@[simp] theorem State.setMd_sle (d : Nat) (x : MemDie) : (s.setMd d x).sle = s.sle := rfl
@[simp] theorem State.setMd_tri (d : Nat) (x : MemDie) : (s.setMd d x).tri = s.tri := rfl
@[simp] theorem State.setMd_bus (d : Nat) (x : MemDie) : (s.setMd d x).bus = s.bus := rfl
@[simp] theorem State.setMd_ctm (d : Nat) (x : MemDie) : (s.setMd d x).ctm = s.ctm := rfl
@[simp] theorem State.setMd_crt (d : Nat) (x : MemDie) : (s.setMd d x).crt = s.crt := rfl
@[simp] theorem State.setMd_hostA (d : Nat) (x : MemDie) : (s.setMd d x).hostA = s.hostA := rfl
@[simp] theorem State.setMd_hostB (d : Nat) (x : MemDie) : (s.setMd d x).hostB = s.hostB := rfl
@[simp] theorem State.setMd_rdn (d : Nat) (x : MemDie) : (s.setMd d x).rdn = s.rdn := rfl
@[simp] theorem State.setMd_feedA (d : Nat) (x : MemDie) : (s.setMd d x).feedA = s.feedA := rfl
@[simp] theorem State.setMd_feedB (d : Nat) (x : MemDie) : (s.setMd d x).feedB = s.feedB := rfl
@[simp] theorem State.setMd_sfy (d : Nat) (x : MemDie) : (s.setMd d x).sfy = s.sfy := rfl
@[simp] theorem State.setMd_freeCtr (d : Nat) (x : MemDie) : (s.setMd d x).freeCtr = s.freeCtr := rfl

/-! ### State.advance -/

@[simp] theorem State.advance_pending (n : Nat) : (s.advance n).pending = s.pending := rfl
@[simp] theorem State.advance_sys (n : Nat) : (s.advance n).sys = s.sys := rfl
@[simp] theorem State.advance_regs (n : Nat) : (s.advance n).regs = s.regs := rfl
@[simp] theorem State.advance_cap (n : Nat) : (s.advance n).cap = s.cap := rfl
@[simp] theorem State.advance_busData (n : Nat) : (s.advance n).busData = s.busData := rfl
@[simp] theorem State.advance_parIn (n : Nat) : (s.advance n).parIn = s.parIn := rfl
@[simp] theorem State.advance_parQ (n : Nat) : (s.advance n).parQ = s.parQ := rfl
@[simp] theorem State.advance_mem (n : Nat) : (s.advance n).mem = s.mem := rfl
@[simp] theorem State.advance_ecc (n : Nat) : (s.advance n).ecc = s.ecc := rfl
@[simp] theorem State.advance_memDie (n : Nat) : (s.advance n).memDie = s.memDie := rfl
@[simp] theorem State.advance_fb (n : Nat) : (s.advance n).fb = s.fb := rfl
@[simp] theorem State.advance_cores (n : Nat) : (s.advance n).cores = s.cores := rfl
@[simp] theorem State.advance_dma (n : Nat) : (s.advance n).dma = s.dma := rfl
@[simp] theorem State.advance_trv (n : Nat) : (s.advance n).trv = s.trv := rfl
@[simp] theorem State.advance_enc (n : Nat) : (s.advance n).enc = s.enc := rfl
@[simp] theorem State.advance_sle (n : Nat) : (s.advance n).sle = s.sle := rfl
@[simp] theorem State.advance_tri (n : Nat) : (s.advance n).tri = s.tri := rfl
@[simp] theorem State.advance_bus (n : Nat) : (s.advance n).bus = s.bus := rfl
@[simp] theorem State.advance_ctm (n : Nat) : (s.advance n).ctm = s.ctm := rfl
@[simp] theorem State.advance_crt (n : Nat) : (s.advance n).crt = s.crt := rfl
@[simp] theorem State.advance_hostA (n : Nat) : (s.advance n).hostA = s.hostA := rfl
@[simp] theorem State.advance_hostB (n : Nat) : (s.advance n).hostB = s.hostB := rfl
@[simp] theorem State.advance_rdn (n : Nat) : (s.advance n).rdn = s.rdn := rfl
@[simp] theorem State.advance_feedA (n : Nat) : (s.advance n).feedA = s.feedA := rfl
@[simp] theorem State.advance_feedB (n : Nat) : (s.advance n).feedB = s.feedB := rfl
@[simp] theorem State.advance_sfy (n : Nat) : (s.advance n).sfy = s.sfy := rfl
@[simp] theorem State.advance_freeCtr (n : Nat) : (s.advance n).freeCtr = s.freeCtr := rfl

/-! ### State.log -/

@[simp] theorem State.log_pending (code sev die block obj d0 d1 : Nat) : (s.log code sev die block obj d0 d1).pending = s.pending := by
  unfold State.log; dsimp only; split_ifs <;> rfl
@[simp] theorem State.log_sys (code sev die block obj d0 d1 : Nat) : (s.log code sev die block obj d0 d1).sys = s.sys := by
  unfold State.log; dsimp only; split_ifs <;> rfl
@[simp] theorem State.log_mer (code sev die block obj d0 d1 : Nat) : (s.log code sev die block obj d0 d1).mer = s.mer := by
  unfold State.log; dsimp only; split_ifs <;> rfl
@[simp] theorem State.log_regs (code sev die block obj d0 d1 : Nat) : (s.log code sev die block obj d0 d1).regs = s.regs := by
  unfold State.log; dsimp only; split_ifs <;> rfl
@[simp] theorem State.log_cap (code sev die block obj d0 d1 : Nat) : (s.log code sev die block obj d0 d1).cap = s.cap := by
  unfold State.log; dsimp only; split_ifs <;> rfl
@[simp] theorem State.log_busData (code sev die block obj d0 d1 : Nat) : (s.log code sev die block obj d0 d1).busData = s.busData := by
  unfold State.log; dsimp only; split_ifs <;> rfl
@[simp] theorem State.log_mem (code sev die block obj d0 d1 : Nat) : (s.log code sev die block obj d0 d1).mem = s.mem := by
  unfold State.log; dsimp only; split_ifs <;> rfl
@[simp] theorem State.log_ecc (code sev die block obj d0 d1 : Nat) : (s.log code sev die block obj d0 d1).ecc = s.ecc := by
  unfold State.log; dsimp only; split_ifs <;> rfl
@[simp] theorem State.log_memDie (code sev die block obj d0 d1 : Nat) : (s.log code sev die block obj d0 d1).memDie = s.memDie := by
  unfold State.log; dsimp only; split_ifs <;> rfl
@[simp] theorem State.log_wdx (code sev die block obj d0 d1 : Nat) : (s.log code sev die block obj d0 d1).wdx = s.wdx := by
  unfold State.log; dsimp only; split_ifs <;> rfl
@[simp] theorem State.log_cores (code sev die block obj d0 d1 : Nat) : (s.log code sev die block obj d0 d1).cores = s.cores := by
  unfold State.log; dsimp only; split_ifs <;> rfl
@[simp] theorem State.log_dma (code sev die block obj d0 d1 : Nat) : (s.log code sev die block obj d0 d1).dma = s.dma := by
  unfold State.log; dsimp only; split_ifs <;> rfl
@[simp] theorem State.log_trv (code sev die block obj d0 d1 : Nat) : (s.log code sev die block obj d0 d1).trv = s.trv := by
  unfold State.log; dsimp only; split_ifs <;> rfl
@[simp] theorem State.log_enc (code sev die block obj d0 d1 : Nat) : (s.log code sev die block obj d0 d1).enc = s.enc := by
  unfold State.log; dsimp only; split_ifs <;> rfl
@[simp] theorem State.log_sle (code sev die block obj d0 d1 : Nat) : (s.log code sev die block obj d0 d1).sle = s.sle := by
  unfold State.log; dsimp only; split_ifs <;> rfl
@[simp] theorem State.log_tri (code sev die block obj d0 d1 : Nat) : (s.log code sev die block obj d0 d1).tri = s.tri := by
  unfold State.log; dsimp only; split_ifs <;> rfl
@[simp] theorem State.log_bus (code sev die block obj d0 d1 : Nat) : (s.log code sev die block obj d0 d1).bus = s.bus := by
  unfold State.log; dsimp only; split_ifs <;> rfl
@[simp] theorem State.log_ctm (code sev die block obj d0 d1 : Nat) : (s.log code sev die block obj d0 d1).ctm = s.ctm := by
  unfold State.log; dsimp only; split_ifs <;> rfl
@[simp] theorem State.log_crt (code sev die block obj d0 d1 : Nat) : (s.log code sev die block obj d0 d1).crt = s.crt := by
  unfold State.log; dsimp only; split_ifs <;> rfl
@[simp] theorem State.log_hostA (code sev die block obj d0 d1 : Nat) : (s.log code sev die block obj d0 d1).hostA = s.hostA := by
  unfold State.log; dsimp only; split_ifs <;> rfl
@[simp] theorem State.log_hostB (code sev die block obj d0 d1 : Nat) : (s.log code sev die block obj d0 d1).hostB = s.hostB := by
  unfold State.log; dsimp only; split_ifs <;> rfl
@[simp] theorem State.log_rdn (code sev die block obj d0 d1 : Nat) : (s.log code sev die block obj d0 d1).rdn = s.rdn := by
  unfold State.log; dsimp only; split_ifs <;> rfl
@[simp] theorem State.log_feedA (code sev die block obj d0 d1 : Nat) : (s.log code sev die block obj d0 d1).feedA = s.feedA := by
  unfold State.log; dsimp only; split_ifs <;> rfl
@[simp] theorem State.log_feedB (code sev die block obj d0 d1 : Nat) : (s.log code sev die block obj d0 d1).feedB = s.feedB := by
  unfold State.log; dsimp only; split_ifs <;> rfl
@[simp] theorem State.log_sfy (code sev die block obj d0 d1 : Nat) : (s.log code sev die block obj d0 d1).sfy = s.sfy := by
  unfold State.log; dsimp only; split_ifs <;> rfl
@[simp] theorem State.log_freeCtr (code sev die block obj d0 d1 : Nat) : (s.log code sev die block obj d0 d1).freeCtr = s.freeCtr := by
  unfold State.log; dsimp only; split_ifs <;> rfl

/-! ### State.enterPar and State.takePars -/

@[simp] theorem State.enterPar_pending (r : Nat) : (s.enterPar r).pending = s.pending := rfl
@[simp] theorem State.enterPar_sys (r : Nat) : (s.enterPar r).sys = s.sys := rfl
@[simp] theorem State.enterPar_mer (r : Nat) : (s.enterPar r).mer = s.mer := rfl
@[simp] theorem State.enterPar_regs (r : Nat) : (s.enterPar r).regs = s.regs := rfl
@[simp] theorem State.enterPar_cap (r : Nat) : (s.enterPar r).cap = s.cap := rfl
@[simp] theorem State.enterPar_busData (r : Nat) : (s.enterPar r).busData = s.busData := rfl
@[simp] theorem State.enterPar_mem (r : Nat) : (s.enterPar r).mem = s.mem := rfl
@[simp] theorem State.enterPar_ecc (r : Nat) : (s.enterPar r).ecc = s.ecc := rfl
@[simp] theorem State.enterPar_memDie (r : Nat) : (s.enterPar r).memDie = s.memDie := rfl
@[simp] theorem State.enterPar_fb (r : Nat) : (s.enterPar r).fb = s.fb := rfl
@[simp] theorem State.enterPar_wdx (r : Nat) : (s.enterPar r).wdx = s.wdx := rfl
@[simp] theorem State.enterPar_cores (r : Nat) : (s.enterPar r).cores = s.cores := rfl
@[simp] theorem State.enterPar_dma (r : Nat) : (s.enterPar r).dma = s.dma := rfl
@[simp] theorem State.enterPar_trv (r : Nat) : (s.enterPar r).trv = s.trv := rfl
@[simp] theorem State.enterPar_enc (r : Nat) : (s.enterPar r).enc = s.enc := rfl
@[simp] theorem State.enterPar_sle (r : Nat) : (s.enterPar r).sle = s.sle := rfl
@[simp] theorem State.enterPar_tri (r : Nat) : (s.enterPar r).tri = s.tri := rfl
@[simp] theorem State.enterPar_bus (r : Nat) : (s.enterPar r).bus = s.bus := rfl
@[simp] theorem State.enterPar_ctm (r : Nat) : (s.enterPar r).ctm = s.ctm := rfl
@[simp] theorem State.enterPar_crt (r : Nat) : (s.enterPar r).crt = s.crt := rfl
@[simp] theorem State.enterPar_hostA (r : Nat) : (s.enterPar r).hostA = s.hostA := rfl
@[simp] theorem State.enterPar_hostB (r : Nat) : (s.enterPar r).hostB = s.hostB := rfl
@[simp] theorem State.enterPar_rdn (r : Nat) : (s.enterPar r).rdn = s.rdn := rfl
@[simp] theorem State.enterPar_feedA (r : Nat) : (s.enterPar r).feedA = s.feedA := rfl
@[simp] theorem State.enterPar_feedB (r : Nat) : (s.enterPar r).feedB = s.feedB := rfl
@[simp] theorem State.enterPar_sfy (r : Nat) : (s.enterPar r).sfy = s.sfy := rfl
@[simp] theorem State.enterPar_freeCtr (r : Nat) : (s.enterPar r).freeCtr = s.freeCtr := rfl
@[simp] theorem State.enterPar_parIn (r : Nat) : (s.enterPar r).parIn = s.parIn := rfl
@[simp] theorem State.enterPar_parQ (r : Nat) : (s.enterPar r).parQ = s.parQ ++ [(r, s.mer.phase, s.rd r)] := rfl
@[simp] theorem State.takePars_pending (lim : Nat) : (s.takePars lim).pending = s.pending := rfl
@[simp] theorem State.takePars_sys (lim : Nat) : (s.takePars lim).sys = s.sys := rfl
@[simp] theorem State.takePars_mer (lim : Nat) : (s.takePars lim).mer = s.mer := rfl
@[simp] theorem State.takePars_regs (lim : Nat) : (s.takePars lim).regs = s.regs := rfl
@[simp] theorem State.takePars_cap (lim : Nat) : (s.takePars lim).cap = s.cap := rfl
@[simp] theorem State.takePars_busData (lim : Nat) : (s.takePars lim).busData = s.busData := rfl
@[simp] theorem State.takePars_mem (lim : Nat) : (s.takePars lim).mem = s.mem := rfl
@[simp] theorem State.takePars_ecc (lim : Nat) : (s.takePars lim).ecc = s.ecc := rfl
@[simp] theorem State.takePars_memDie (lim : Nat) : (s.takePars lim).memDie = s.memDie := rfl
@[simp] theorem State.takePars_fb (lim : Nat) : (s.takePars lim).fb = s.fb := rfl
@[simp] theorem State.takePars_wdx (lim : Nat) : (s.takePars lim).wdx = s.wdx := rfl
@[simp] theorem State.takePars_cores (lim : Nat) : (s.takePars lim).cores = s.cores := rfl
@[simp] theorem State.takePars_dma (lim : Nat) : (s.takePars lim).dma = s.dma := rfl
@[simp] theorem State.takePars_trv (lim : Nat) : (s.takePars lim).trv = s.trv := rfl
@[simp] theorem State.takePars_enc (lim : Nat) : (s.takePars lim).enc = s.enc := rfl
@[simp] theorem State.takePars_sle (lim : Nat) : (s.takePars lim).sle = s.sle := rfl
@[simp] theorem State.takePars_tri (lim : Nat) : (s.takePars lim).tri = s.tri := rfl
@[simp] theorem State.takePars_bus (lim : Nat) : (s.takePars lim).bus = s.bus := rfl
@[simp] theorem State.takePars_ctm (lim : Nat) : (s.takePars lim).ctm = s.ctm := rfl
@[simp] theorem State.takePars_crt (lim : Nat) : (s.takePars lim).crt = s.crt := rfl
@[simp] theorem State.takePars_hostA (lim : Nat) : (s.takePars lim).hostA = s.hostA := rfl
@[simp] theorem State.takePars_hostB (lim : Nat) : (s.takePars lim).hostB = s.hostB := rfl
@[simp] theorem State.takePars_rdn (lim : Nat) : (s.takePars lim).rdn = s.rdn := rfl
@[simp] theorem State.takePars_feedA (lim : Nat) : (s.takePars lim).feedA = s.feedA := rfl
@[simp] theorem State.takePars_feedB (lim : Nat) : (s.takePars lim).feedB = s.feedB := rfl
@[simp] theorem State.takePars_sfy (lim : Nat) : (s.takePars lim).sfy = s.sfy := rfl
@[simp] theorem State.takePars_freeCtr (lim : Nat) : (s.takePars lim).freeCtr = s.freeCtr := rfl

/-! ### What is written -/

@[simp] theorem State.rd_wr (r q : Nat) (v : W32) : (s.wr r v).rd q = if q = r then v else s.rd q := by
  simp [State.rd, State.wr]

@[simp] theorem State.capOf_setCap (r q : Nat) (v : W32) : (s.setCap r v).capOf q = if q = r then v else s.capOf q := by
  simp [State.capOf, State.setCap]

@[simp] theorem State.sheet_setSheet (d e : Nat) (x : Sheet) : (s.setSheet d x).sheet e = if e = d then x else s.sheet e := by
  simp [State.sheet, State.setSheet]

@[simp] theorem State.core_setCore (c d : CoreId) (x : Core) :
    (s.setCore c x).core d = if coreKey d = coreKey c then x else s.core d := by
  simp [State.core, State.setCore]

@[simp] theorem State.core_updCore (c d : CoreId) (f : Core → Core) :
    (s.updCore c f).core d = if coreKey d = coreKey c then f (s.core c) else s.core d := by
  simp [State.updCore]

@[simp] theorem State.md_setMd (d e : Nat) (x : MemDie) : (s.setMd d x).md e = if e = d then x else s.md e := by
  simp [State.md, State.setMd]

/-- The registers of a core after a write of rd: g0 reads 0 and discards writes (R38). -/
@[simp] theorem Core.reg_setReg (x : Core) (rd r : Reg) (v : W64) :
    (x.setReg rd v).reg r = if r = rd ∧ r ≠ 0 then v else x.reg r := by
  unfold Core.reg Core.setReg
  by_cases h0 : r = 0
  · subst h0; rw [if_pos rfl, if_pos rfl, if_neg (by simp)]
  · rw [if_neg h0, if_neg h0]
    by_cases hd : rd = 0
    · subst hd; rw [if_pos rfl, if_neg (by simp)]
    · rw [if_neg hd]
      by_cases h : r = rd
      · subst h; rw [if_pos ⟨rfl, h0⟩]; exact (Table.get_set _ _ _ _ _).trans (if_pos rfl)
      · rw [if_neg (by simp [h])]
        exact (Table.get_set _ _ _ _ _).trans (if_neg fun e => h (BitVec.eq_of_toNat_eq e))

/-- A write of rd changes the register file alone. -/
theorem Core.setReg_eq (x : Core) (rd : Reg) (v : W64) : ∃ g, x.setReg rd v = { x with g := g } := by
  unfold Core.setReg
  split_ifs
  · exact ⟨x.g, rfl⟩
  · exact ⟨_, rfl⟩

end Sys2Proof.Machine
end

