-- ==== Sys2Proof/Laws/Core.lean ====
section
/-! SUPPORT. What reading memory, reporting an error, firing an event and fetching an instruction leave unchanged, and when an
instruction's body runs. -/

namespace Sys2Proof.Machine

/-- `t` is `s` but for stored register fields, bank control, the Field Book and the dispatcher: all that the report of an error may
write. -/
def State.sameBut (s t : State) : Prop := { t with regs := s.regs, memDie := s.memDie, fb := s.fb, wdx := s.wdx } = s

theorem State.sameBut.trans {s t u : State} (h : s.sameBut t) (k : t.sameBut u) : s.sameBut u := by
  unfold State.sameBut at *
  rw [← h]; rw [← k]

theorem State.sameBut.cores {s t : State} (h : s.sameBut t) : t.cores = s.cores := by
  have k := congrArg State.cores (show { t with regs := s.regs, memDie := s.memDie, fb := s.fb, wdx := s.wdx } = s from h)
  exact k

theorem State.sameBut.mem {s t : State} (h : s.sameBut t) : t.mem = s.mem := by
  have k := congrArg State.mem (show { t with regs := s.regs, memDie := s.memDie, fb := s.fb, wdx := s.wdx } = s from h)
  exact k

theorem State.sameBut.ecc {s t : State} (h : s.sameBut t) : t.ecc = s.ecc := by
  have k := congrArg State.ecc (show { t with regs := s.regs, memDie := s.memDie, fb := s.fb, wdx := s.wdx } = s from h)
  exact k

theorem State.sameBut.freeCtr {s t : State} (h : s.sameBut t) : t.freeCtr = s.freeCtr := by
  have k := congrArg State.freeCtr (show { t with regs := s.regs, memDie := s.memDie, fb := s.fb, wdx := s.wdx } = s from h)
  exact k

theorem State.sameBut.byte {s t : State} (h : s.sameBut t) (a : Nat) : t.byte a = s.byte a := by
  unfold State.byte; rw [h.mem]

theorem State.sameBut.core {s t : State} (h : s.sameBut t) (c : CoreId) : t.core c = s.core c := by
  unfold State.core; rw [h.cores]

theorem ite_same {s a b : State} {p : Prop} [Decidable p] (ha : s.sameBut a) (hb : s.sameBut b) : s.sameBut (if p then a else b) := by
  split_ifs <;> assumption

/-! ### Reports and events -/

theorem count_same (s : State) (r lo w n : Nat) : s.sameBut (s.count r lo w n) := rfl
theorem setMd_same (s : State) (d : Nat) (x : MemDie) : s.sameBut (s.setMd d x) := rfl

theorem log_same (s : State) (a b c d e f g : Nat) : s.sameBut (s.log a b c d e f g) := by
  unfold State.sameBut State.log; dsimp only; split_ifs <;> rfl

theorem displace_same (s : State) (n : Nat) : s.sameBut (s.displace n) := by
  unfold State.sameBut State.displace
  split
  · rfl
  · dsimp only; split
    · rfl
    · split
      · rfl
      · split <;> rfl

theorem arrive_same (s : State) (n d e) : s.sameBut (s.arrive n d e) := State.sameBut.trans (by rfl) (displace_same _ _)

theorem createEvt_same (s : State) (e w c : Nat) (d dl o) : s.sameBut (s.createEvt e w c d dl o) := by
  unfold State.createEvt
  split
  · rfl
  · dsimp only; split
    · exact (arrive_same _ _ _ _).trans rfl
    · exact arrive_same _ _ _ _

theorem fired_same (s : State) (e) : s.sameBut (s.fired e) := by unfold State.fired; split <;> rfl

/-- Firing an event changes only the dispatcher and the Field Book. -/
theorem fireCoal_same (s : State) (e w : Nat) : s.sameBut (s.fireCoal e w) := by
  unfold State.fireCoal
  refine (fired_same s e).trans ?_
  dsimp only
  split
  · rfl
  · split
    · exact log_same ..
    · split
      · rfl
      · rfl
      · split
        · exact log_same ..
        · split
          · rfl
          · exact createEvt_same ..

theorem report_same (s : State) (x : MemDie) (r d a b c e f g h : Nat) :
    s.sameBut (((s.count r 16 16).setMd d x).log a b c e f g h) :=
  State.sameBut.trans (s := s) (t := (s.count r 16 16).setMd d x) rfl (log_same ..)

theorem reportUncorr_same (s : State) (w src) : s.sameBut (s.reportUncorr w src) := by
  unfold State.reportUncorr
  exact ite_same ((report_same ..).trans (fireCoal_same ..)) (report_same ..)

theorem reportLm_same (s : State) (d o src) : s.sameBut (s.reportLm d o src) := by
  unfold State.reportLm
  exact ite_same ((report_same ..).trans (fireCoal_same ..)) (report_same ..)

theorem wakeBank_same (s : State) (d b) : s.sameBut (s.wakeBank d b) := by
  unfold State.wakeBank; dsimp only; split <;> rfl

/-! ### Reading -/

/-- Reading one word of SRAM changes no byte and no core. -/
theorem checkWord_same (s : State) (w src) : s.sameBut (s.checkWord w src).1 := by
  unfold State.checkWord; dsimp only
  split_ifs
  · exact wakeBank_same ..
  · exact (wakeBank_same ..).trans (count_same ..)
  · exact (wakeBank_same ..).trans (reportUncorr_same ..)

theorem checkWords_same (src : Nat) (l : List Nat) : ∀ s : State, s.sameBut (checkWords src l s).1 := by
  induction l with
  | nil => exact fun s => rfl
  | cons w l ih => exact fun s => (checkWord_same s w src).trans (ih _)

/-- Reading SRAM changes no byte and no core. -/
theorem readMem_same (s : State) (a n src : Nat) : s.sameBut (s.readMem a n src).1 := checkWords_same src _ s

theorem readLm_same (s : State) (c o n) : s.sameBut (s.readLm c o n).1 := by
  unfold State.readLm; dsimp only
  split
  · rfl
  · split
    · exact count_same ..
    · exact reportLm_same ..

/-- A core's word that has at most 4 bad symbols is read without an error. -/
theorem checkWord_ok (s : State) (w src : Nat) (h : s.badSyms w ≤ 4) : (s.checkWord w src).2 = true := by
  unfold State.checkWord; dsimp only; split_ifs <;> simp_all

theorem checkWord_badSyms (s : State) (w v src : Nat) : (s.checkWord w src).1.badSyms v = s.badSyms v := by
  unfold State.badSyms; rw [(checkWord_same s w src).ecc]

theorem checkWords_ok (src : Nat) (l : List Nat) : ∀ s : State, (∀ w ∈ l, s.badSyms w ≤ 4) → (checkWords src l s).2 = true := by
  induction l with
  | nil => exact fun s _ => rfl
  | cons w l ih =>
    intro s h
    have a := checkWord_ok s w src (h w (List.mem_cons_self ..))
    have b := ih (s.checkWord w src).1 fun v hv => by rw [checkWord_badSyms]; exact h v (List.mem_cons_of_mem _ hv)
    show ((s.checkWord w src).2 && (checkWords src l (s.checkWord w src).1).2) = true
    rw [a, b]; rfl

/-- A read of bytes without an uncorrectable word brings the bytes as they stand. -/
theorem readMem_readable (s : State) (a n src : Nat) (h : s.readable a n) : (s.readMem a n src).2 = some (s.bytes a n) := by
  have k : (s.readMem a n src).2 = if (checkWords src (wordsOf a n) s).2 then some (s.bytes a n) else none := rfl
  rw [k, if_pos (checkWords_ok src _ s h.2)]

/-! ### The fetch -/

/-- `t` is `s` but for the I-caches, the reports of errors and the counter of free values. -/
def State.cacheOnly (s t : State) : Prop :=
  (∀ d, { t.core d with icache := (s.core d).icache } = s.core d) ∧
    { t with cores := s.cores, regs := s.regs, memDie := s.memDie, fb := s.fb, wdx := s.wdx, freeCtr := s.freeCtr } = s

theorem State.cacheOnly.byte {s t : State} (h : s.cacheOnly t) (a : Nat) : t.byte a = s.byte a := by
  have k := congrArg State.mem h.2
  exact congrArg (fun m => Table.get memDefault m a) k

theorem State.cacheOnly.reg {s t : State} (h : s.cacheOnly t) (c : CoreId) (r : Reg) : t.reg c r = s.reg c r := by
  have k := congrArg (fun x => Core.reg x r) (h.1 c)
  exact k

theorem State.sameBut.cacheOnly {s t : State} (h : s.sameBut t) : s.cacheOnly t := by
  refine ⟨fun d => by rw [h.core], ?_⟩
  unfold State.sameBut at h; conv_rhs => rw [← h]
  have e1 := State.sameBut.cores h
  have e2 := State.sameBut.freeCtr h
  simp [e1, e2]

/-- Allocating an I-cache line. -/
theorem fillLine_same {s q : State} (h : s.sameBut q) (c : CoreId) (n : CLine) :
    s.cacheOnly { q.updCore c fun x => { x with icache := cachePut q.freeCtr x.icache n } with freeCtr := q.freeCtr + 1 } := by
  have k := h.cacheOnly
  refine ⟨fun d => ?_, ?_⟩
  · rw [← k.1 d]
    simp only [State.core, State.updCore, State.setCore, Table.get_set]
    split_ifs with e
    · rw [e]
    · rfl
  · have k2 := k.2
    exact k2

theorem lineFill_same (s : State) (c : CoreId) (a : Nat) : s.cacheOnly (s.lineFill c a true).1 := by
  unfold State.lineFill
  simp only [if_true]
  generalize (if sramDie a = some c.die then 0 else 1) = src
  have h := (checkWord_same s (a / 32) src).trans (checkWord_same _ (4 * (a / 64) + 1 - a / 32) src)
  split
  · exact fillLine_same h c _
  · exact h.cacheOnly

/-- The fetch changes no register, no byte of SRAM and nothing of a core but its I-cache. -/
theorem fetch_same (s : State) (c : CoreId) : s.cacheOnly (s.fetch c).1 := by
  unfold State.fetch
  dsimp only
  split
  · exact State.sameBut.cacheOnly rfl
  · split
    · exact (readLm_same ..).cacheOnly
    · split
      · exact State.sameBut.cacheOnly rfl
      · exact lineFill_same ..

/-! ### One instruction -/

/-- A ready core runs the body on the fetched state, and takes the exception that the body ends in. -/
theorem runInstr_ready (c : CoreId) (body : State → CRes) (s : State) (h : s.ready c = true) :
    runInstr c body s = match body (s.fetched c) with
      | .ok u => u
      | .exc u e => u.takeExc c e := by
  simp only [State.ready, Bool.and_eq_true, Option.isNone_iff_eq_none] at h
  obtain ⟨⟨h1, h2⟩, h3⟩ := h
  unfold runInstr State.fetched
  rw [h1, h2]
  rcases hf : s.fetch c with ⟨t, e⟩
  rw [hf] at h3
  simp only at h3
  subst h3
  rfl

/-- With a handler and outside it an exception enters the handler and changes nothing but the core's exception registers, its mode and
its pc. -/
theorem takeExc_handler (s : State) (c : CoreId) (e : Exc) (h : s.hasHandler c) :
    s.takeExc c e = s.setCore c { s.core c with
      cepc := (s.core c).pc, ccause := e.cause, cbada := e.bada.getD (s.core c).cbada, xm := true, pc := (s.core c).cvec } := by
  unfold State.takeExc
  simp [h.1, h.2]

end Sys2Proof.Machine
end

