-- ==== Sys2Proof/Laws/Memory.lean ====
section
/-! SUPPORT. The canonical form of memory, which every memory operation keeps, and what a write of bytes changes. -/

namespace Sys2Proof.Machine

/-- The empty memory has the form. -/
theorem wf_nil : Memory.wf [] = true := rfl

/-- Memory after reset has the form. -/
theorem wf_reset : Memory.wf State.reset.mem = true := rfl

/-- Putting bytes keeps the form. -/
theorem wf_putBytes (l : List Byte) : ∀ (m : Memory) (a : Nat), Memory.wf m = true → Memory.wf (putBytes m a l) = true := by
  induction l with
  | nil => exact fun m a h => h
  | cons b l ih => exact fun m a h => ih _ _ (Table.wf_set memDefault m a b h)

/-- Read after write: the bytes written in their range, the old bytes outside it. -/
theorem get_putBytes (l : List Byte) : ∀ (m : Memory) (a x : Nat),
    Table.get memDefault (putBytes m a l) x = if a ≤ x ∧ x < a + l.length then l.getD (x - a) 0 else Table.get memDefault m x := by
  induction l with
  | nil => intro m a x; simp [putBytes]
  | cons b l ih =>
    intro m a x
    simp only [putBytes, ih, Table.get_set, List.length_cons]
    by_cases h : a + 1 ≤ x ∧ x < a + 1 + l.length
    · rw [if_pos h, if_pos ⟨by omega, by omega⟩]
      obtain ⟨k, hk⟩ : ∃ k, x - a = k + 1 := ⟨x - a - 1, by omega⟩
      rw [hk, List.getD_cons_succ]
      congr 1; omega
    · rw [if_neg h]
      by_cases e : x = a
      · subst e; rw [if_pos rfl, if_pos ⟨le_refl _, by omega⟩]; simp
      · rw [if_neg e, if_neg (by omega)]

/-- Writing bytes without a check: the bytes in their range, and nothing else. -/
theorem byte_poke (s : State) (a : Nat) (l : List Byte) (x : Nat) :
    (s.poke a l).byte x = if a ≤ x ∧ x < a + l.length then l.getD (x - a) 0 else s.byte x := get_putBytes l s.mem a x

theorem wf_poke (s : State) (a : Nat) (l : List Byte) (h : Memory.wf s.mem = true) : Memory.wf (s.poke a l).mem = true := wf_putBytes l s.mem a h

/-- Reading keeps the memory itself. -/
theorem mem_readMem (s : State) (a n src : Nat) : (s.readMem a n src).1.mem = s.mem := (readMem_same s a n src).mem

/-- Noting a word's old contents changes the bank control alone. -/
theorem noteOld_same (s : State) (w : Nat) : s.sameBut (s.noteOld w) := by unfold State.noteOld; split_ifs <;> rfl

/-- Counting and logging a collision changes no byte. -/
theorem noteCollision_same (s : State) (w : Nat) : s.sameBut (s.noteCollision w) := by
  unfold State.noteCollision
  dsimp only
  split_ifs
  · exact (count_same s _ _ _ _).trans (log_same ..)
  · exact count_same s _ _ _ _
  · rfl

/-- Nor does counting those of a list of words. -/
theorem noteCollisions_same (ws : List Nat) : ∀ s : State, s.sameBut (ws.foldl State.noteCollision s) := by
  induction ws with
  | nil => exact fun s => rfl
  | cons w ws ih => exact fun s => (noteCollision_same s w).trans (ih _)

/-- Noting the words that port 0 used changes no byte. -/
theorem notePort0_same (s : State) (d : Nat) (ws : List Nat) : s.sameBut (s.notePort0 d ws) := rfl

/-- A word's write keeps the form. -/
theorem wf_writeWord (s : State) (w a : Nat) (l : List Byte) (h : Memory.wf s.mem = true) : Memory.wf (s.writeWord w a l).1.mem = true := by
  rw [← (noteOld_same s w).mem] at h
  unfold State.writeWord
  dsimp only
  split_ifs
  · exact wf_poke _ _ _ (by rw [(wakeBank_same ..).mem]; exact h)
  · exact wf_poke _ _ _ (by rw [(checkWord_same ..).mem]; exact h)
  · rw [(checkWord_same ..).mem]; exact h

theorem wf_writeWords (a : Nat) (l : List Byte) (ws : List Nat) : ∀ s : State, Memory.wf s.mem = true → Memory.wf (writeWords a l ws s).1.mem = true := by
  induction ws with
  | nil => exact fun s h => h
  | cons w ws ih => exact fun s h => ih _ (wf_writeWord s w a l h)

/-- A write of bytes by port 1 keeps the form. -/
theorem wf_writeMem (s : State) (a : Nat) (l : List Byte) (h : Memory.wf s.mem = true) : Memory.wf (s.writeMem a l).1.mem = true := by
  have k : (s.writeMem a l).1.mem = (writeWords a l (wordsOf a l.length) s).1.mem := (noteCollisions_same (wordsOf a l.length) _).mem
  rw [k]; exact wf_writeWords a l _ s h

/-- A write of bytes by port 0 keeps the form. -/
theorem wf_writeMem0 (s : State) (d a : Nat) (l : List Byte) (h : Memory.wf s.mem = true) : Memory.wf (s.writeMem0 d a l).1.mem = true := by
  have w := wf_writeWords a l (wordsOf a l.length) s h
  unfold State.writeMem0
  dsimp only
  split_ifs
  · rw [(notePort0_same ..).mem]; exact w
  · exact w

/-- A core's store keeps the form. -/
theorem wf_store (s : State) (c : CoreId) (a : Nat) (b : List Byte) (h : Memory.wf s.mem = true) : Memory.wf (s.store c a b).mem = true := by
  unfold State.store
  split
  · dsimp only
    split_ifs
    · simp only [State.updCore_mem]; rw [(reportLm_same ..).mem]; exact h
    · exact h
    · simp only [State.updCore_mem]; rw [(count_same ..).mem]; exact h
  · dsimp only
    split_ifs
    · exact wf_writeMem0 s _ a b h
    · exact wf_writeMem0 s _ a b h
    · exact wf_writeMem s a b h
    · exact wf_writeMem s a b h

/-- The scrubber changes no byte. -/
theorem mem_scrubVisit (s : State) (d b : Nat) : (s.scrubVisit d b).mem = s.mem := by
  unfold State.scrubVisit
  split
  · dsimp only
    split
    · exact (checkWord_same ..).mem
    · exact (checkWord_same ..).mem
  · rfl

/-- Writing a sheet to zero keeps the form. -/
theorem wf_wipeSheet (s : State) (d : Nat) (h : Memory.wf s.mem = true) : Memory.wf (s.wipeSheet d).mem = true := by
  have k : (s.wipeSheet d).mem = s.mem.wipe fun a => decide (0x10000000 + (d - 1) * 0x01000000 ≤ a) && decide (a < 0x10000000 + (d - 1) * 0x01000000 + 0x01000000) := rfl
  rw [k]; exact Table.wf_wipe memDefault s.mem _ h

end Sys2Proof.Machine
end

