-- ==== Sys2Proof/Tests/Slice0.lean ====
section
/-! SUPPORT. Witnesses: for each obligation with hypotheses a concrete state that meets them; ill-formed commands that the checks refuse;
and a few results that the spec states or works out. -/

open Sys2Proof Sys2Proof.Machine

namespace Sys2Proof.Tests

set_option Elab.async false

/-! ### States for the tests -/

/-- A live block in RUN with sheets 1 and 2 in service. -/
def live : State := { sys := { porst := false, mode := .run }, sfy := { booted := true, sheets := [(1, { st := .inService }), (2, { st := .inService })] } }

/-- Core 0 of the hub runs an item with a handler at 0x1000; g5 is 0x40, g6 is 1, g7 is 0x104, and g8 to g12 name the first byte past 2^40,
the first hole, a sheet out of service, local memory and register space. -/
def hand : State := { live with cores := [(0, { item := some 0, cvec := 0x1000, g := [(5, 0x40), (6, 1), (7, 0x104), (8, 0x10000000000), (9, 0x02000000), (10, 0x12000000), (11, 0xF0000000), (12, 0xF000000000)] })] }

/-- The same without a handler. -/
def bare : State := { live with cores := [(0, { item := some 0 })] }

/-- The core. -/
def c0 : CoreId := ⟨0, 0⟩

theorem witness_FetchKeepsRegisters : hand.ready c0 = true ∧ bare.ready c0 = true := by decide
theorem witness_MultiplyDivideResults : hand.ready c0 = true ∧ hand.reg c0 6 ≠ 0 ∧ hand.reg c0 0 = 0 := by decide
theorem witness_ControlTransfers : hand.ready c0 = true ∧ (hand.reg c0 5).toNat % 4 = 0 ∧ (hand.reg c0 6).toNat % 4 ≠ 0 ∧
    (hand.core c0).cvec ≠ 0 ∧ (hand.core c0).xm = false := by decide
theorem witness_LoadsAndStores : hand.ready c0 = true ∧ (hand.fetched c0).plainSram (hand.address c0 5 (-64)) 8 ∧
    (hand.fetched c0).plainSram (hand.address c0 6 0) 1 := by
  refine ⟨by decide, ⟨by decide, by decide, 0, by decide, by decide⟩, ⟨by decide, by decide, 0, by decide, by decide⟩⟩
theorem witness_AccessExceptions : hand.ready c0 = true ∧ hand.hasHandler c0 ∧ 2 ^ 40 ≤ hand.address c0 8 0 ∧
    hand.address c0 8 (-1) < 2 ^ 40 ∧ (sramDie (hand.address c0 6 0)).isSome = true ∧ hand.address c0 6 0 % 2 ≠ 0 ∧
    hand.address c0 9 0 % 8 = 0 ∧ whereIs (hand.address c0 9 0) = .none ∧ sramDie (hand.address c0 10 0) = some 3 ∧
    hand.address c0 10 0 % 8 = 0 ∧ (hand.fetched c0).answers 3 = false := by
  exact ⟨by decide, ⟨by decide, by decide⟩, by decide, by decide, by decide, by decide, by decide, by decide, by decide, by decide, by decide⟩

theorem witness_AtomicResults : hand.ready c0 = true ∧ hand.hasHandler c0 ∧ (hand.fetched c0).plainSram (hand.reg c0 5).toNat 8 ∧
    2 ≤ (2#2).toNat ∧ (1#2).toNat < 2 ∧ 2 ^ 40 ≤ (hand.reg c0 8).toNat ∧ whereIs (hand.reg c0 11).toNat = .loc 0 ∧
    whereIs (hand.reg c0 12).toNat = .reg 0 ∧ (sramDie (hand.reg c0 6).toNat).isSome = true ∧ (hand.reg c0 6).toNat % 2 ^ (2#2).toNat ≠ 0 := by
  exact ⟨by decide, ⟨by decide, by decide⟩, ⟨by decide, by decide, 0, by decide, by decide⟩, by decide, by decide, by decide, by decide,
    by decide, by decide, by decide⟩

/-- A core in its handler. -/
def trapping : State := { live with cores := [(0, { item := some 0, cvec := 0x1000, cepc := 0x40, xm := true })] }

theorem witness_SystemInstructions : hand.ready c0 = true ∧ hand.hasHandler c0 ∧ ((hand.fetched c0).readCreg c0 12).isSome = true ∧
    ((hand.fetched c0).readCreg c0 13).isSome = false ∧ (hand.reg c0 5).toNat < 2 ^ 40 ∧ trapping.ready c0 = true ∧
    ((trapping.fetched c0).core c0).xm = true := by
  exact ⟨by decide, ⟨by decide, by decide⟩, by decide, by decide, by decide, by decide, by decide⟩

/-- A core with a lost store's error and a passed deadline pending. -/
def bounded : State := { live with cores := [(0, { item := some 0, cvec := 0x1000, asyncEcc := some 0x40, dlpend := true })] }

theorem witness_ExceptionEntry : hand.ready c0 = true ∧ hand.hasHandler c0 ∧ wordIllegal 0 = true ∧ loopOnlySub 0xE8000000 ≠ 0 ∧
    bounded.canRun c0 = true ∧ bounded.hasHandler c0 ∧ (bounded.core c0).asyncEcc = some 0x40 ∧ (bounded.core c0).dlpend = true ∧
    bare.ready c0 = true ∧ (bare.core c0).cvec = 0 := by
  exact ⟨by decide, ⟨by decide, by decide⟩, by decide, by decide, by decide, ⟨by decide, by decide⟩, by decide, by decide, by decide, by decide⟩
/-- A read that succeeds gives a state and bytes for which `f` holds. -/
def readOk (p : State × (Exc ⊕ List Byte)) (f : State → List Byte → Bool) : Bool :=
  match p with
  | (t, .inr l) => f t l
  | _ => false

/-- Descriptors at 0x40 (hub cores), 0x60 (no core) and 0x80 (malformed); core 1 has a stalled POST. -/
def posts : State := { hand with
  mem := [(0x41, 1), (0x5D, 1), (0x5E, 0x3F), (0x61, 1), (0x80, 1)]
  cores := [(0, { item := some 0, g := [(5, 0x40), (6, 0x60), (7, 0x80)] }), (1, { item := some 1, stall := some ⟨3, {}, none, 0, 0⟩ })] }

theorem witness_WorkItemInstructions : posts.ready c0 = true ∧
    readOk ((posts.fetched c0).readDesc c0 (posts.reg c0 5).toNat) (fun t l => (Desc.ofBytes l).any fun d =>
      t.affinityOk d && t.wdx.freeSlot == some 0 && !t.listFull d.prio && (t.nextHeld (· == d.prio)).isNone && decide (t.wdx.delayCount 0 < 1024) &&
        decide ((t.reg c0 0).toNat < 2 ^ 32)) = true ∧
    readOk ((posts.fetched c0).readDesc c0 (posts.reg c0 6).toNat) (fun t l => (Desc.ofBytes l).any fun d => !t.affinityOk d) = true ∧
    readOk ((posts.fetched c0).readDesc c0 (posts.reg c0 7).toNat) (fun _ l => (Desc.ofBytes l).isNone) = true ∧
    posts.coreLive ⟨0, 1⟩ = true ∧ ((posts.core ⟨0, 1⟩).stall.any fun x => decide (x.limit ≤ posts.upNs)) = true := by decide

/-- A READY item for the hub cores and one for sheet 1, and a delayed one that is due. -/
def queues : State := { live with wdx := { slots := [(3, { item := some ⟨{ pc := 0x100, aff := 1, cmask := 63 }, .ready, 0, false, none⟩ })] } }

theorem witness_DispatchState : queues.coreLive c0 = true ∧ (queues.core c0).item = none ∧ (queues.candidate c0).isSome = true := by decide

/-- A table at 0x40 whose header is good (two points, spacing 4) and one at 0x60 whose header has one point. -/
def tables : State := { hand with
  mem := [(0x44, 2), (0x45, 1), (0x4C, 8)]
  cores := [(0, { item := some 0, cvec := 0x1000, g := [(5, 0x40), (6, 0x60), (7, 3), (8, 1)] })] }

theorem witness_CellInstructions : tables.ready c0 = true ∧ tables.hasHandler c0 ∧
    (match readWords c0 [0x60, 0x64] (tables.fetched c0) with | (_, .inr [_, h]) => fld h 8 8 + 1 == 1 | _ => false) = true ∧
    (match readWords c0 [0x40, 0x44] (tables.fetched c0) with
      | (t, .inr [_, h]) => fld h 8 8 + 1 == 2 && fld h 16 16 == 0 && fld h 5 3 == 0 && fld h 0 5 == 2 &&
          (match readWords c0 [0x48, 0x4C] t with | (_, .inr [a, b]) => a == 0 && b == 8 | _ => false)
      | _ => false) = true ∧ (tables.reg c0 7).toInt = 3 ∧
    ((tables.fetched c0).load c0 0x40 32 0).2.isSome = true ∧ (tables.fetched c0).cellCheck 0x40 32 true = none ∧
    ((tables.fetched c0).load c0 0x40 32 0).1.inService (tables.reg c0 8).toNat = true ∧
    (((tables.fetched c0).load c0 0x40 32 0).1.triOf 1).queue.length < 4 := by
  exact ⟨by decide, ⟨by decide, by decide⟩, by decide, by decide, by decide, by decide, by decide, by decide, by decide⟩

/-- Four batches wait at sheet 1's TRI. -/
def fullTri : State := { tables with tri := [(1, { queue := List.replicate 4 { ticket := 0, addr := 0 } })] }

theorem witness_SolveBusy : fullTri.ready c0 = true ∧ 4 ≤ (((fullTri.fetched c0).load c0 0x40 32 0).1.triOf 1).queue.length := by decide
/-! ### Work Dispatcher -/

/-- A delayed item that is due. -/
def dueItem : State := { live with wdx := { ticks := 1, slots := [(4, { item := some ⟨{ pc := 0x100, aff := 2, cmask := 63 }, .delayed 0 1, 0, false, none⟩ })] } }

/-- A READY item for sheet 1 in slot 4 and a RUNNING one in slot 5. -/
def sheetItem : State := { live with
  wdx := { slots := [(4, { item := some ⟨{ pc := 0x100, aff := 2, cmask := 63 }, .ready, 0, false, none⟩ }), (5, { item := some ⟨{ pc := 0x100, aff := 1, cmask := 63 }, .running 0 0, 0, false, none⟩ })] } }

/-- Entry 5 makes items for hub cores; a held event of it, and a pending firing with its count. -/
def events : State := { live with
  regs := [(rg 0 1 (0x4000 + 32 * 5 + 28), 0x003F0100), (rg 0 1 (0x8000 + 4 * 5), 1)]
  wdx := { held := [⟨.ctm, 5, 7⟩], pend := [(5, .waiting 7 300)] } }

theorem witness_DispatcherMoves :
    (dueItem.blockLive 0 = true ∧ dueItem.wdx.tickDone < dueItem.wdx.ticks ∧
      (dueItem.wdx.items.filter fun x => x.2.st.isDelayed && decide (x.2.tick ≤ dueItem.wdx.ticks)).map (·.1) = [4] ∧ dueItem.prioFull 0 = false) ∧
    (sheetItem.blockLive 0 = true ∧ (firstItem (sheetItem.wdx.items.filter fun x =>
      x.2.st == .ready && !sheetItem.hubTakes x.2.d && (sheetItem.stationFor x.2.d).isSome)).map (·.1) = some 4 ∧
      sheetItem.stationFor { pc := 0x100, aff := 2, cmask := 63 } = some 1) ∧
    (events.blockLive 0 = true ∧ events.wdx.held.head? = some ⟨.ctm, 5, 7⟩ ∧ events.evKind 5 = 1 ∧ (events.template 5).isSome = true ∧
      events.listFull 0 = false ∧ events.wdx.freeSlot = some 0 ∧ events.coreList.all (fun c => (events.core c).stall.isNone) = true ∧
      events.wdx.pendOf 5 = .waiting 7 300) := by decide

theorem witness_DispatcherRegisters : sheetItem.blockLive 0 = true ∧ sheetItem.coreList.all (fun c => (sheetItem.core c).stall.isNone) = true ∧
    sheetItem.wdx.query (6#16).toNat % 16 = 0 ∧ sheetItem.wdx.query (5#16).toNat % 16 = 4 ∧ sheetItem.wdx.query (4#16).toNat % 16 = 2 ∧
    (dueItem.blockLive 0 = true ∧ dueItem.wdx.query (4#16).toNat % 16 = 1) ∧ sheetItem.rf (rg 0 1 0x20) 0 32 * 256 + 32 * 2 ^ 12 ≤ 0x02000000 := by decide

/-! ### Traverse -/

/-- `live` with a command value in the registers of axis n of die d, and in g6 with the axis selected by g5. -/
def valued (d n : Nat) (hi lo : W32) : State := { live with
  regs := [(trvReg d n 4, lo), (trvReg d n 8, hi)]
  cores := [(0, { item := some 0, g := [(5, BitVec.ofNat 64 (d + 256 * n)), (6, hi ++ lo)] })] }

/-- An arm of sheet 1 whose first joint is axis 0. -/
def armed : ArmImg := ⟨0, 0, 0, 0, 0, [], [], 0, 0, 0, 0, 0, 2, true, 0, 0, 10, 0, [⟨0, false, 0, 0, 0, [], [], 0, 0, 0, 0, 0, 0, 0⟩], []⟩

/-- Axis 0 of sheet 1 belongs to an arm in STO, with a command value. -/
def locked (lo : W32) : State := { valued 1 0 0 lo with ctm := { arms := [(0, { img := some armed })] } }

/-- The value as the statement reads it. -/
def cmdValue (s : State) (d n : Nat) : W64 := s.rd (trvReg d n 8) ++ s.rd (trvReg d n 4)

theorem witness_TraverseCommands : 23 < trvAxes 1 ∧ (valued 1 23 0 0).axisLocked 1 23 = false ∧ (valued 1 23 0 0).modeEnable = true ∧
    (valued 1 23 0 0).modeMotion = true ∧ (valued 1 23 0 0).blockLive 1 = true ∧ (valued 1 23 0 0).inService 1 = true ∧
    cmdValue (valued 1 23 0 0) 1 23 = 0 ∧ (valued 1 23 0 0).trvRange 1 23 1 0 = true ∧ (valued 1 23 0 0).ready c0 = true ∧
    ((valued 1 23 0 0).reg c0 5).toNat = 1 + 23 * 256 ∧ ((valued 1 23 0 0).fetched c0).inService 1 = true ∧
    ((valued 1 23 0 0).fetched c0).trvRange 1 23 1 ((valued 1 23 0 0).reg c0 6) = true := by decide

theorem witness_TraverseCommandsOfHub : 15 < trvAxes 0 ∧ (valued 0 15 0 0).axisLocked 0 15 = false ∧ (valued 0 15 0 0).blockLive 0 = true ∧
    (valued 0 15 0 0).inService 0 = true ∧ (valued 0 15 0 0).trvRange 0 15 1 0 = true ∧ (valued 0 15 0 0).ready c0 = true ∧
    ((valued 0 15 0 0).reg c0 5).toNat = 0 + 15 * 256 := by decide

theorem witness_TraverseRefusals : (cmdValue (valued 1 0 0 1) 1 0).toNat ≠ 0 ∧ (cmdValue (valued 1 0 0 7) 1 0).toNat = 7 ∧
    2 ^ 32 ≤ (cmdValue (valued 1 0 1 0) 1 0).toNat ∧ (cmdValue (valued 1 0 0xFFFFFFFF 0x7FFFFFFF) 1 0).toInt < -(2 ^ 31) ∧
    2 ^ 31 ≤ (cmdValue (valued 1 0 0 0x80000000) 1 0).toInt ∧ 10000 < (cmdValue (valued 1 0 0 10001) 1 0).toNat ∧
    2 ^ 24 < (cmdValue (valued 1 0 0 0x1000001) 1 0).toNat := by decide

theorem witness_TraverseLocked : (locked 0).axisLocked 1 0 = true ∧ (locked 0).blockLive 1 = true ∧ (cmdValue (locked 0) 1 0).toNat = 0 ∧
    (locked 2).axisLocked 1 0 = true ∧ (cmdValue (locked 2) 1 0).toNat = 2 ∧ (locked 32).axisLocked 1 0 = true ∧
    (cmdValue (locked 32) 1 0).toNat % 32 = 0 ∧ (sramDie (cmdValue (locked 32) 1 0).toNat).any (locked 32).dieFitted = true := by decide

/-- A datum's view of an axis. -/
def env : TrvEnv := ⟨250000, 250000, false, 4, false, 1, 0, false, false, false, true, true, 0, fun _ => {}, fun _ _ => 0, fun _ => 0, fun _ => 0, fun _ => 0,
  false, false, fun _ _ => none, fun _ => 0, fun _ => false, false⟩

theorem witness_TraverseReadsAndStates : (valued 1 23 0 0).ready c0 = true ∧ (valued 1 23 0 0).dieFitted 1 = true ∧
    ((valued 1 23 0 0).reg c0 5).toNat = 1 + 23 * 256 ∧ (∀ k ∈ [0x10, 0x45], trvCodes.contains k = true) ∧
    env.draining = false ∧ env.locked = false ∧ env.enOk = true ∧ ({ ax := {} } : TrvW).ax.st = .off ∧
    ({ ax := { st := .position } } : TrvW).ax.st.moving = true ∧ ({ ax := { st := .fault } } : TrvW).ax.v = 0 := by decide

/-- Axis 0 of sheet 1 in JOG at the end of its time, with inputs at their count, an overload and an armed encoder. -/
def inputs : State := { live with
  regs := [(encCtl 0, 8)]
  trv := [(32, { st := .jog, jogAge := 399, load := 5, stallN := 2, stored := [(0x22, 250), (0x24, 0x01020005)], limp := { seen := true, last := true }, limn := { seen := true, last := true }, ref := { seen := true, last := true } })] }

theorem witness_TraverseInputEvents : inputs.blockLive 1 = true ∧ inputs.blockLive 0 = true ∧ (inputs.trvAx 1 0).st = .jog ∧
    jogLimit inputs.mer.cycleLen ≤ (inputs.trvAx 1 0).jogAge + 1 ∧ (inputs.trvAx 1 0).limp.seen = true ∧
    (inputs.trvAx 1 0).limp.last ≠ (inputs.trvAx 1 0).limp.level ∧ (inputs.trvAx 1 0).limn.last ≠ (inputs.trvAx 1 0).limn.level ∧
    (inputs.trvAx 1 0).ref.last ≠ (inputs.trvAx 1 0).ref.level ∧
    ceilDiv ((inputs.trvAx 1 0).num' 0x22 * 1000) inputs.mer.cycleLen ≤ (inputs.trvAx 1 0).limp.diff + 1 ∧
    fld ((inputs.trvAx 1 0).num' 0x24) 24 2 = 1 ∧ fld ((inputs.trvAx 1 0).num' 0x24) 16 8 ≤ (inputs.trvAx 1 0).stallN ∧
    sxt 16 (fld ((inputs.trvAx 1 0).num' 0x24) 0 16) ≤ (inputs.trvAx 1 0).load ∧ (inputs.trvAx 1 0).stall = false ∧
    inputs.rb (encCtl 0) 3 = true ∧ inputs.rb (encCtl 0) 2 = false ∧ (inputs.encOf 0).a = false ∧ (inputs.encOf 0).b = false := by decide
/-! ### Servo Loop Engine and Triangulation Unit -/

/-- A command value for axis 23 of sheet 1's SLE in its registers, and in g6 with the axis selected by g5. -/
def servo (lo : W32) : State := { live with
  regs := [(sleReg 1 23 4, lo)]
  cores := [(0, { item := some 0, g := [(5, 0x1701), (6, BitVec.ofNat 64 lo.toNat)] })]
  sle := [(1, { ax := [(0, { st := .disabling }), (23, { st := .run, inb := [(3, 0x200000)] })], loading := some 0x40 })] }

theorem witness_ServoCommandsAndReads : (servo 1).blockLive 1 = true ∧ (servo 1).inService 1 = true ∧ (servo 1).ready c0 = true ∧
    ((servo 1).reg c0 5).toNat = 1 + 23 * 256 ∧ ((servo 1).fetched c0).inService 1 = true ∧ (servo 1).sheetFitted 1 = true ∧
    sleRange 5 ((servo 1).rd (sleReg 1 23 8) ++ (servo 1).rd (sleReg 1 23 4) : W64).toNat = true ∧
    sleRange 5 ((servo 2).rd (sleReg 1 23 8) ++ (servo 2).rd (sleReg 1 23 4) : W64).toNat = false ∧ sleRange 5 ((servo 1).reg c0 6).toNat = true := by decide

theorem witness_ServoSampleAndLoad : live.blockLive 1 = true ∧ (live.sleOf 1).sampled = false ∧ live.sleReady 1 = true ∧
    (servo 0).sleReady 1 = false ∧ (servo 0).sleLso 1 = 100000 ∧ ((servo 0).sleOf 1).loading = some 0x40 ∧
    ((servo 0).sleAx 1 0).st = .disabling ∧ ((servo 0).sleAx 1 0).offcnt = 0 ∧ ({ servo 0 with sle := [(1, { (servo 0).sleOf 1 with sampled := true })] }.sleOf 1).sampled = true ∧
    (live.runTo 0).sleStart 1 ≤ (live.runTo 0).phaseNs ∧ ((servo 0).runTo 0).phaseNs < ((servo 0).runTo 0).sleStart 1 := by decide +kernel

/-- The first item of the batch below: a CHOL of order 1. -/
def cholItem : TriItem := TriItem.ofBytes (toBytes 16 0x11 ++ toBytes 16 0x2000 ++ toBytes 16 0x2100)

/-- Sheet 1's TRI runs a batch of two items, of which the first has started: a CHOL of order 1 at 0x1000 and an item that breaks R174 at 0x1040. -/
def solving (dl : Nat) : State := { live with
  mem := [(0x1000, 0x11), (0x1011, 0x20), (0x1021, 0x21), (0x1040, 0x01), (0x2002, 0x80), (0x2003, 0x40)]
  tri := [(1, { queue := [{ ticket := 5, addr := 0x800, run := true, count := 2, items := 0x1000, deadline := dl, started := [⟨cholItem, 0x35800000, [], 0⟩] }] })] }

/-- The batch. -/
def batch (s : State) : TriBatch := (s.triBatch 1).getD { ticket := 0, addr := 0 }

theorem witness_TriangulationItems : (solving 0).blockLive 1 = true ∧ (solving 0).triBatch 1 = some (batch (solving 0)) ∧ (batch (solving 0)).refused = false ∧
    (batch (solving 0)).status 0 = 0 ∧ (batch (solving 0)).started[0]? = some ⟨cholItem, 0x35800000, [], 0⟩ ∧ (solving 0).triItem (batch (solving 0)) 0 = cholItem ∧
    cholItem.kernel = 1 ∧ (solving 0).triCut (batch (solving 0)) = none ∧ (solving 0).readable 0x1000 48 ∧ (solving 0).triGood cholItem = true ∧
    ((solving 0).triItem (batch (solving 0)) 1).kernel = 1 ∧ (batch (solving 0)).started[1]? = none ∧
    (solving 0).triGood ((solving 0).triItem (batch (solving 0)) 1) = false := by decide
theorem witness_TriangulationKernel : (((solving 0).readMem 0x1000 48 1).1.triFetch cholItem).2 = true := by decide

theorem witness_TriangulationOutputs : (writeOuts ((solving 0).runFact ((solving 0).triItem (batch (solving 0)) 0) 0x35800000).outs (solving 0)).2 = true := by
  decide +kernel

theorem witness_TriangulationDeadline : { solving 3 with mer := { cycle := 3 } }.triCut (batch (solving 3)) = some 2 := by decide

/-- Batches of sheet 1: one that can start (its descriptor at 0x40 names one item at 0x1000), and one that runs and has the given
statuses of two items. -/
def batches (run refused : Bool) (ended : Table Nat) : State := { live with
  mem := [(0x40, 1), (0x49, 0x10)]
  tri := [(1, { queue := [{ ticket := 5, addr := 0x40, run := run, refused := refused, count := 2, items := 0x1000, ended := ended }] })] }

theorem witness_TriangulationBatches : (batches false false []).holds (.tri 1) = false ∧ (batches false false []).rangeAnswers 0x40 32 = true ∧
    (batches false false []).readable 0x40 32 ∧ (fun l => (leAt l 0 4, leAt l 4 4, leAt l 22 2, leAt l 8 8)) ((batches false false []).bytes 0x40 32) = (1, 0, 0, 0x1000) ∧
    (batches false false []).sramRange 0x1000 64 = true ∧ fld (leAt ({ batches false false [] with mem := [] }.bytes 0x40 32) 0 4) 0 8 = 0 ∧
    Table.get (fun _ => 0) [(0, 1), (1, 1)] 1 = 1 ∧ Table.get (fun _ => 0) [(0, 1), (1, 4)] 1 % 256 ≠ 1 ∧
    (batches true true []).blockLive 1 = true := by decide

/-- A command value for sheet 1's TRI. -/
def triValue (v : Nat) : State := { live with
  regs := [(triReg 1 0x14, BitVec.ofNat 32 v)]
  cores := [(0, { item := some 0, g := [(5, 1), (6, BitVec.ofNat 64 v)] })] }

theorem witness_TriangulationCommandsAndReads : (∀ v ∈ [0, 127, 256, 0x2B800000, 0x3F000000], ((triValue v).rd (triReg 1 0x18) ++ (triValue v).rd (triReg 1 0x14) : W64).toNat = v ∧
      ((triValue v).reg c0 6).toNat = v) ∧ (triValue 0).blockLive 1 = true ∧ (triValue 0).inService 1 = true ∧ (triValue 0).ready c0 = true ∧
    ((triValue 0).reg c0 5).toNat = 1 ∧ ((triValue 0).fetched c0).inService 1 = true ∧ (triValue 0).sheetFitted 1 = true := by decide
/-! ### Contour -/

/-- A cell image: pair 0 of the inputs has both inputs on test-pulse sources, pair 0 of the outputs follows arm 1. -/
def cellImg : CellImg := ⟨0, 0, 0, 0, 4, 0, 0, 0, [], [], [{ mode := 1, tp := 3, arms := 1 }], [{ src := 1, arms := 1 }], []⟩

/-- Contour at 40 µs with the processor's result in hand: arm 1 is in SS1 and its own channel demands level 3, the processor 4. -/
def contour : State := { live with
  mer := { phase := 40000 * unitNs, clocks := 400000 }
  ctm := { cell := some cellImg, decided := false, samp := 160, arms := [(0, { img := some armed, sst := 1, view := { lvl := 3 } })], proc := some [⟨1, 4, 0, 0, 0, [], []⟩], procUsed := true, sin := 1, outs := [(0, { cmd := true }), (2, { cmd := true, since := 1600000 })] } }

/-- Contour with a clock deviation and no result in the fourth cycle. -/
def deviating : State := { contour with ctm := { contour.ctm with clkFail := true, proc := none, procUsed := false, missing := 3 } }

theorem witness_ContourDecision : contour.ctmUp = true ∧ deviating.ctm.proc = none ∧ deviating.ctm.procHeld = false ∧ deviating.ctm.halted = false ∧
    deviating.ctm.wrst = false ∧ contour.ctm.decided = false ∧ 40000 * unitNs ≤ contour.mer.phase ∧ 0 ∈ contour.armList ∧
    (contour.ctm.arm 0).img.isSome = true ∧ contour.ctm.cell = some cellImg ∧ (contour.ctm.arm 0).view.lvl ≤ 3 ∧ contour.ctm.procUsed = true ∧
    (contour.ctm.proc.bind fun l => l.find? fun y => y.arm == 0 + 1).isSome = true ∧ deviating.ctm.clkFail = true ∧ (deviating.ctm.arm 0).sst ≤ 4 ∧
    deviating.ctm.procUsed = false ∧ cellImg.pmiss ≤ min 31 (deviating.ctm.missing + 1) := by decide

/-- Arm 1 waits for the end of an SSM demand that AUTORESUME covers. -/
def resuming : State := { contour with ctm := { contour.ctm with proc := none, procUsed := false, arms := [(0, { img := some armed, sst := 1, ssmOnly := true, amode := 3, view := { clear := true } })] } }

theorem witness_ContourStops : (contour.ctm.arm 0).sst = 1 ∧ (contour.ctm.arm 0).k0 + armed.tss1 * 1000000 ≤ 10000000 ∧
    { contour with mer := { clocks := 2500000 } }.upNs = 10000000 ∧ (resuming.ctm.arm 0).ssmOnly = true ∧ (resuming.ctm.arm 0).amode = 3 ∧
    armed.auto = true ∧ (resuming.ctm.arm 0).view.lvl = 0 ∧ resuming.ctm.decided = false ∧ armed.resumeCyc ≤ (resuming.ctm.arm 0).clear + 1 ∧
    (resuming.ctm.arm 0).view.clear = true ∧ (resuming.ctm.arm 0).view.others = false ∧ resuming.ctm.procUsed = false ∧ resuming.ctm.lostHalt = false ∧
    min 31 (resuming.ctm.missing + 1) < cellImg.pmiss ∧ 0 ∈ resuming.armList ∧ 40000 * unitNs ≤ resuming.mer.phase ∧ (resuming.ctm.arm 0).raised.lvl = 0 ∧
    (resuming.ctm.arm 0).imgBad = false ∧ resuming.ctm.cellBad = false ∧ resuming.ctmUp = true ∧ contour.ctm.clkFail = false ∧ contour.ctm.halted = false := by decide

/-- Contour 100 µs before its sample 10,000, with inputs that disagree, a mask that ends at that sample, and tests of the outputs of pair 0
every 100 ms. -/
def sampling : State := { contour with
  mer := { phase := 40000 * unitNs, clocks := 24975000 }
  ctm := { contour.ctm with cell := some { cellImg with sins := [{ mode := 1, tp := 3, disc := 1, arms := 1 }], souts := [{ src := 1, arms := 1, tper := 1, twid := 50 }] }, samp := 9990, masks := [(0, some { at_ := 9940 })], pairs := [(0, { since := some 9895 })] } }

theorem witness_ContourInputsAndOutputs : sampling.ctmUp = true ∧ sampling.ctm.samp = sampling.sampNow ∧ sampling.ctm.found = [] ∧
    (sampling.ctm.pair 0).since = some 9895 ∧ sampling.sampNow < 9895 + 100 * (sampling.ctm.sinRec 0).disc + 1 ∧ nextPulse sampling.sampNow false = 10000 ∧
    sampling.sampNow < 10000 ∧ sampling.ctm.mask 0 = some { at_ := 9940 } ∧ 9940 + 60 = 10000 ∧ (sampling.ctm.soutRec 0).next 0 sampling.sampNow = 10000 ∧
    sampling.mer.phase + ceilDiv (10000 * 10000 - sampling.ctm.off - sampling.upNs) 4 * sampling.mer.inc < sampling.mer.target ∧
    (sampling.ctm.soutRec 0).src ≠ 0 ∧ (sampling.ctm.soutRec 0).tper ≠ 0 ∧ (sampling.ctm.soutRec 1).src = 0 ∧ bitN sampling.ctm.outFail 0 = false ∧
    sampling.ctm.mismatch 0 0 sampling.upNs = true ∧ sampling.ctm.mismatch 0 1 sampling.upNs = false := by decide +kernel

theorem witness_ContourSamples : let c := sampling.ctm
    let lit : Ctm := { c with sin := 1, pairs := [(0, { since := some 9000 })], masks := [(0, some { at_ := 9930, low := false })], outs := [(0, { cmd := true }), (1, { cmd := true, dark := some (9980, true) })] }
    (lit.sinRec 0).mode ≠ 0 ∧ lit.shows 0 false ≠ lit.shows 0 true ∧ (lit.pair 0).disc = false ∧ (lit.pair 0).since = some 9000 ∧
    9000 + 100 * (lit.sinRec 0).disc < 9995 ∧ ({ lit with pairs := [] }.pair 0).since = none ∧ (lit.sinRec 0).tp = 3 ∧ lit.sin.getLsbD 0 = true ∧
    ({ lit with masks := [] }.mask 0) = none ∧ lit.mask 0 = some { at_ := 9930, low := false } ∧ 9930 + 60 ≤ 9995 ∧ (lit.pair 0).test = false ∧
    (lit.soutRec 0).due 0 10000 = true ∧ (lit.out 0).dark = none ∧ (lit.out 0).cmd = true ∧ (lit.out 0).since + 1000000 ≤ 100000000 ∧
    1000 < (lit.out 0).since + 1000000 ∧ (lit.out 1).dark = some (9980, true) ∧ (lit.out 1).cmd = true ∧ 9980 * 10 + (lit.soutRec 0).twid ≤ 9995 * 10 := by
  decide +kernel

/-- Contour with an image that is being checked, one for the cell that waits, and one for arm 1. -/
def loading (l : Option CtmLoad) (chk : Bool) : State := { contour with ctm := { cell := some cellImg, arms := [(0, { img := some armed })], load := l, checking := chk } }

theorem witness_ContourImages : ((loading none false).ctm.arm 0).img.isSome = true ∧ ((loading none false).ctm.arm 0).imgBad = false ∧
    (loading none false).ctm.cell.isSome = true ∧ (loading none false).ctm.cellBad = false ∧ (loading none false).ctm.load = none ∧
    (loading none true).ctm.checking = true ∧ (loading (some ⟨0, some cellImg, none⟩) false).ctm.load.isSome = true ∧
    (∀ m ∈ contour.armList, 3 ≤ ((loading (some ⟨0, some cellImg, none⟩) false).ctm.arm m).sst) ∧
    3 ≤ ((loading (some ⟨1, none, some armed⟩) false).ctm.arm (1 - 1)).sst ∧ (loading none true).ctmUp = true ∧ (loading none true).ctm.wrst = false := by decide
theorem witness_ContourTakesEffect : let s := { loading (some ⟨1, none, some armed⟩) false with mer := { phase := 250000 * unitNs - 1, clocks := 400000 } }
    s.cycleOver = true ∧ { s.ctm with samp := 160 }.samp = s.sampNow ∧ s.ctm.found = [] := by decide +kernel

/-! ### Cartouche -/

/-- Record of channel 0: LCMASK 3, both kinds of weighing, averages of 2, MAX 1000 d and the two gains 1. -/
def record (avg : Nat) (chop : Nat := 0) : List Byte := toBytes 4 (3 + 0x300 + chop * 2 ^ 19 + avg * 2 ^ 24) ++ toBytes 12 0 ++ toBytes 4 1000 ++ toBytes 12 0 ++ toBytes 4 1 ++ toBytes 4 1

/-- A running Cartouche with channel 0 in a state, one of its two inputs delivered, and a waiting command. -/
def weighing (x : CrtCh) (cmd : Option CrtCmd) : State := { live with
  mer := { clocks := 500000000 }
  crt := { store := { recs := [(0, record 0x0A)] }, down := false, chs := [(0, x)], ins := [(1, { wait := some ⟨5, 0, false⟩ })], cmd := cmd } }

theorem witness_WeighingConversions : (weighing { st := .static } none).crtUp = true ∧ (weighing { st := .static } none).chanOf 0 = some 0 ∧
    (weighing { st := .static } none).chanOf 7 = none ∧ (weighing { st := .static } none).chanOf 1 = some 0 ∧
    bitN ((weighing { st := .static } none).lcmask 0) 0 = true ∧ bitN ((weighing { st := .static } none).lcmask 0) 1 = true ∧
    { weighing { st := .static, sinceEdge := 64 } none with crt := { (weighing { st := .static, sinceEdge := 64 } none).crt with store := { recs := [(0, record 0x0A 1)] } } }.chop 0 ≠ 0 ∧
    (Table.get (fun _ => ({} : CrtIn)) (weighing { st := .static } none).crt.ins 0).wait = none ∧
    (Table.get (fun _ => ({} : CrtIn)) (weighing { st := .static } none).crt.ins 1).wait.isSome = true ∧ (weighing { st := .static } none).chop 0 = 0 ∧
    0 + 1 < (weighing { st := .static } none).avgN 0 := by decide

theorem witness_WeighingCommands : (weighing { st := .transfer } none).crt.cmd = none ∧ (weighing { st := .transfer } none).allows 0 .static = true ∧
    (weighing { st := .static } none).allows 0 .transfer = true ∧ (weighing {} (some ⟨3, 0, 0, 0⟩)).crt.cmd ≠ none ∧
    0 + 2000000000 ≤ (weighing {} (some ⟨3, 0, 0, 0⟩)).upNs := by decide

theorem witness_StaticWeighing : (weighing { st := .static } none).crtUp = true ∧ ((weighing { st := .static } none).crtCh 0).st = .static ∧
    (((weighing { st := .static } (some ⟨6, 0, 0, 0⟩)).initialZero 0).trackZero 0).crtCond ⟨6, 0, 0, 0⟩ = true ∧
    (((weighing { st := .static } (some ⟨3, 0, 0, 0⟩)).initialZero 0).trackZero 0).crtCond ⟨3, 0, 0, 0⟩ = false ∧
    (weighing { st := .static, zeroSet := true, filt := [⟨0, 0, false⟩] } none).reading 0 = some 0 := by decide

/-- Channel 0 in TRANSFER with a window of 480 datums from datum 1 asked for. -/
def asked (x : CrtCh) (k : Nat) : State := { weighing x none with
  mer := { clocks := 500000000, cycle := k }
  regs := [(crtReg 0x30, 0x1E00), (crtReg 0x34, 1)] }

theorem witness_TransferWindows : fld ((asked { st := .transfer } 0).rd (crtReg 0x30)).toNat 0 3 = 0 ∧ (asked { st := .transfer } 0).winRefuse 0 1 480 = 0 ∧
    (asked { st := .transfer } 1).winRefuse 0 1 480 = 3 ∧ (asked { st := .transfer } 0).winRefuse 0 1 479 = 4 ∧
    ((asked { st := .window, win := some { s := 1, l := 480, tag := 0, zero := false } } 483).crtCh 0).win.isSome = true ∧
    1 + 480 + 2 ≤ (asked {} 483).mer.cycle ∧ (asked {} 483).crtUp = true := by decide

/-- The Cartouche with a submitted request and the key that signed it; the signatures are made for these tests. -/
def submitted (unsealed : Bool) (msg sig key : Nat) : State := { weighing {} none with
  mem := putBytes [] 0x1000 (toBytes 32 msg ++ toBytes 64 sig)
  regs := [(crtReg 0x20, 0x10)]
  crt := { store := { unsealed := unsealed }, down := false }
  sfy := { booted := true, keys := [(3, [toBytes 64 key])] } }

/-- UNSEAL. -/
def unsealReq : State := submitted false 0x2000000600000000154524143
  0x3187A2C701C16F47D22BB9C7E77AD10272609F205AAC0070C80EBB00701F4CD03187A2C701C16F47D22BB9C7E77AD10272609F205AAC0070C80EBB00701F4CD0
  0x8667B0CE7472233CB82B71BD0D8D4C43B9A5DA1B1A28CE49BC32E2770EC86121E59B43E9C5F8665794E4F1A737F969E8CFED7CAB29452CC33AF38246AB9D5509

/-- PROGRAM with an empty payload. -/
def programReq : State := submitted true 0x2000000600000000454524143
  0x89227D054098B6DB8E641CE879666A80A40B26FF07A5EBA3AD16CCC300879F2C89227D054098B6DB8E641CE879666A80A40B26FF07A5EBA3AD16CCC300879F2C
  0x22C9AC8A077CD53DCC51363E157F4EE484F2DAC191CCB95C92D9D79EE53A951152A27FA33D0D68D22B3130D5A6CCDB90716D556B3DC324F83D962B3DB71EFB1F

/-- TRAIL_ACK. -/
def ackReq : State := submitted true 0x1000000600000000554524143
  0xD38BC6162DCE9F3939A19AD55BF332CC11C8A699AF156DB5D8EB25C18E824888D38BC6162DCE9F3939A19AD55BF332CC11C8A699AF156DB5D8EB25C18E824888
  0x8B5DB46298C7FDAF1796DBA06DEE180BE4106A3A99C5BA17CE8210394FD919FB3295CCBD3954F66A53C273D332F8EDC46756F925957E040CA7952B1A0001CE53

theorem witness_LegalRequests : unsealReq.legalRead.2.any unsealReq.legalGood = true ∧ unsealReq.legalKind 1 = true ∧
    unsealReq.crt.store.unsealed = false := by decide +kernel
theorem witness_LegalProgram : programReq.legalRead.2.any programReq.legalGood = true ∧ programReq.legalKind 4 = true ∧
    programReq.crt.store.unsealed = true := by decide +kernel
theorem witness_LegalAcknowledgement : ackReq.legalRead.2.any ackReq.legalGood = true ∧ ackReq.legalKind 5 = true := by decide +kernel

/-- BENCHMARK of the continuation record of channel 0. -/
def benchReq : State := { submitted true 0 0
  0x67910D0FFD92BC5BDEC040D96130D432C7AC482C18948B302867261B0FEA3C04DE530236CCAEB02D3567AF52B50C4D3F9A61CCCC6A8D2CC0CC2AE5639DAB4BB1 with
  mem := putBytes [] 0x1000 (toBytes 32 0x5000002600000080354524143 ++ toBytes 508 0x100 ++ toBytes 4 0x7E85A149 ++
    toBytes 64 0x2C638FB1B7F454C6C66A3BDB057CA957EB70DDE4A7F5554F3582BB30EACBE81D2C638FB1B7F454C6C66A3BDB057CA957EB70DDE4A7F5554F3582BB30EACBE81D) }
set_option maxRecDepth 100000 in
theorem witness_LegalBenchmark_kind : benchReq.legalKind 3 = true := by decide +kernel
set_option maxRecDepth 100000 in
theorem witness_LegalBenchmark : benchReq.legalRead.2.any benchReq.legalGood = true := by decide +kernel
set_option maxRecDepth 100000 in
theorem witness_LegalBenchmark_rec : benchReq.legalRead.2.any (fun l => !benchReq.recRefused (leAt l 5 1) ((l.take (l.length - 64)).drop 32)) = true := by decide +kernel

/-! ### Cartouche seal -/

/-- An unsealed Cartouche that holds the program `p`; a restart finds a good or a changed program. -/
def unsealed (swcrc : Nat) (down : Bool) : State := { live with
  mer := { clocks := 900000000000000 }
  crt := { store := { unsealed := true, program := [1, 2, 3], swcrc := swcrc }, held := some [7], down := down } }

theorem witness_SealAndRestart : (unsealed 0 false).crtUp = true ∧ (unsealed 0 false).crt.store.unsealed = true ∧ (unsealed 0 false).crt.held = some [7] ∧
    (unsealed 0 false).crt.timer + sessionNs ≤ (unsealed 0 false).upNs ∧ (unsealed 0 true).powered = true ∧ (unsealed 0 true).sys.wrst = false ∧
    (unsealed 0 true).crt.down = true ∧ crcOf [1, 2, 3] ≠ 0 ∧ (unsealed (crcOf [1, 2, 3]) true).hasRec 0 = false ∧ (unsealed (crcOf [1, 2, 3]) true).badRecs = [] ∧
    (unsealed (crcOf [1, 2, 3]) true).crt.store.swcrc = crcOf (unsealed (crcOf [1, 2, 3]) true).crt.store.program := by decide +kernel

/-! ### Bus -/

/-- A schedule of mode 0 on channel A in which node 7 has rank 0 and this node, 5, rank 1: data of 7 in slot 1 and of 5 in slot 2, their sync
frames in 3 and 4, a claim slot and a link window. -/
def sched : GStore := { modes := 1, csnodes := 0x0507
                        hdr := [(0, { cycle := 250000, prec := 1000, wadd := 1000, corrlim := 100 })]
                        entries := [⟨10000, 1, 12000, 7, 1, 9, 0, true, false⟩, ⟨20000, 2, 12000, 5, 1, 8, 0, true, false⟩, ⟨1000, 3, 12000, 7, 1, 0, 1, true, false⟩,
                          ⟨5000, 4, 12000, 5, 1, 0, 1, true, false⟩, ⟨30000, 5, 12000, 0, 1, 0, 2, true, false⟩, ⟨40000, 6, 12000, 0, 1, 0, 4, true, false⟩] }

/-- This node 50 µs after a datum: port 0 of channel A has link; flow 9 is received from node 7 into hub SRAM and flow 8 sent from it. -/
def bused (b : Bus) : State := { live with
  regs := [(vba 0x100, 0x500), (vba 0x138, 3)]
  mer := { phase := 50000 * unitNs, sub := 50000 * unitNs, clocks := 1000000 }
  bus := { b with store := sched, ports := [(0, { link := true, t1 := some 0 })], gaz := [(8, ⟨0x15, 0x1001⟩), (9, ⟨0x713, 0x2001⟩)] } }

/-- A good frame that was sent `ns` after the datum. -/
def arrives (typ slot flow ns : Nat) (recs : List FlowRec) (body : List Byte) : BusRx :=
  { bytes := wireBytes { typ := typ, sender := 7, slot := slot, flow := flow, recs := recs, body := body }, rx16 := 16 * ns }

/-- A DATA frame of one record of one word of flow 9. -/
def dataIn (slot ns : Nat) : BusRx := arrives 1 slot 9 ns [⟨9, 1, 0, [5]⟩] []

/-- The reader gives back the fields that the writer laid out, with a good FCS (R259–R261). -/
theorem test_frame_bytes : (dataIn 1 0).frame = { typ := 1, sender := 7, slot := 1, flow := 9, recs := [⟨9, 1, 0, [5]⟩] } ∧
    (dataIn 1 0).vistonik = true ∧ (dataIn 1 0).fcsOk = true ∧ (dataIn 1 0).fits = true ∧ (dataIn 1 0).bytes.length = 64 := by decide +kernel

/-- A forwarded frame has the forwarder's terms in CORR and a good FCS; one that came with a bad FCS goes with a bad one (R257, R262). -/
theorem test_forwarded : (BusRx.mk (forwardBytes (dataIn 1 0).bytes 16 3) 0).fcsOk = true ∧ (BusRx.mk (forwardBytes (dataIn 1 0).bytes 16 3) 0).frame.corr = 19 ∧
    (BusRx.mk (forwardBytes ((dataIn 1 0).bytes ++ [0]) 16 3) 0).fcsOk = false := by decide +kernel

/-- The node while it keeps frames. -/
def keeping : State := bused { st := .active }

/-- Channel A forwards: port 1 is free, on the wire, or holds a frame already. -/
def through (p : BusPort) : State := { keeping with bus := { keeping.bus with ports := [(0, { link := true }), (1, { p with link := true })] } }

theorem witness_BusForwardingAndChecks : keeping.busUp = true ∧ (through {}).forwards false = true ∧ (through {}).bus.ports ≠ [] ∧
    ((through {}).port false true).busyTill ≤ (through {}).mer.clocks ∧ (through {}).mer.clocks < ((through { busyTill := 2000000 }).port false true).busyTill ∧
    (through { busyTill := 2000000 }).forwards false = true ∧ ((through { busyTill := 2000000 }).port false true).held = none ∧
    ((through { held := some ((dataIn 1 0).bytes, 0) }).port false true).held = some ((dataIn 1 0).bytes, 0) ∧
    (keeping.port false false).link = true ∧ keeping.checkFrame false false (dataIn 1 0) = .bad 0x14 0 ∧
    (dataIn 1 0).vistonik = true ∧ (dataIn 1 0).fcsOk = true ∧ (dataIn 1 0).fits = true ∧ (BusRx.mk ((dataIn 1 0).bytes ++ [0]) 0).fcsOk = false ∧
    keeping.checkFrame false false (dataIn 2 10000) = .bad 0x18 0 ∧ (bused {}).bus.st = .off := by decide +kernel

/-- A record of flow 9. -/
def rec9 : FlowRec := ⟨9, 1, 0, [5]⟩

/-- The node while it listens, with or without the lead of its channel. -/
def listening : State := bused { st := .listen }

theorem witness_BusKeptFrames : keeping.busUp = true ∧ (keeping.port false false).link = true ∧
    (dataIn 1 10000).vistonik = true ∧ (dataIn 1 10000).fcsOk = true ∧ (dataIn 1 10000).fits = true ∧ (dataIn 1 10000).frame.ver = 1 ∧
    (dataIn 1 10000).frame.recs = [] ++ rec9 :: [] ∧ keeping.checkFrame false false (dataIn 1 10000) = .ok ⟨10000, 1, 12000, 7, 1, 9, 0, true, false⟩ ∧
    (keeping.gaz 9).valid = true ∧ (keeping.gaz 9).producer = 7 ∧ (keeping.gaz 9).chan false = true ∧ (keeping.gaz 9).words = 1 ∧ (keeping.gaz 9).rx = true ∧
    (keeping.flow 9).got = false ∧
    keeping.checkFrame false false (arrives 2 3 0 1000 [] []) = .ok ⟨1000, 3, 12000, 7, 1, 0, 1, true, false⟩ ∧ keeping.nodeId ≠ 7 ∧
    (arrives 2 3 0 1000 [] []).fits = true ∧ (arrives 3 3 0 1000 [] (List.replicate 7 0)).fits = true ∧
    (arrives 4 5 0 30000 [] (List.replicate 8 0)).fits = true ∧ (arrives 5 6 0 40000 [] []).fits = true ∧
    (arrives 6 6 0 41000 [] (List.replicate 12 0#8 ++ [5])).fits = true ∧
    keeping.checkFrame false false (arrives 3 3 0 1000 [] (List.replicate 7 0)) = .ok ⟨1000, 3, 12000, 7, 1, 0, 1, true, false⟩ ∧
    keeping.checkFrame false false (arrives 4 5 0 30000 [] (List.replicate 8 0)) = .ok ⟨30000, 5, 12000, 0, 1, 0, 2, true, false⟩ ∧
    keeping.checkFrame false false (arrives 5 6 0 40000 [] []) = .ok ⟨40000, 6, 12000, 0, 1, 0, 4, true, false⟩ ∧
    keeping.checkFrame false false (arrives 6 6 0 41000 [] (List.replicate 12 0#8 ++ [5])) = .ok ⟨40000, 6, 12000, 0, 1, 0, 4, true, false⟩ ∧
    (keeping.port false false).t1 = some 0 ∧ leAt (List.replicate 12 0#8 ++ [5]) 12 1 = keeping.nodeId ∧ listening.follows 7 = true ∧
    bitN listening.bus.store.modes 0 = true ∧ (listening.bus.syncEntry 0 false 7).isSome = true ∧ listening.bus.follow ≠ some 7 := by decide +kernel

/-- The node in its slots: 5 µs, 20 µs or 40 µs after a datum. -/
def inSlot (ns : Nat) : State := { bused { st := .active, offs := [(7, { a := some 320 }), (9, { a := some 64000 })] } with mer := { phase := ns * unitNs, sub := ns * unitNs, clocks := 1000000 } }

theorem witness_BusSending : (inSlot 20000).busUp = true ∧ 20000 * unitNs ≤ (inSlot 20000).busPos.2 ∧
    (((inSlot 20000).bus.entries (inSlot 20000).bus.gmode false).find? fun x => x.slotno == 2 && x.sender == (inSlot 20000).nodeId && decide (x.kind ≤ 1)) =
      some ⟨20000, 2, 12000, 5, 1, 8, 0, true, false⟩ ∧ (inSlot 20000).maySend 0 = true ∧ (inSlot 20000).doneSlots.contains (false, 2) = false ∧
    (((inSlot 20000).markSlot false 2).txRead false 20000 8 []).2 = ([⟨8, 1, 0, [0]⟩], false) ∧
    (((inSlot 20000).markSlot false 2).txRead false 20000 9 []).2 = ([], false) ∧
    ((({ inSlot 20000 with ecc := [(1, 5)] }).markSlot false 2).txRead false 20000 8 []).2 = ([], true) ∧
    frameWire ((inSlot 5000).mkFrame 2 false false 4 0 0 [] []) ((inSlot 5000).portMode false false) ≤ 10 * 12000 ∧
    (inSlot 5000).startsAt false false 0 0 ≤ (inSlot 5000).bus.mode.prec ∧ 5000 * unitNs ≤ (inSlot 5000).busPos.2 ∧
    (((inSlot 40000).bus.entries (inSlot 40000).bus.gmode false).find? fun x => x.kind == 4) = some ⟨40000, 6, 12000, 0, 1, 0, 4, true, false⟩ ∧
    (inSlot 40000).linksNow = true ∧ (inSlot 40000).bus.corrCyc ≠ some (inSlot 40000).busCycle ∧
    (inSlot 40000).syncsEnd * unitNs ≤ (inSlot 40000).busPos.2 ∧ (inSlot 40000).sortedOffs = [640, 128000] ∧ (inSlot 40000).bus.mode.limit < 2010 ∧
    (inSlot 40000).bus.mode.cycle ≠ 0 ∧ { inSlot 40000 with bus := { (inSlot 40000).bus with offs := [(7, { a := some 320 })] } }.sortedOffs = [640] := by decide +kernel
/-- The node with its protocol in a state. -/
def joined (b : Bus) : State := bused { b with listenAt := 0 }

/-- The same at the end of cycle 5. -/
def atEnd (s : State) : State := { s with mer := { cycle := 5, phase := 249999 * unitNs, cycleLen := 250000 } }

theorem witness_BusProtocolSteps : (joined { st := .listen }).busUp = true ∧ (joined { st := .listen }).mute = false ∧
    (joined { st := .listen }).listenOver = true ∧ bitN (joined { st := .listen }).bus.store.modes (joined { st := .listen }).bootMode = true ∧
    ((joined { st := .listen }).bus.hdr (joined { st := .listen }).bootMode).cycle ≠ 0 ∧
    ((joined { st := .listen }).bus.syncEntry (joined { st := .listen }).bootMode false (joined { st := .listen }).nodeId).isSome = true ∧
    (atEnd (joined { st := .coldstart })).cycleOver = true ∧ (atEnd (joined { st := .coldstart })).bus.csStart + 5 ≤ (atEnd (joined { st := .coldstart })).busCycle ∧
    (joined { st := .coldstart, csfails := 6 }).bus.csfails + 1 = 7 ∧ (atEnd (joined { st := .active, noSync := 3 })).cycleOver = true ∧
    (joined { st := .integrate, leaderSync := true, corrCyc := some 0, clean := 1 }).bus.corrCyc = some (joined { st := .integrate }).busCycle ∧
    (joined { st := .active, noSync := 3 }).bus.noSync + 1 = 4 ∧ (joined { st := .active, noSync := 3 }).bus.afterWrst = false ∧
    (atEnd (joined { st := .active, noLeader := 7 })).leadDue (7 + 1) ((atEnd (joined { st := .active, noLeader := 7 })).busCycle + 1) = true ∧
    (joined { st := .active }).bus.st ≠ .off := by decide +kernel

/-- The leader with modes 0 and 1 and a grant of slot 9, and a request in hand. -/
def leads (r : Option ModeReq) : State := { bused {} with
  mer := { cycle := 6 }
  bus := { st := .active, leader := true, store := { sched with modes := 3, hdr := sched.hdr ++ [(1, { cycle := 500000 })] }, req := r, modeRes := 1
           grants := [{ slot := 9, chB := false, node := 7, flow := some 9, since := some 1, silent := 2 }], staging := 0x15 } }

/-- An empty Graticule for mode 0 in hub SRAM: the header and eight mode headers. -/
def gratImg : State := { leads none with
  regs := [(vba 0x100, 0x500), (vba 0x110, 0x10)]
  mem := putBytes [] 0x1000 (toBytes 4 0x41545247 ++ toBytes 4 288 ++ List.replicate 280 0#8) }

theorem witness_BusGrantsAndModes : (leads none).busUp = true ∧ (leads none).modeRefuse 1 = 0 ∧ (leads none).modeRefuse 0 ≠ 0 ∧
    ((leads none).bus.grants.any fun g => g.live (leads none).busCycle && g.endAt.isNone && decide (g.silent + 1 = 3)) = true ∧
    (leads (some { target := 1, reqno := 1, tmcrc := 0, swcyc := some 6 })).busCycle = 6 ∧
    bitN (leads (some { target := 1, reqno := 1, tmcrc := 0, swcyc := some 6 })).bus.store.modes 1 = true ∧
    bitN (leads (some { target := 2, reqno := 1, tmcrc := 0, swcyc := some 6 })).bus.store.modes 2 = false ∧
    (leads none).cancelDue { target := 1, reqno := 1, tmcrc := 0, cr := some 3, active := [7] } (leads none).busCycle = true ∧
    (atEnd (leads none)).cycleOver = true ∧
    (leads none).gazLocked 0 = false ∧ ((0 : W32).toNat % 512 ≤ 366 ∧ 366 < (367 : W32).toNat % 512) ∧
    { bused {} with ctm := { cell := some { cellImg with conns := [⟨0, false, 2, 7, 8, 3, 3, 1, 1, 1, false, 0⟩] } }, bus := { gaz := [(8, ⟨0x19, 0⟩)] } }.gazLocked 8 = true ∧
    hubRange (0xFFFFFFFF * 256) 288 = false ∧ hubRange ((gratImg.rd (vba 0x110)).toNat * 256) 288 = true ∧
    (fun h => (leAt h 0 4, leAt h 4 4, fld (leAt h 8 4) 0 12)) (gratImg.bytes 0x1000 12) = (0x41545247, 288, 0) ∧ gratImg.readable 0x1000 288 := by decide +kernel

/-! ### Meridian and host ports -/

/-- HNA with link in promiscuous mode; the frames of the ports are `h`'s. -/
def hosted (h : HostSt) : State := { live with
  regs := [(hn false 0x04, 3)]
  hostA := { h with on := true, link := true }, mer := { bus := true } }

theorem witness_MeridianAndHostPorts : live.powered = true ∧ live.mer.bus = false ∧ (hosted {}).mer.bus = true ∧
    ((hosted { rxTs := [⟨1, 0, 0, 5, 6⟩], txTs := [⟨2, 1, 0, 5, 6⟩] }).host false).rxTs = [⟨1, 0, 0, 5, 6⟩] ∧ ((hosted {}).host false).rxTs = [] ∧
    ((hosted { rxTs := [⟨1, 0, 0, 5, 6⟩], txTs := [⟨2, 1, 0, 5, 6⟩] }).host false).txTs = [⟨2, 1, 0, 5, 6⟩] ∧ (hosted {}).hostUp false = true ∧
    ((hosted {}).host false).link = true ∧ (hosted {}).hostA.tscfg.getLsbD 2 = false ∧ (hosted {}).isBeat false (1#8 :: List.replicate 59 0#8) = false ∧
    (hosted {}).hostKeeps false (1#8 :: List.replicate 59 0#8) = true ∧ live.hostKeeps false (1#8 :: List.replicate 59 0#8) = false ∧
    fifoBytes ((hosted {}).host false).rx + 60 ≤ 16384 ∧ 16384 < fifoBytes ((hosted { rx := List.replicate 11 (List.replicate 1500 0#8) }).host false).rx + 60 ∧
    ((hosted { beat := some [1] }).host false).beat = some [1] ∧ ((hosted { held := some ([1], 0) }).host false).held = some ([1], 0) ∧
    ((hosted { tx := [[1]] }).host false).tx = [[1]] ∧ (bused {}).busUp = true := by decide +kernel

/-! ### DMA and banks -/

/-- Core 0 selects channel 2 of the hub's DMA, or channel 2 of sheet 3, which drains. -/
def engines : State := { live with
  sfy := { booted := true, sheets := [(1, { st := .inService }), (3, { st := .draining })] }
  cores := [(0, { item := some 0, g := [(6, 0x200), (7, 0x203)] })] }

theorem witness_DmaCommands : engines.ready c0 = true ∧ (engines.reg c0 6).toNat = 0 + 2 * 256 ∧ engines.reg c0 5 = 0 ∧
    (engines.fetched c0).inService 0 = true ∧ engines.blockLive 0 = true ∧ engines.inService 0 = true ∧ engines.sys.mode ≠ .shutdown ∧
    engines.blockLive 3 = true ∧ engines.inService 3 = false ∧ engines.dieFitted 3 = true ∧ (engines.reg c0 7).toNat = 3 + 2 * 256 := by decide +kernel

/-- A running channel 0 of the hub whose descriptor has the control word `w`, its LEN and strides and a list of two entries at 0x2000. -/
def describes (len ss ds w : Nat) : State := { live with
  mem := putBytes (putBytes [] 0x2000 (toBytes 8 0x3000 ++ toBytes 4 8 ++ toBytes 4 0 ++ toBytes 8 0x3100 ++ toBytes 4 8)) 0x1000 (toBytes 8 0x2000 ++ toBytes 8 0x4000 ++ toBytes 4 len ++ toBytes 4 0 ++ toBytes 2 ss ++ toBytes 2 ds ++ toBytes 4 w)
  dma := [(0, { st := .running, ring := 0x10 })] }

/-- The descriptor that the channel reads. -/
def descOf (s : State) : List Byte := s.bytes 0x1000 32

theorem witness_DmaDescriptors : (∀ s ∈ [describes 64 0 0 1, describes 64 0 0 3, describes 8 16 16 0x20005, describes 0 0 0 0x20007, describes 0 0 0 0x20009, describes 64 0 0 0x21],
      s.blockLive 0 = true ∧ (s.ch 0 0).st = .running ∧ (s.ch 0 0).cur = none ∧ s.holds (.dma 0 0) = false ∧ s.readable 0x1000 32 ∧
      (s.ch 0 0).ring * 256 + 32 * (s.ch 0 0).idx = 0x1000 ∧ leAt (descOf s) 28 4 % 2 = 1 ∧ fld (s.ch 0 0).pace 0 3 = 0) ∧
    fld (leAt (descOf (describes 64 0 0 0x21)) 28 4) 5 3 ≠ 0 ∧ (describes 64 0 0 1).sramRange 0x2000 64 = true ∧ (describes 64 0 0 1).sramRange 0x4000 64 = true ∧
    (describes 8 16 16 0x20005).spanIn (strideSpan 0x2000 16 2 8) = true ∧ (describes 8 16 16 0x20005).spanIn (strideSpan 0x4000 16 2 8) = true ∧
    meets (strideSpan 0x2000 16 2 8).1.toNat (strideSpan 0x2000 16 2 8).2 (strideSpan 0x4000 16 2 8).1.toNat (strideSpan 0x4000 16 2 8).2 = false ∧
    [1, 3, 5, 7, 9].map (fun w => fld w 1 3) = [0, 1, 2, 3, 4] ∧
    (describes 0 0 0 0x20007).readable 0x2000 32 ∧ listEntries 2 ((describes 0 0 0 0x20007).bytes 0x2000 32) = some [(0x3000, 8), (0x3100, 8)] ∧
    (describes 0 0 0 0x20007).sramRange 0x3000 8 = true ∧ (describes 0 0 0 0x20007).sramRange 0x3100 8 = true ∧
    (describes 0 0 0 0x20007).sramRange 0x4000 16 = true ∧ meets 0x3000 8 0x4000 16 = false ∧ meets 0x3100 8 0x4000 16 = false := by decide +kernel
/-- Channel 0 of the hub with a last segment of 32 bytes in hand, or a descriptor that waits for its hand-back, or at its ring's end. -/
def moving (dst dstat : Nat) (st : DmaSt) (src : Nat := 0x2000) : State := { describes 64 0 0 1 with
  dma := [(0, { st := st, ring := 0x10, cur := if st = .wait then none else some { kind := 0, src := 0x2000, dst := dst, len := 64, evt := false, w28 := 1, todo := [⟨src, dst, 32⟩], down := false, moved := 32, dstat := dstat } })] }

theorem witness_DmaBursts : (∀ s ∈ [moving 0x4000 0 .running, moving 0x12000000 0 .running, moving 0x4000 2 .running, moving 0x4000 0 .wait],
      s.blockLive 0 = true ∧ s.holds (.dma 0 0) = false ∧ fld (s.ch 0 0).pace 0 3 = 0 ∧ fld (s.ch 0 0).cfg 0 2 = 0 ∧ s.ecc = []) ∧
    ((moving 0x4000 0 .running).ch 0 0).cur.isSome = true ∧ 32 ≤ 32 * 2 ^ 0 - 0x4000 % (32 * 2 ^ 0) ∧
    (moving 0x4000 0 .running).rangeAnswers 0x2000 32 = true ∧ (moving 0x4000 0 .running).rangeAnswers 0x4000 32 = true ∧
    (moving 0x12000000 0 .running).rangeAnswers 0x12000000 32 = false ∧
    (moving 0x4000 0 .running 0x12000000).rangeAnswers 0x12000000 32 = false ∧ 0x100 ∈ wordsOf 0x2000 32 ∧
    4 < { moving 0x4000 0 .running with ecc := [(0x100, 5)] }.badSyms 0x100 ∧ (moving 0x4000 2 .running).rangeAnswers (0x10 * 256) 32 = true ∧
    ((moving 0x4000 0 .wait).ch 0 0).descAddr = 0x1000 ∧ (moving 0x4000 0 .wait).readable 0x1000 32 ∧ (moving 0x4000 0 .running).readable 0x2000 32 ∧
    { live with dma := [(0, { st := .wait, ring := 0x20 })] }.readable 0x2000 32 ∧
    { live with dma := [(0, { st := .wait, ring := 0x20 })] }.bytes 0x2000 32 = List.replicate 32 0#8 := by decide +kernel

/-- The scrubber of the hub is on; word 0 has 5 symbols in error. -/
def scrubbing : State := { live with regs := [(rg 0 (memBlk 0) 0x04, 1)], ecc := [(0, 5)] }

theorem witness_MemoryBanks : scrubbing.sys.porst = false ∧ scrubbing.sys.internal = false ∧ scrubbing.dieFitted 0 = true ∧ 0 < banksOf 0 ∧
    scrubbing.rb (rg 0 (memBlk 0) 0x04) 0 = true ∧ (scrubbing.md 0).retained.getLsbD 0 = false ∧ scrubbing.badSyms 0 = 5 ∧
    scrubbing.badSyms (bankWords 0 1).1 = 0 ∧ scrubbing.blockLive 0 = true := by decide +kernel

/-! ### Sheets, cell mode, Surveyor -/

/-- Surveyor with sheet 1 in a state and named by ARG0. -/
def sheeted (x : Sheet) (die : Nat) : State := { live with
  regs := [(sfyReg 0x24, BitVec.ofNat 32 die), (sfyReg 0x28, 5)]
  mer := { phase := 0 }
  sfy := { booted := true, sheets := [(1, x)], surv := none } }

theorem witness_SheetCommands : live.powered = true ∧ live.sfyRestarting = false ∧ (sheeted {} 9).sheetFitted (sheeted {} 9).sfyDie = false ∧
    (sheeted {} 1).sheetFitted (sheeted {} 1).sfyDie = true ∧ (sheeted {} 1).sheetModeRefuses = false ∧ ((sheeted {} 1).sheet 1).st = .retired ∧
    { sheeted {} 1 with sys := { porst := false } }.sheetModeRefuses = true ∧ ((sheeted { st := .inService } 1).sheet 1).st = .inService ∧
    ((sheeted { st := .draining } 1).sheet 1).pend = false ∧ ((sheeted { st := .survey } 1).sheet 1).st = .survey ∧
    ((sheeted { st := .readmit } 1).sheet 1).checked = none ∧ (sheeted { st := .draining } 1).atDatum = true ∧ (sheeted { st := .draining } 1).drained 1 = true := by decide +kernel

/-- The cell in a mode, with the bus in a state. -/
def inMode (m : CellMode) (st : BusSt) (x : Sys) : State := { live with sys := { x with porst := false, mode := m }, bus := { st := st }, ctm := { cell := some cellImg } }

theorem witness_CellMode : live.blockLive 0 = true ∧ live.sys.mode ≠ .boot ∧ (inMode .boot .off {}).blockLive 0 = true ∧ live.sys.shutReq = false ∧
    (inMode .run .active { shutReq := true }).sys.shutReq = true ∧ (inMode .shutdown .active {}).atDatum = true ∧ (inMode .shutdown .active {}).shutOver = true ∧
    (inMode .run .active {}).sys.enNext = false ∧ (inMode .run .active {}).bus.st = .active ∧ (inMode .run .active {}).rdnActive = true ∧
    (inMode .run .listen {}).bus.st ≠ .active ∧ (inMode .integrate .active {}).mayRun = true ∧ (inMode .integrate .off {}).mayRun = false := by decide +kernel

/-- A boot image of an empty program and its configuration, its state sector, and the key that signed it. -/
def bootFlash : Flash := ⟨putFlash [] 0x10000 (toBytes 80 0x10000000050000000000000000000000000000000100000000000000000000000000000002000000030000009000010001544F4F42 ++
  toBytes 64 0xCBB8285AFE5C82FBA1E317B574257468EEA5F94F901217FAC285A4DED2B48B2CCBB8285AFE5C82FBA1E317B574257468EEA5F94F901217FAC285A4DED2B48B2C)⟩

/-- Surveyor runs the image of flash A; ARG0 to ARG2 ask for 256 bytes of hub SRAM at 0x1000 to go to the word of `a0`. -/
def surveyor (a0 n : Nat) (y : Sfy) : State := { live with
  regs := [(sfyReg 0x24, BitVec.ofNat 32 a0), (sfyReg 0x28, 0x1000), (sfyReg 0x3C, BitVec.ofNat 32 n)]
  mer := { clocks := 25000000000 }
  sfy := { y with booted := true, flashB := bootFlash, keys := [(0, [toBytes 64 0xB854CEAEB5BA313006E716785B105CB416AB6CEB9D64410F484AF9DD9712A7F7F4060155ED25B559E0687F2711BE35B4145AABB9B35549DC70A69D6DB83C0F44])] } }

theorem witness_SurveyorImages : (surveyor 0 0 {}).powered = true ∧ (surveyor 0 0 {}).sfyRestarting = false ∧ (surveyor 0 0 {}).sfy.surv = none ∧
    (surveyor 0 0 { busy := .restart true false }).sfy.busy = .restart true false ∧ 60000000000 ≤ (surveyor 0 0 { confirmBy := some 60000000000 }).upNs ∧
    hubRange 0x1000 256 = true ∧ (surveyor 0x10001 256 {}).rd (sfyReg 0x24) = 0x10001#32 ∧ bitN 0x10001 0 = true ∧
    (surveyor 0x10001 256 {}).readable 0x1000 256 := by decide +kernel

theorem witness_SurveyorImages_switch : (surveyor 0 0 {}).bootCheck true = 0 ∧ ((surveyor 0 0 {}).scanFlash true).1.flashState true ≠ 2 ∧
    (((surveyor 0 0 {}).scanFlash false).1.scanFlash true).1.pickFlash = some true := by decide +kernel

/-- A RESET_MASK record and a KEYENROL record of role BOOT, signed by the keys that `authority` holds. -/
def maskRec : List Byte := toBytes 32 0x40000006000000001444D4353 ++
  toBytes 64 0x2C39E24DF355931C43FBEB012B601D33E89DDEF43E4C4DFD620D7331FB1CF9D82C39E24DF355931C43FBEB012B601D33E89DDEF43E4C4DFD620D7331FB1CF9D8

/-- The KEYENROL record. -/
def enrolRec : List Byte := toBytes 96 0x3000000A000000002444D4353 ++
  toBytes 64 0x9CABD86DDC800CA4757BE31DE11EB53DEA4FB6C119D37B5977A6AD30D89FFF1F9CABD86DDC800CA4757BE31DE11EB53DEA4FB6C119D37B5977A6AD30D89FFF1F

/-- Surveyor with the keys that signed both records. -/
def authority : State := { live with
  sfy := { booted := true, keys := [(0, [toBytes 64 0x6927F5D9B498D4E201666FE4F0163A83C6A75ADA128C7688EEF67E77B649B59FBB5996C81D8CA529724D6E4B9F0E1ECB70E91DB1B5901761A543CB7602B7CB62]),
    (1, [toBytes 64 0x5A70B6F2ACA4173011505D46655CE5FADFCBB430FFE3A12BCB05D03524E03AA7796134FC071E1F41E105DBF00622493BF1AF34937EC556D9CA62AC9D9B023919])] } }

theorem witness_SignedCommands : authority.powered = true ∧ authority.sfyRestarting = false ∧ signedFormat 2 enrolRec = true ∧ signedFormat 1 maskRec = true ∧
    signedFormat 2 [] = false ∧ signedFormat 1 [] = false ∧ leAt enrolRec 16 4 = authority.sys.uid0 ∧ leAt enrolRec 20 4 = authority.sys.uid1 ∧
    (leAt enrolRec 16 4 ≠ { authority.sys with uid0 := 1 }.uid0) ∧
    (authority.sfy.lastSeq.any fun x => x.1 == 0 && decide (leAt enrolRec 12 4 ≤ x.2)) = false ∧ live.topKey (leAt enrolRec 5 1) = none ∧
    signedFormat 2 (enrolRec.take 96 ++ List.replicate 64 0#8) = true := by decide +kernel

theorem witness_SignedCommands_enrol : (authority.topKey 0).any (fun y => ecdsaOk y (enrolRec.drop 96) (sha256 (enrolRec.take 96))) = true := by decide +kernel
theorem witness_SignedCommands_mask : (authority.topKey 1).any (fun y => ecdsaOk y (maskRec.drop 32) (sha256 (maskRec.take 32))) = true := by decide +kernel
/-! ### Resets, datum, sensors -/

/-- WRST_N is low since power-on, 20 s ago. -/
def heldDown (masked wrst : Bool) : State := { live with
  mer := { clocks := 5000000000 }
  sys := { porst := false, wrst := wrst }
  sfy := { wrstPin := true, masked := masked } }

theorem witness_Resets : live.sys.internal = false ∧ { live with sys := { internal := true } }.sys.internal = true ∧ live.powered = true ∧ live.sfy.wrstPin = false ∧
    live.sfy.masked = false ∧ { live with sfy := { masked := true } }.sfy.wrstPin = false ∧ (heldDown true false).powered = true ∧
    (heldDown true false).sfy.wrstPin = true ∧ (heldDown true false).sfy.masked = true ∧ (heldDown false true).sfy.masked = false ∧
    (heldDown false true).sfy.booted = false ∧ (heldDown false true).sfy.stuck = false ∧ 10000000000 ≤ (heldDown false true).upNs - (heldDown false true).sfy.lowAt ∧
    State.reset.powered = false ∧ State.reset.held = false ∧ ((State.reset.scanFlash false).1.scanFlash true).1.pickFlash = none := by decide +kernel

theorem witness_DatumOrder : live.powered = true ∧ State.reset.powered = false ∧ live.mer.place = none ∧ 0 < live.mer.inc ∧ live.mer.phase < live.mer.target ∧
    live.sys.gpioDir.getLsbD 0 = false ∧ { live.sys with gpioDir := 1 }.gpioDir.getLsbD 0 = true := by decide

/-- Surveyor with its limits at 80 °C and 100 °C and the shut-down at the second enabled. -/
def warm : State := { live with regs := [(sfyReg 0x80, 0x16450)] }

theorem witness_SensorSamples : warm.powered = true ∧ warm.tempFitted 0 = true ∧ warm.rf (sfyReg 0x80) 8 8 = 100 ∧ warm.rb (sfyReg 0x80) 16 = true ∧
    warm.sys.mode ≠ .boot ∧ (Table.get (fun _ => ({} : TSensor)) warm.sfy.temps 0).crit = false ∧ (100 : Int) * 16 < 1601 ∧
    sxt 16 (warm.rf (sfyReg 0x100) 16 16) < 1601 ∧ warm.railFitted 0 = true ∧ 712 * 100 < railNominal 0 * 95 ∧ railNominal 0 * 105 < 788 * 100 ∧
    (railNominal 0 * 95 ≤ 750 * 100 ∧ 750 * 100 ≤ railNominal 0 * 105) ∧ warm.tempFitted 16 = false ∧ warm.railFitted 30 = false := by
  decide +kernel

/-! ### Redundancy, feeds, registers -/

/-- A paired unit 10 ms after power-on, in a state of the interlock. -/
def pairedUnit (r : Rdn) : State := { live with
  mer := { clocks := 2500000, phase := 50000 * unitNs }
  hostA := { on := true }
  regs := [(rdnReg 0x18, 0x10), (rdnReg 0x1C, 64)]
  rdn := { r with paired := true, cfg := 0x03080200 } }

/-- A heartbeat of the partner, node 2, with its CRC. -/
def beat : List Byte := ([1, 1, 2] ++ List.replicate 57 0#8) ++ toBytes 4 (crcOf ([1, 1, 2] ++ List.replicate 57 0#8))

theorem witness_Redundancy : (pairedUnit {}).powered = true ∧ (pairedUnit {}).rdn.actIn = false ∧ (pairedUnit { actOut := true }).rdn.actOut = true ∧
    (pairedUnit {}).priHigh = true ∧ { pairedUnit {} with sys := { porst := false, priSel := false } }.priHigh = false ∧
    ((pairedUnit {}).host (pairedUnit {}).rdn.portB).on = true ∧ beat.length = 64 ∧ crcOf (beat.take 60) = leAt beat 60 4 ∧ leAt beat 0 1 % 16 = 1 ∧
    leAt beat 2 1 = (pairedUnit {}).partner ∧ leAt beat 8 6 = (pairedUnit {}).mer.cycle ∧
    (pairedUnit { st := .standby }).rdn.lowSince + 6000000 ≤ (pairedUnit { st := .standby }).upNs ∧
    fld (pairedUnit { miss := 7 }).rdn.cfg.toNat 16 8 ≤ (pairedUnit { miss := 7 }).rdn.miss + 1 ∧ (pairedUnit {}).mer.cycle % (pairedUnit {}).mer.planN = 0 ∧
    (pairedUnit {}).rf (rdnReg 0x1C) 0 17 ≠ 0 ∧ hubRange (((pairedUnit {}).rd (rdnReg 0x18)).toNat * 256) 64 = true ∧
    (pairedUnit {}).readable 0x1000 64 ∧ (pairedUnit { cmdPend := 1 }).rdn.cmdPend = 1 ∧
    healthClean (pairedUnit { st := .isolated, cmdPend := 2, rxA := [9, 9, 9, 9], rxB := [9, 9, 9, 9] }).healthBits = true ∧
    (pairedUnit { cmdPend := 2 }).rdn.st ≠ .isolated ∧ (pairedUnit {}).rdn.beatCyc ≠ some (pairedUnit {}).mer.cycle ∧
    (pairedUnit { beatCyc := some 0 }).rdn.beatCyc = some (pairedUnit {}).mer.cycle ∧ 50000 * unitNs ≤ (pairedUnit {}).mer.phase := by decide +kernel

/-- Both feeds at the end of a fault's time, feed A blocked or not. -/
def fed (f : Feed) : State := { live with feedA := f, feedB := { nUv := 19, nOv := 19, nOc := 199 } }

theorem witness_SupplyFeeds : ({ live with sys := { internal := true, orOk := 199 } }).held = true ∧ ({ live with sys := { internal := true, orOk := 200 } }).held = false ∧ live.powered = true ∧ live.sys.internal = false ∧ (fed { nUv := 19, nOv := 19, nOc := 199 }).feedA.nUv = 19 ∧
    (fed { nUv := 19, nOv := 19, nOc := 199 }).feedA.nOv = 19 ∧ (fed { nUv := 19, nOv := 19, nOc := 199 }).feedA.nOc = 199 := by decide

theorem witness_SupplyBlocks : (fed {}).powered = true ∧ ((fed {}).feed false).blocked = false ∧ (fed {}).feedOk true = true ∧ ((fed {}).feed true).blocked = false ∧
    (fed { cls := 1 }).feedOk false = false ∧ ((fed { blocked := true }).feed false).blocked = true ∧ (((fed {}).feed true).sample 10000 0).classify ≠ 0 ∧
    ((fed { blocked := true }).feed false).blkUntil ≤ (fed { blocked := true }).upNs ∧
    (fed { blocked := true, blkUntil := 1 }).upNs < ((fed { blocked := true, blkUntil := 1 }).feed false).blkUntil := by decide +kernel

/-- Core 0 with g5 at MER_TIME0 and g6 at a register of CSM, and with axis 0 of sheet 1 at rest or in motion. -/
def mapped (v : Int) : State := { live with
  trv := [(32, { v := v })]
  cores := [(0, { item := some 0, cvec := 0x1000, g := [(5, 0xF000001008), (6, 0xF00C000000)] })] }

theorem witness_RegisterPath : (live.ch 0 0).st = .idle ∧ whereIs 0xF000000020 = .reg (rg 0 0 0x20) ∧ live.regLive (rg 0 0 0x20) = true ∧ whereIs 0xF00C000000 = .reg (0x0C * 2 ^ 24) ∧
    whereIs 0 = .hub 0 ∧ whereIs 0xFFFFFFFFFC = .none ∧ live.powered = true ∧ live.sys.strapCompat = true ∧ (mapped 0).anyMoving = false ∧
    (mapped 0).ready c0 = true ∧ whereIs ((mapped 0).address c0 6 0) = .reg (0x0C * 2 ^ 24) ∧ ((mapped 0).core c0).cvec ≠ 0 ∧ ((mapped 0).core c0).xm = false := by decide +kernel

theorem witness_CompatChangeRefused : (mapped 5).powered = true ∧ (mapped 5).anyMoving = true ∧ (mapped 5).sys.strapCompat = true ∧
    (1#32).getLsbD 0 ≠ (mapped 5).rb (rg 0 0 0x04) 0 := by decide +kernel

theorem witness_UnassignedCodes : (Instr.orh c0 3 0 0xF0).wf = true ∧ encodeWord (.orh c0 3 0 0xF0) = some (c0, 0x2C6000F0) ∧ wordIllegal 0x2C6000F0 = false ∧
    encodeWord (.tsamp c0 1 3) = some (c0, 0xD82000C0) ∧ wordIllegal 0xD82000C0 = true ∧ hand.hasHandler c0 ∧
    (hand.fetched c0).selector 4 (hand.reg c0 0).toNat = .inr (0, 0) ∧ codeIn (engrAssigned 4) 3 = false := by
  exact ⟨by decide, by decide, by decide, by decide, by decide, ⟨by decide, by decide⟩, by decide, by decide⟩

theorem witness_UnassignedCodes_codes : live.blockLive 1 = true ∧ 0 < trvAxes 1 ∧ trvCodes.contains 0 = false ∧ trvCodes.contains 0x47 = false ∧
    live.powered = true ∧ live.sfyRestarting = false ∧ live.sfy.booted = true ∧ live.sfy.surv = none ∧ hand.ready c0 = true ∧
    (engines.selector 4 (engines.reg c0 6).toNat) = .inr (0, 2) := by decide +kernel

/-! ### The machine -/

theorem witness_StepTakesFront : { live with pending := [Instr.rejoin, .isolate] }.pending = .rejoin :: [.isolate] := by decide

theorem witness_ResetAndIdle : live.pending = [] ∧ live.sys.porst = false ∧ live.sys.internal = false ∧ live.mer.phase + live.mer.inc < live.mer.target ∧
    State.reset.sys.porst = true ∧ { live with mer := { phase := 250000 * unitNs - 1 } }.mer.target ≤ { live with mer := { phase := 250000 * unitNs - 1 } }.mer.phase + live.mer.inc := by
  decide +kernel

theorem witness_StepKeepsMemoryCanonical : Memory.wf State.reset.mem = true ∧ ∃ t, step State.reset = .next t := ⟨by decide, _, rfl⟩

/-- The state after an outcome. -/
def after : Out → State
  | .next t => t
  | _ => State.reset

theorem witness_OnlyDecisionsReleaseArms : let s := { resuming with pending := [.ssmAutoresume 0] }
    step s = .next (after (step s)) ∧ (s.ctm.arm 0).sst ≠ 0 ∧ ((after (step s)).ctm.arm 0).sst = 0 := ⟨by rfl, by decide +kernel, by decide +kernel⟩
/-! ### Ill-formed commands, one for each check of WellFormed -/

/-- A core that the sheets do not have. -/
def badCore : CoreId := ⟨1, 6⟩

/-- Words written out from the formats of R43 and R61: opcode, rd, ra, rb, sh or rc, func. -/
theorem test_decode_integer : decodeWord c0 0b000001_00000_00000_00000_000000_00000 = .add c0 0 0 0 ∧
    decodeWord c0 0b000001_00101_00100_00000_001001_01100 = .srli c0 5 4 9 ∧ decodeWord c0 0b000010_00001_00010_00011_000000_00100 = .div c0 1 2 3 ∧
    decodeWord c0 0b000101_00101_00101_0000000000000001 = .andi c0 5 5 1 ∧ decodeWord c0 0b001011_00011_00000_0000000011110000 = .orh c0 3 0 0xF0 := by
  decide

theorem test_decode_memory : decodeWord c0 0b010100_00100_00011_00_00000000000000 = .lw c0 0 4 3 0 ∧
    decodeWord c0 0b011011_00100_00011_01_11111111111111 = .sd c0 1 4 3 0x3FFF ∧ decodeWord c0 0b010100_00100_00011_11_00000000000000 = .illegal c0 0x5083C000 ∧
    decodeWord c0 0b111101_00001_00010_00011_00000_11_0000 = .aadd c0 3 1 2 3 := by decide

theorem test_decode_control : decodeWord c0 0b100000_00101_00000_0000000000000100 = .beq c0 5 0 4 ∧
    decodeWord c0 0b101001_11111111111111111111111111 = .jal c0 0x3FFFFFF ∧ decodeWord c0 0b000011_00000_00001_00000_000000_00000 = .jr c0 1 ∧
    decodeWord c0 0b000011_00011_00000_00000_000101_00010 = .mfc c0 3 5 ∧ decodeWord c0 0 = .illegal c0 0 := by decide

theorem test_decode_cell : decodeWord c0 0b110011_00000_00111_01000_001_00010110 = .dmax (.engw c0 true 0 7 8) ∧
    decodeWord c0 0b110100_00001_00000_00010_010_01000101 = .sleReadCoefA c0 1 2 5 ∧ decodeWord c0 0b110010_00000_00000_00000_00000000000 = .done c0 0 ∧
    decodeWord c0 0b110111_00001_00010_00011_00100_1_0_0000 = .qmul c0 1 2 3 4 true false ∧
    decodeWord c0 0b110111_00001_00010_00011_00100_1_1_0001 = .looponly c0 0xDC221931 := by decide

theorem test_wf_core : (Instr.add badCore 1 2 3).wf = false ∧ (Instr.add c0 1 2 3).wf = true := by decide
theorem test_wf_traverse_axis : (Instr.jogTimeout 0 16).wf = false ∧ (Instr.jogTimeout 1 16).wf = true := by decide
theorem test_wf_servo_axis : (Instr.offcntExpiry 0 3).wf = false ∧ (Instr.offcntExpiry 6 23).wf = true := by decide
theorem test_wf_channel : (Instr.poll 0 16).wf = false ∧ (Instr.start (.reg 6 15)).wf = true := by decide
theorem test_wf_solver : (Instr.abort (.reg 1 1)).wf = false ∧ (Instr.abort (.reg 1 0)).wf = true := by decide
theorem test_wf_traverse_source : (Instr.enable (.engw badCore false 1 2 3)).wf = false ∧ (Instr.enable (.reg 0 24)).wf = false := by decide
theorem test_wf_engine_source : (Instr.start (.engw badCore 1 2 3)).wf = false := by decide
theorem test_wf_bank_source : (Instr.bank (.target 0 0 false)).wf = false ∧ (Instr.bank (.cmd (.reg 1 24))).wf = false := by decide
theorem test_wf_bad_code : (Instr.badcmd (.trv 1 0 0x28)).wf = false ∧ (Instr.badcmd (.sle 1 0 11)).wf = false ∧ (Instr.badcmd (.tri 1 3)).wf = false ∧
    (Instr.badcmd (.dma 0 0 2)).wf = false ∧ (Instr.badcmd (.sfy 0x10)).wf = false ∧ (Instr.badcmd (.engw c0 2 11 1 2 3)).wf = false ∧
    (Instr.badcmd (.engw c0 5 0 1 2 3)).wf = false ∧ (Instr.badcmd (.trv 1 0 0x29)).wf = true := by decide
theorem test_wf_master : (Instr.captureRead (.core badCore) 0).wf = false := by decide
theorem test_wf_readmissions : (Instr.wrstNRelease [(1, 0), (1, 2)]).wf = false ∧ (Instr.wrstNRelease [(1, 6)]).wf = false := by decide
theorem test_wf_frame : (Instr.dataReceive false false { bytes := List.replicate 63 0 }).wf = false ∧
    (Instr.dataReceive false false { bytes := List.replicate 1519 0 }).wf = false ∧ (Instr.slotTransmit false 0 { bundle := [4096] }).wf = false := by decide +kernel
theorem test_wf_arm : (Instr.tss1Expiry 0).wf = false ∧ (Instr.tss1Expiry 19).wf = false ∧ (Instr.tss1Expiry 18).wf = true := by decide
theorem test_wf_bank : (Instr.scrubVisit 1 24).wf = false ∧ (Instr.scrubVisit 0 24).wf = true := by decide
theorem test_wf_item : (Instr.chol 1 128).wf = false ∧ (Instr.chol 0 0).wf = false ∧ (Instr.chol 1 127).wf = true := by decide

/-! ### The rules' corner cases and worked examples, each computed from the spec's text -/

theorem witness_IntegerResults : hand.ready c0 = true ∧ bare.ready c0 = true := by decide
theorem witness_ImmediateResults : hand.ready c0 = true ∧ bare.ready c0 = true := by decide

/-- R46: division by zero saturates by the dividend's sign, and the overflowing quotient saturates too. -/
theorem test_div_corners : aluDiv 5 0 = (0x7FFFFFFFFFFFFFFF, true) ∧ aluDiv (-5) 0 = (0x8000000000000000, true) ∧
    aluDiv 0x8000000000000000 (-1) = (0x7FFFFFFFFFFFFFFF, true) ∧ aluDiv (-7) 2 = (-3, false) ∧ aluRem (-7) 2 = (-1, false) ∧
    aluRem 0x8000000000000000 (-1) = (0, false) ∧ aluDivu 5 0 = (0xFFFFFFFFFFFFFFFF, true) ∧ aluRemu 5 0 = (0, true) := by decide

/-- Chapter 03, a saturating torque sum. -/
theorem test_torque_sum : aluQ 0 1200 409600 16 true = (7500, false) ∧ aluQ 7500 0x7FFFF000 32768 15 false = (0x7FFFFFFF, true) := by decide

/-- R19, R20: the examples of the address map. -/
theorem test_address_map : whereIs 0xF000000000 = .reg (rg 0 0 0) ∧ whereIs 0xF001010000 = .reg (rg 1 1 0) ∧ whereIs 0xF001020000 = .reg (rg 1 2 0) ∧
    whereIs 0xF0000F0000 = .reg (rg 0 15 0) ∧ whereIs 0x01FFFFFF = .hub 0x01FFFFFF ∧ whereIs 0x02000000 = .none := by decide

/-- The node of chapter 10's worked example: offsets −30, +20 and +45 ns and its own 0 at ρ = −3,000 ppb. -/
def correcting : State := { live with
  regs := [(vba 0x100, 0x500)]
  mer := { phase := 230000 * unitNs, bus := true, rho := -3000 * 2 ^ 40 }
  bus := { st := .active, ownSync := true, store := { sched with hdr := [(0, { cycle := 250000, prec := 100, wadd := 200 })] }, offs := [(12, { a := some (-480) }), (20, { a := some 320 }), (24, { a := some 720, b := some 720 })] } }

/-- Chapter 10, one correction at the XN. -/
theorem test_one_correction : (after (execClockCorrection correcting)).bus.corr = 10 ∧ (after (execClockCorrection correcting)).bus.nval = 4 ∧
    (after (execClockCorrection correcting)).bus.kval = 1 ∧ (after (execClockCorrection correcting)).mer.rho = -8000 * 2 ^ 40 := by decide +kernel

/-- R45: saturating addition sets the flag and keeps the sign. -/
theorem test_adds_saturates : aluAdds 0x7FFFFFFFFFFFFFFF 1 = (0x7FFFFFFFFFFFFFFF, true) ∧ aluSubs 0x8000000000000000 1 = (0x8000000000000000, true) := by decide

/-- R9: a read–write register takes its fields, and a write to the set register of the outputs only sets. -/
theorem test_gpio_set : (after (exec (.sysGpioset 0x10) { live with regs := [(rg 0 0 0x24, 1)] })).rd (rg 0 0 0x24) = 0x11 := by decide +kernel

/-- A command of the queue is taken in order, and the block idles on an empty queue. -/
theorem test_queue_order : (after (step { live with pending := [.isolate, .rejoin] })).pending = [.rejoin] ∧ (after (step live)).mer.clocks = 1 := by decide +kernel

end Sys2Proof.Tests
end

section
/-! SUPPORT. One command and one step, as the statements speak of them; and the capture that a read of MER_STEP0 makes (R13). -/

namespace Sys2Proof.Machine

/-! ### A step and its command -/

/-- With a command waiting, a step is that command's effect. -/
theorem step_of_pending_cons {s : State} {c : Instr} {rest : List Instr} (h : s.pending = c :: rest) :
    step s = exec c { s with pending := rest } := by
  unfold step
  rw [h]

/-- Settles O57: `step` hands the front of the queue to `exec`. The order of the queue is the model's frame (assumption log 1, 106). -/
theorem stepTakesFront : Obligations.StepTakesFront :=
  fun _ _ _ h => step_of_pending_cons h

/-- `exec` is a function, so what a command answers is what holds of its next state. -/
theorem answers_iff_of_exec {i : Instr} {s u : State} {P : State → Prop} (h : exec i s = .next u) : Answers i s P ↔ P u := by
  unfold Answers
  rw [h]
  constructor
  · rintro ⟨t, ht, hP⟩
    cases ht
    exact hP
  · exact fun hP => ⟨u, rfl, hP⟩

/-! ### Reading a register by its address -/

theorem regOf_of_whereIs {a : BitVec 40} {r : Nat} (h : whereIs a.toNat = .reg r) : regOf a = some r := by
  unfold regOf
  rw [h]

/-- An aligned read of a live register answers with what the register path reads there. -/
theorem exec_captureRead_live {s : State} {a : BitVec 40} {r : Nat} (m : Master) (hw : whereIs a.toNat = .reg r)
    (ha : a.toNat % 4 = 0) (hl : s.regLive r = true) : exec (.captureRead m a) s = .next (answerRead (s.regRead m r)) := by
  show execCaptureRead m a s = _
  unfold execCaptureRead
  rw [regOf_of_whereIs hw]
  exact congrArg _ (if_pos ⟨ha, hl⟩)

@[simp] theorem answerRead_capOf (x : W32 × State) (q : Nat) : (answerRead x).capOf q = x.2.capOf q := rfl

/-- MER_STEP0 is the lowest register of a value of three words, all of which its read captures (R13). -/
theorem State.regRead_merStep0 (s : State) (m : Master) : s.regRead m (merR 0x30) =
    (s.rd (merR 0x30), s.capWords (merR 0x30) [s.rd (merR 0x30), s.rd (merR 0x34), s.rd (merR 0x38)]) := rfl

/-- After a read of MER_STEP0 the captured MER_STEP1 is the word that stands there. -/
theorem State.regRead_merStep0_capOf_merStep1 (s : State) (m : Master) :
    (s.regRead m (merR 0x30)).2.capOf (merR 0x34) = s.rd (merR 0x34) := by
  rw [State.regRead_merStep0]
  simp [State.capWords, merR, rg]

/-- A powered block in which MER_STEP1 holds 1 and nothing has been captured. -/
def stepWritten : State := State.wr { sys := { porst := false } } (merR 0x34) 1

theorem stepWritten_rd_merStep1 : stepWritten.rd (merR 0x34) = 1 := by
  simp [stepWritten]

theorem stepWritten_capOf (q : Nat) : stepWritten.capOf q = 0 := rfl

/-- Refutes O54: the statement lists MER_STEP0 among the registers whose read changes `busData` alone, but it is the lowest word of a
multi-register value, so its read captures MER_STEP1 and MER_STEP2 as well (R13). In `stepWritten` the captured MER_STEP1 goes
from 0 to 1. -/
theorem not_registerPath : ¬ Obligations.RegisterPath := by
  unfold Obligations.RegisterPath
  intro h
  obtain ⟨-, -, hread, -, -⟩ := h stepWritten .ext 0xF000020030#40 0
  have hwhere : whereIs (0xF000020030#40).toNat = .reg (merR 0x30) := by decide
  have hlive : stepWritten.regLive (merR 0x30) = true := by decide
  obtain ⟨-, -, honly⟩ := hread (merR 0x30) hwhere (by decide) hlive
  have hans := (answers_iff_of_exec (exec_captureRead_live .ext hwhere (by decide) hlive)).1 (honly (by decide))
  have hcap : (answerRead (stepWritten.regRead .ext (merR 0x30))).capOf (merR 0x34) = stepWritten.capOf (merR 0x34) := by
    rw [hans]
    rfl
  rw [answerRead_capOf, State.regRead_merStep0_capOf_merStep1, stepWritten_rd_merStep1, stepWritten_capOf] at hcap
  exact absurd hcap (by decide)

end Sys2Proof.Machine
end

section
/-! SUPPORT. A core that executes one instruction: what the fetch leaves as it was, and what each way in which an instruction's body
ends answers (chapter 02). -/

namespace Sys2Proof.Machine

/-! ### The fetched state -/

variable {s : State} {c : CoreId}

/-- Settles O1: `fetch_same` says what a fetch may change, and a byte and a register lie outside it. -/
theorem fetchKeepsRegisters : Obligations.FetchKeepsRegisters := by
  intro s c d
  have h := fetch_same s c
  exact ⟨h.reg d, h.1 d, h.byte, h.2⟩

/-- The fetch leaves of a core everything but its I-cache. -/
theorem fetched_core (s : State) (c d : CoreId) : (s.fetched c).core d = { s.core d with icache := ((s.fetched c).core d).icache } :=
  congrArg (fun x => { x with icache := ((s.fetched c).core d).icache }) ((fetch_same s c).1 d)

@[simp] theorem fetched_reg (s : State) (c d : CoreId) (r : Reg) : (s.fetched c).reg d r = s.reg d r := (fetch_same s c).reg d r
@[simp] theorem fetched_pc (s : State) (c d : CoreId) : ((s.fetched c).core d).pc = (s.core d).pc := by rw [fetched_core]
@[simp] theorem fetched_cvec (s : State) (c d : CoreId) : ((s.fetched c).core d).cvec = (s.core d).cvec := by rw [fetched_core]
@[simp] theorem fetched_xm (s : State) (c d : CoreId) : ((s.fetched c).core d).xm = (s.core d).xm := by rw [fetched_core]

theorem fetched_hasHandler (h : s.hasHandler c) : (s.fetched c).hasHandler c := by
  simpa [State.hasHandler] using h

/-! ### Updates of one core -/

theorem onlyCore_setCore (u : State) (c : CoreId) (x : Core) : u.onlyCore (u.setCore c x) c x := by
  refine ⟨by simp, fun d hd => by simp [hd], fun _ => rfl, rfl⟩

theorem onlyCore_updCore (u : State) (c : CoreId) (f : Core → Core) : u.onlyCore (u.updCore c f) c (f (u.core c)) :=
  onlyCore_setCore u c _

theorem wentTo_pc4 (u : State) (c : CoreId) : u.wentTo (u.pc4 c) c (((u.core c).pc + 4) % 2 ^ 64) := onlyCore_updCore u c _

@[simp] theorem reg_putSat (u : State) (c : CoreId) (rd r : Reg) (v : W64 × Bool) :
    (u.putSat c rd v).reg c r = if r = rd ∧ r ≠ 0 then v.1 else u.reg c r := by
  have h : (u.putSat c rd v).reg c r = ((u.core c).setReg rd v.1).reg r := by
    simp only [State.reg, State.putSat, State.core_updCore, if_pos]; rfl
  rw [h, Core.reg_setReg]; rfl

@[simp] theorem reg_put (u : State) (c : CoreId) (rd r : Reg) (v : W64) :
    (u.put c rd v).reg c r = if r = rd ∧ r ≠ 0 then v else u.reg c r := by
  have h : (u.put c rd v).reg c r = ((u.core c).setReg rd v).reg r := by
    simp only [State.reg, State.put, State.core_updCore, if_pos]; rfl
  rw [h, Core.reg_setReg]; rfl

theorem wrote_putSat (u : State) (c : CoreId) (rd : Reg) (v : W64 × Bool) : u.wrote (u.putSat c rd v) c rd v.1 v.2 := by
  obtain ⟨g, hg⟩ := Core.setReg_eq (u.core c) rd v.1
  refine ⟨fun r => reg_putSat u c rd r v, g, ?_⟩
  have h := onlyCore_updCore u c fun x => { x.setReg rd v.1 with pc := (x.pc + 4) % 2 ^ 64, sat := x.sat || v.2 }
  rw [hg] at h
  exact h

/-- A `put` is a `putSat` that does not saturate. -/
theorem put_eq_putSat (u : State) (c : CoreId) (rd : Reg) (v : W64) : u.put c rd v = u.putSat c rd (v, false) := by
  obtain ⟨g, hg⟩ := Core.setReg_eq (u.core c) rd v
  simp [State.put, State.putSat, State.updCore, hg]

theorem wrote_put (u : State) (c : CoreId) (rd : Reg) (v : W64) : u.wrote (u.put c rd v) c rd v false := by
  rw [put_eq_putSat]
  exact wrote_putSat u c rd (v, false)

/-! ### What an instruction answers -/

/-- A command of a ready core whose body completes answers the body's state. -/
theorem answers_of_ok {i : Instr} {body : State → CRes} {u : State} {P : State → Prop} (hi : exec i s = .next (runInstr c body s))
    (hr : s.ready c = true) (hb : body (s.fetched c) = .ok u) (hP : P u) : Answers i s P := by
  rw [answers_iff_of_exec hi, runInstr_ready c body s hr, hb]
  exact hP

/-- A command of a ready core whose body raises an exception at the fetched state enters the handler. -/
theorem answers_trapped {i : Instr} {body : State → CRes} {e : Exc} (hi : exec i s = .next (runInstr c body s))
    (hr : s.ready c = true) (hh : s.hasHandler c) (hb : body (s.fetched c) = .exc (s.fetched c) e) :
    Answers i s fun t => (s.fetched c).trapped t c e := by
  rw [answers_iff_of_exec hi, runInstr_ready c body s hr, hb]
  simp only [takeExc_handler _ c e (fetched_hasHandler hh)]
  exact onlyCore_setCore _ c _

/-- A command of a ready core that writes rd and may saturate. -/
theorem answers_putSat {i : Instr} {rd : Reg} {f : State → W64 × Bool} {v : W64} {sat : Bool}
    (hi : exec i s = .next (runInstr c (fun t => .ok (t.putSat c rd (f t))) s)) (hr : s.ready c = true)
    (hf : f (s.fetched c) = (v, sat)) : Answers i s fun t => (s.fetched c).wrote t c rd v sat :=
  answers_of_ok hi hr rfl (by rw [hf]; exact wrote_putSat _ c rd (v, sat))

/-- A command of a ready core that writes rd. -/
theorem answers_put {i : Instr} {rd : Reg} {f : State → W64} {v : W64}
    (hi : exec i s = .next (runInstr c (fun t => .ok (t.put c rd (f t))) s)) (hr : s.ready c = true)
    (hf : f (s.fetched c) = v) : Answers i s fun t => (s.fetched c).wrote t c rd v false :=
  answers_of_ok hi hr rfl (by rw [hf]; exact wrote_put _ c rd v)

end Sys2Proof.Machine
end

section
/-! SUPPORT. The arithmetic of Brorok in the terms of the spec: signed and unsigned values, exact results and saturation (R45–R47). -/

namespace Sys2Proof.Machine

theorem satI_64 (x : Int) : satI 64 x = clamp64 x := by
  unfold satI clampI clamp64
  rw [min_comm x]
  rfl

theorem sat64_eq (x : Int) : sat64 x = (BitVec.ofInt 64 (clamp64 x), decide (clamp64 x ≠ x)) := by
  unfold sat64
  rw [satI_64]
  rfl

theorem aluSlt_eq (a b : W64) : aluSlt a b = if a.toInt < b.toInt then 1 else 0 := by
  simp [aluSlt, bool64, BitVec.slt]

theorem aluSltu_eq (a b : W64) : aluSltu a b = if a.toNat < b.toNat then 1 else 0 := by
  simp [aluSltu, bool64, BitVec.ult]

/-- An arithmetic shift right is the division by a power of 2, rounded down. -/
theorem sshiftRight_eq_ofInt (a : W64) (n : Nat) : a.sshiftRight n = BitVec.ofInt 64 (a.toInt / 2 ^ n) := by
  rw [← BitVec.ofInt_toInt (x := a.sshiftRight n), BitVec.toInt_sshiftRight, Int.shiftRight_eq_div_pow]
  norm_cast

theorem aluMin_eq (a b : W64) : aluMin a b = BitVec.ofInt 64 (min a.toInt b.toInt) := by
  unfold aluMin BitVec.slt
  simp only [decide_eq_true_eq]
  split_ifs with h
  · rw [min_eq_right h.le, BitVec.ofInt_toInt]
  · rw [min_eq_left (not_lt.1 h), BitVec.ofInt_toInt]

theorem aluMax_eq (a b : W64) : aluMax a b = BitVec.ofInt 64 (max a.toInt b.toInt) := by
  unfold aluMax BitVec.slt
  simp only [decide_eq_true_eq]
  split_ifs with h
  · rw [max_eq_right h.le, BitVec.ofInt_toInt]
  · rw [max_eq_left (not_lt.1 h), BitVec.ofInt_toInt]

theorem aluMinu_eq (a b : W64) : aluMinu a b = BitVec.ofNat 64 (min a.toNat b.toNat) := by
  unfold aluMinu BitVec.ult
  simp only [decide_eq_true_eq]
  split_ifs with h
  · rw [min_eq_right h.le, BitVec.ofNat_toNat, BitVec.setWidth_eq]
  · rw [min_eq_left (not_lt.1 h), BitVec.ofNat_toNat, BitVec.setWidth_eq]

theorem aluMaxu_eq (a b : W64) : aluMaxu a b = BitVec.ofNat 64 (max a.toNat b.toNat) := by
  unfold aluMaxu BitVec.ult
  simp only [decide_eq_true_eq]
  split_ifs with h
  · rw [max_eq_right h.le, BitVec.ofNat_toNat, BitVec.setWidth_eq]
  · rw [max_eq_left (not_lt.1 h), BitVec.ofNat_toNat, BitVec.setWidth_eq]

/-- Above the highest 1 bit of a number lie only zeros. -/
theorem leadZeros_eq (v : Nat) (hv : v ≠ 0) : ∀ n, v < 2 ^ n → leadZeros v n = n - 1 - v.log2
  | 0, h => by omega
  | n + 1, h => by
    unfold leadZeros bitN
    have hq : v / 2 ^ n < 2 := Nat.div_lt_of_lt_mul (by rw [pow_succ] at h; exact h)
    by_cases hn : v < 2 ^ n
    · have ih := leadZeros_eq v hv n hn
      have hl : v.log2 < n := (Nat.log2_lt hv).2 hn
      rw [Nat.div_eq_of_lt hn, ih]
      simp only [Nat.zero_mod]
      norm_num
      omega
    · have hl : v.log2 = n := by
        have := (Nat.log2_lt hv).2 h
        have := (Nat.le_log2 hv).2 (not_lt.1 hn)
        omega
      have h1 : v / 2 ^ n = 1 := by
        have := Nat.div_pos (not_lt.1 hn) (Nat.two_pow_pos n)
        omega
      rw [h1, hl]
      simp

theorem leadZeros_zero (n : Nat) : leadZeros 0 n = n := by
  induction n with
  | zero => rfl
  | succ n ih => simp [leadZeros, bitN, ih, Nat.add_comm]

theorem aluClz_eq (a : W64) : aluClz a = BitVec.ofNat 64 (if a = 0 then 64 else 63 - a.toNat.log2) := by
  unfold aluClz
  split_ifs with h
  · rw [h]
    exact congrArg _ (leadZeros_zero 64)
  · rw [leadZeros_eq a.toNat (by simpa [BitVec.toNat_eq] using h) 64 a.isLt]

/-- The 1 bits among the low `n` are those of the positions below `n`. -/
theorem onesIn_eq (a : W64) (n : Nat) : onesIn a.toNat n = ((List.range n).filter a.getLsbD).length := by
  induction n with
  | zero => rfl
  | succ n ih =>
    have h : bitN a.toNat n = a.getLsbD n := by
      simp [bitN, BitVec.getLsbD, Nat.testBit_eq_decide_div_mod_eq]
      rfl
    rw [onesIn, ih, List.range_succ, List.filter_append, List.length_append, h, Nat.add_comm]
    cases hb : a.getLsbD n <;> simp [b01, hb]

theorem aluPopc_eq (a : W64) : aluPopc a = BitVec.ofNat 64 ((List.range 64).filter a.getLsbD).length := by
  rw [aluPopc, onesIn_eq]

/-- Settles O2: each instruction is one `put` or `putSat` on the fetched state, of the value that its law above gives. -/
theorem integerResults : Obligations.IntegerResults := by
  intro s c rd ra rb sh hr
  refine ⟨answers_put rfl hr ?_, answers_put rfl hr ?_, answers_put rfl hr ?_, answers_put rfl hr ?_, answers_put rfl hr ?_,
    answers_put rfl hr ?_, answers_put rfl hr ?_, answers_put rfl hr ?_, answers_put rfl hr ?_, answers_put rfl hr ?_,
    answers_put rfl hr ?_, answers_put rfl hr ?_, answers_put rfl hr ?_, answers_put rfl hr ?_, answers_putSat rfl hr ?_,
    answers_putSat rfl hr ?_, answers_put rfl hr ?_, answers_put rfl hr ?_, answers_put rfl hr ?_, answers_put rfl hr ?_,
    answers_put rfl hr ?_, answers_put rfl hr ?_⟩ <;>
  simp only [fetched_reg, aluSlt_eq, aluSltu_eq, aluSll, aluSrl, aluSra, sshiftRight_eq_ofInt, aluAdds, aluSubs, sat64_eq, aluMin_eq,
    aluMax_eq, aluMinu_eq, aluMaxu_eq, aluClz_eq, aluPopc_eq]

end Sys2Proof.Machine
end

section
/-! SUPPORT. Immediate instructions, multiplication and division: the results of R46 and R47 in signed and unsigned values. -/

namespace Sys2Proof.Machine

/-! ### Immediate instructions -/

theorem toInt_ofInt_toInt (imm : BitVec 16) : (BitVec.ofInt 64 imm.toInt).toInt = imm.toInt :=
  BitVec.toInt_signExtend_of_le (by decide)

theorem toInt_append_zero (imm : BitVec 16) : (imm ++ 0#16).toInt = imm.toInt * 2 ^ 16 := by
  rw [BitVec.toInt_append]
  simp [Int.mul_comm]

theorem setWidth_shiftLeft (imm : BitVec 16) (k : Nat) : imm.setWidth 64 <<< k = BitVec.ofNat 64 (imm.toNat * 2 ^ k) := by
  apply BitVec.eq_of_toNat_eq
  simp [Nat.shiftLeft_eq]

/-- Settles O3: each is one `put` on the fetched state, and none can raise. -/
theorem immediateResults : Obligations.ImmediateResults := by
  intro s c rd ra imm hr
  refine ⟨answers_put rfl hr ?_, answers_put rfl hr ?_, answers_put rfl hr ?_, answers_put rfl hr ?_, answers_put rfl hr ?_,
    answers_put rfl hr ?_, answers_put rfl hr ?_, answers_put rfl hr ?_, answers_put rfl hr ?_⟩ <;>
  simp only [fetched_reg, aluImm, bool64, BitVec.slt, BitVec.ult, decide_eq_true_eq, BitVec.signExtend, toInt_ofInt_toInt,
    toInt_append_zero, setWidth_shiftLeft, BitVec.ofNat_toNat]

/-! ### Multiplication and division -/

theorem clamp64_eq_self_iff (x : Int) : clamp64 x = x ↔ -(2 ^ 63) ≤ x ∧ x ≤ 2 ^ 63 - 1 := by
  unfold clamp64
  omega

/-- The quotient of two register values leaves the signed range in one case alone. -/
theorem clamp64_tdiv_ne_iff (a b : W64) :
    clamp64 (Int.tdiv a.toInt b.toInt) ≠ Int.tdiv a.toInt b.toInt ↔ a.toInt = -(2 ^ 63) ∧ b.toInt = -1 := by
  have hlo : -(2 ^ 63) ≤ a.toInt := BitVec.le_toInt a
  have hhi : a.toInt < 2 ^ 63 := BitVec.toInt_lt
  rw [ne_eq, clamp64_eq_self_iff]
  constructor
  · intro h
    have hq : (Int.tdiv a.toInt b.toInt).natAbs = a.toInt.natAbs / b.toInt.natAbs := Int.natAbs_tdiv _ _
    have hle := Nat.div_le_self a.toInt.natAbs b.toInt.natAbs
    have ha : a.toInt = -(2 ^ 63) := by omega
    have hb : b.toInt.natAbs = 1 := by
      by_contra hb
      have : a.toInt.natAbs / b.toInt.natAbs < a.toInt.natAbs ∨ b.toInt.natAbs = 0 := by
        by_cases h0 : b.toInt.natAbs = 0
        · exact .inr h0
        · exact .inl (Nat.div_lt_self (by omega) (by omega))
      rcases this with hlt | h0
      · omega
      · rw [h0, Nat.div_zero] at hq
        omega
    refine ⟨ha, ?_⟩
    by_contra hn
    have h1 : b.toInt = 1 := by omega
    rw [h1, Int.tdiv_one] at h
    omega
  · rintro ⟨ha, hb⟩
    rw [ha, hb]
    decide

theorem aluDiv_of_ne (a b : W64) (hb : b ≠ 0) : aluDiv a b =
    (BitVec.ofInt 64 (clamp64 (Int.tdiv a.toInt b.toInt)), decide (a.toInt = -(2 ^ 63) ∧ b.toInt = -1)) := by
  rw [aluDiv, if_neg hb, sat64_eq, decide_eq_decide.2 (clamp64_tdiv_ne_iff a b)]

theorem aluDiv_zero (a : W64) : aluDiv a 0 = (BitVec.ofInt 64 (if 0 ≤ a.toInt then 2 ^ 63 - 1 else -(2 ^ 63)), true) := by
  rw [aluDiv, if_pos rfl, ← ite_not]
  simp only [not_lt]
  rfl

theorem aluRem_of_ne (a b : W64) (hb : b ≠ 0) : aluRem a b = (BitVec.ofInt 64 (a.toInt - b.toInt * Int.tdiv a.toInt b.toInt), false) := by
  rw [aluRem, if_neg hb, Int.tmod_def]
  rfl

theorem aluDivu_of_ne (a b : W64) (hb : b ≠ 0) : aluDivu a b = (BitVec.ofNat 64 (a.toNat / b.toNat), false) := if_neg hb

theorem aluRemu_of_ne (a b : W64) (hb : b ≠ 0) : aluRemu a b = (BitVec.ofNat 64 (a.toNat - b.toNat * (a.toNat / b.toNat)), false) := by
  rw [aluRemu, if_neg hb, Nat.mod_def]

/-- Settles O4: each is one `put` or `putSat` on the fetched state; the quotients split on a zero divisor. -/
theorem multiplyDivideResults : Obligations.MultiplyDivideResults := by
  intro s c rd ra rb hr
  refine ⟨answers_put rfl hr ?_, answers_put rfl hr ?_, answers_put rfl hr ?_, answers_putSat rfl hr ?_, fun hb => ?_, fun hb => ?_⟩
  · simp only [fetched_reg]
  · simp only [fetched_reg, aluMulh, w64]
  · simp only [fetched_reg, aluMulhu]
  · simp only [fetched_reg, aluMuls, sat64_eq]
  · refine ⟨answers_putSat rfl hr ?_, answers_putSat rfl hr ?_, answers_putSat rfl hr ?_, answers_putSat rfl hr ?_⟩ <;>
    simp only [fetched_reg, aluDiv_of_ne _ _ hb, aluDivu_of_ne _ _ hb, aluRem_of_ne _ _ hb, aluRemu_of_ne _ _ hb]
  · refine ⟨answers_putSat rfl hr ?_, answers_putSat rfl hr ?_, answers_putSat rfl hr ?_, answers_putSat rfl hr ?_⟩ <;>
    simp only [fetched_reg, hb, aluDiv_zero, aluDivu, aluRem, aluRemu, if_true]

end Sys2Proof.Machine
end

section
/-! SUPPORT. Branches and jumps: targets, links and the check that a target lies on a word (chapter 02). -/

namespace Sys2Proof.Machine

variable {s : State} {c : CoreId}

theorem State.onlyCore.trans {u v t : State} {x y : Core} (h : u.onlyCore v c x) (k : v.onlyCore t c y) : u.onlyCore t c y := by
  obtain ⟨-, hcores, hbytes, hrest⟩ := h
  obtain ⟨kcore, kcores, kbytes, krest⟩ := k
  refine ⟨kcore, fun d hd => (kcores d hd).trans (hcores d hd), fun a => (kbytes a).trans (hbytes a), ?_⟩
  rw [← krest] at hrest
  exact hrest

/-! ### The checks of R48 -/

theorem accCheck_beyond {a n : Nat} {word : Bool} (h : 2 ^ 40 ≤ a) : s.accCheck a n word = some (excAddr a) := if_pos h

theorem accCheck_reg {a n r : Nat} (h : a < 2 ^ 40) (hw : whereIs a = .reg r) : s.accCheck a n false = some (excBus a) := by
  rw [State.accCheck, if_neg (not_le.2 h), hw]
  rfl

/-- Outside register space the alignment is checked before the map and the die. -/
theorem accCheck_of_not_reg {a n : Nat} {word : Bool} (h : a < 2 ^ 40) (hw : ∀ r, whereIs a ≠ .reg r) :
    s.accCheck a n word = if a % n ≠ 0 then some (excAlign a) else if s.addrOk a then none else some (excBus a) := by
  rw [State.accCheck, if_neg (not_le.2 h)]
  split
  · next r hr => exact absurd hr (hw r)
  · rfl

/-- An access other than a word's passes its checks on an aligned address alone. -/
theorem aligned_of_accCheck {a n : Nat} (h : s.accCheck a n false = none) : a % n = 0 := by
  by_cases ha : a < 2 ^ 40
  · by_cases hw : ∃ r, whereIs a = .reg r
    · obtain ⟨r, hr⟩ := hw
      simp [accCheck_reg ha hr] at h
    · rw [accCheck_of_not_reg ha (not_exists.1 hw)] at h
      by_contra hn
      simp [hn] at h
  · simp [accCheck_beyond (not_lt.1 ha)] at h

/-! ### Branches and jumps -/

/-- The pc of a core that executes an instruction lies on a word: its fetch raised nothing (R56). -/
theorem pc_aligned_of_ready (h : s.ready c = true) : (s.core c).pc % 4 = 0 := by
  simp only [State.ready, Bool.and_eq_true, Option.isNone_iff_eq_none] at h
  obtain ⟨-, hf⟩ := h
  unfold State.fetch at hf
  dsimp only at hf
  split at hf
  · simp at hf
  · next hacc => exact aligned_of_accCheck hacc

theorem jump_aligned (u : State) (c : CoreId) {target : Nat} (h : target % 4 = 0) :
    u.jump c target = .ok (u.updCore c fun x => { x with pc := target }) := if_pos h

theorem jump_misaligned (u : State) (c : CoreId) {target : Nat} (h : target % 4 ≠ 0) :
    u.jump c target = .exc u { excAlign target with fetch := true } := if_neg h

theorem jumpLink_aligned (u : State) (c : CoreId) (r : Reg) {target : Nat} (h : target % 4 = 0) :
    u.jumpLink c r target = .ok ((u.link c r).updCore c fun x => { x with pc := target }) := by
  rw [State.jumpLink, if_pos h, jump_aligned _ c h]

theorem jumpLink_misaligned (u : State) (c : CoreId) (r : Reg) {target : Nat} (h : target % 4 ≠ 0) :
    u.jumpLink c r target = .exc u { excAlign target with fetch := true } := by
  rw [State.jumpLink, if_neg h, jump_misaligned u c h]

theorem wentTo_updCore_pc (u : State) (c : CoreId) (p : Nat) : u.wentTo (u.updCore c fun x => { x with pc := p }) c p :=
  onlyCore_updCore u c _

theorem linkedTo_link (u : State) (c : CoreId) (r : Reg) (p : Nat) :
    u.linkedTo ((u.link c r).updCore c fun x => { x with pc := p }) c r (BitVec.ofNat 64 ((u.core c).pc + 4)) p := by
  have hcore : (u.link c r).core c = (u.core c).setReg r (BitVec.ofNat 64 ((u.core c).pc + 4)) := by simp [State.link]
  obtain ⟨g, hg⟩ := Core.setReg_eq (u.core c) r (BitVec.ofNat 64 ((u.core c).pc + 4))
  constructor
  · intro q
    have h : ((u.link c r).updCore c fun x => { x with pc := p }).reg c q = ((u.link c r).core c).reg q := by
      simp only [State.reg, State.core_updCore, if_pos]; rfl
    rw [h, hcore, Core.reg_setReg]
    rfl
  · refine ⟨g, State.onlyCore.trans (onlyCore_updCore u c _ : u.onlyCore (u.link c r) c _) ?_⟩
    have h := onlyCore_updCore (u.link c r) c fun x => { x with pc := p }
    rw [hcore, hg] at h
    exact h

theorem relTarget_aligned {pc : Nat} (h : pc % 4 = 0) (off : Int) : relTarget pc off % 4 = 0 := by
  unfold relTarget wrapN
  omega

/-- A branch of a ready core: to the target where its condition holds, else to the next word. -/
theorem answers_branch {i : Instr} {op : Nat} {ra rb : Reg} {off : BitVec 16} {p : Prop} [Decidable p]
    (hi : exec i s = .next (runInstr c (fun t => t.branch c op ra rb off) s)) (hr : s.ready c = true)
    (hp : branchTaken op (s.reg c ra) (s.reg c rb) = true ↔ p) :
    Answers i s fun t => (s.fetched c).wentTo t c
      (if p then ((((s.core c).pc : Int) + 4 * off.toInt) % 2 ^ 64).toNat else ((s.core c).pc + 4) % 2 ^ 64) := by
  by_cases h : p
  · refine answers_of_ok hi hr ?_ (wentTo_updCore_pc _ c _)
    simp only [State.branch, fetched_reg, fetched_pc, hp, h, if_true]
    exact jump_aligned _ c (relTarget_aligned (pc_aligned_of_ready hr) _)
  · refine answers_of_ok hi hr (u := (s.fetched c).pc4 c) (by simp [State.branch, hp, h]) ?_
    rw [if_neg h, ← fetched_pc s c c]
    exact wentTo_pc4 _ c

/-- Settles O5: a taken branch and a jump go by `jump`, whose target lies on a word where the pc does, and a linking jump writes its
register first. -/
theorem controlTransfers : Obligations.ControlTransfers := by
  refine ⟨fun s c ra rb off hr => ?_, fun s c rd ra off hr => ?_⟩
  · refine ⟨answers_branch rfl hr ?_, answers_branch rfl hr ?_, answers_branch rfl hr ?_, answers_branch rfl hr ?_,
      answers_branch rfl hr ?_, answers_branch rfl hr ?_⟩ <;>
    simp [branchTaken, BitVec.slt, BitVec.ult]
  · have hrel := jump_aligned (s.fetched c) c (relTarget_aligned (pc_aligned_of_ready hr) off.toInt)
    have hrelLink := jumpLink_aligned (s.fetched c) c 1 (relTarget_aligned (pc_aligned_of_ready hr) off.toInt)
    refine ⟨answers_of_ok rfl hr (by rw [fetched_pc]; exact hrel) (wentTo_updCore_pc _ c _),
      answers_of_ok rfl hr (by rw [fetched_pc]; exact hrelLink) ?_, fun ha => ⟨?_, ?_⟩, fun ha hv hx => ⟨?_, ?_⟩⟩
    · rw [← fetched_pc s c c]
      exact linkedTo_link _ c 1 _
    · exact answers_of_ok rfl hr (by rw [fetched_reg]; exact jump_aligned _ c ha) (wentTo_updCore_pc _ c _)
    · refine answers_of_ok rfl hr (by rw [fetched_reg]; exact jumpLink_aligned _ c rd ha) ?_
      rw [← fetched_pc s c c]
      exact linkedTo_link _ c rd _
    · exact answers_trapped rfl hr ⟨hv, hx⟩ (by rw [fetched_reg]; exact jump_misaligned _ c ha)
    · exact answers_trapped rfl hr ⟨hv, hx⟩ (by rw [fetched_reg]; exact jumpLink_misaligned _ c rd ha)

end Sys2Proof.Machine
end

section
/-! SUPPORT. Accesses of a core to SRAM: what reading, storing and filling a line of one aligned range change (R48–R51). -/

namespace Sys2Proof.Machine

variable {s : State} {c : CoreId}

/-! ### Where an access falls -/

theorem lt_of_whereIs_ne {a : Nat} (h : whereIs a ≠ .none) : a < 2 ^ 40 := by
  by_contra hge
  exact h (by rw [whereIs, if_neg (by omega), if_neg (by omega), if_neg (by omega), if_neg (by omega)])

/-- An address of SRAM names neither register space nor local memory, and lies below 2^40. -/
theorem whereIs_of_sramDie {a d : Nat} (h : sramDie a = some d) :
    a < 2 ^ 40 ∧ (∀ r, whereIs a ≠ .reg r) ∧ (∀ o, whereIs a ≠ .loc o) := by
  unfold sramDie at h
  refine ⟨lt_of_whereIs_ne fun hw => ?_, fun r hw => ?_, fun o hw => ?_⟩ <;> simp [hw] at h

theorem addrOk_of_sramDie {a d : Nat} (h : sramDie a = some d) : s.addrOk a = s.answers d := by
  unfold sramDie at h
  unfold State.addrOk
  split at h <;> simp_all [State.answers]

/-- An aligned range of at most 8 bytes lies in one ECC word. -/
theorem wordsOf_aligned {a n : Nat} (hn : n ∈ [1, 2, 4, 8]) (ha : a % n = 0) : wordsOf a n = [a / 32] := by
  have h : (a + n + 31) / 32 - a / 32 = 1 := by
    simp only [List.mem_cons, List.not_mem_nil, or_false] at hn
    rcases hn with rfl | rfl | rfl | rfl <;> omega
  unfold wordsOf
  rw [h]
  simp [List.range_succ]

/-! ### The frame of an access -/

/-- `t` is `s` but for the D-cache of core `c`, the bytes and symbols of SRAM, what an access reports and the counter of free values. -/
def State.touched (s t : State) (c : CoreId) : Prop :=
  (∀ d, coreKey d ≠ coreKey c → t.core d = s.core d) ∧ { t.core c with dcache := (s.core c).dcache } = s.core c ∧
    { t with cores := s.cores, mem := s.mem, ecc := s.ecc, regs := s.regs, memDie := s.memDie, fb := s.fb, wdx := s.wdx, freeCtr := s.freeCtr } = s

theorem State.touched.trans {t u : State} (h : s.touched t c) (k : t.touched u c) : s.touched u c := by
  obtain ⟨hcores, hcore, hrest⟩ := h
  obtain ⟨kcores, kcore, krest⟩ := k
  refine ⟨fun d hd => (kcores d hd).trans (hcores d hd), ?_, ?_⟩
  · rw [← kcore] at hcore
    exact hcore
  · rw [← krest] at hrest
    exact hrest

theorem State.touched.core {t : State} (h : s.touched t c) : t.core c = { s.core c with dcache := (t.core c).dcache } :=
  congrArg (fun x => { x with dcache := (t.core c).dcache }) h.2.1

theorem State.touched.reg {t : State} (h : s.touched t c) (r : Reg) : t.reg c r = s.reg c r := by
  rw [State.reg, h.core]
  rfl

theorem State.sameBut.touched {t : State} (h : s.sameBut t) (c : CoreId) : s.touched t c := by
  refine ⟨fun d _ => h.core d, by rw [h.core c], ?_⟩
  exact congrArg (fun x => { x with cores := s.cores, mem := s.mem, ecc := s.ecc, freeCtr := s.freeCtr }) h

/-- An update of the D-cache alone. -/
theorem touched_updDcache (s : State) (c : CoreId) (f : Core → List CLine) : s.touched (s.updCore c fun x => { x with dcache := f x }) c := by
  obtain ⟨hcore, hcores, -, -⟩ := onlyCore_updCore s c fun x => { x with dcache := f x }
  exact ⟨hcores, by rw [hcore], rfl⟩

theorem touched_freeCtr (s : State) (c : CoreId) (n : Nat) : s.touched { s with freeCtr := n } c := ⟨fun _ _ => rfl, rfl, rfl⟩

/-- The result of an access goes to rd and the core moves on. -/
theorem State.touched.put {t : State} (h : s.touched t c) (rd : Reg) (v : W64) :
    (∀ r, (t.put c rd v).reg c r = if r = rd ∧ r ≠ 0 then v else s.reg c r) ∧
    (∀ d, coreKey d ≠ coreKey c → (t.put c rd v).core d = s.core d) ∧
    { (t.put c rd v).core c with g := (s.core c).g, dcache := (s.core c).dcache } = { s.core c with pc := ((s.core c).pc + 4) % 2 ^ 64 } ∧
    { t.put c rd v with cores := s.cores, mem := s.mem, ecc := s.ecc, regs := s.regs, memDie := s.memDie, fb := s.fb, wdx := s.wdx, freeCtr := s.freeCtr } = s := by
  have hreg := h.reg
  have hcore := h.core
  obtain ⟨hcores, -, hrest⟩ := h
  refine ⟨fun r => ?_, fun d hd => ?_, ?_, ?_⟩
  · rw [reg_put, hreg]
  · rw [State.put, State.core_updCore, if_neg hd, hcores d hd]
  · obtain ⟨g, hg⟩ := Core.setReg_eq (t.core c) rd v
    rw [State.put, State.core_updCore, if_pos rfl, hg, hcore]
  · exact hrest

/-! ### Loads -/

/-- `t` is `s` after a read: the frame of an access, with memory as it was. -/
def State.readFrom (s t : State) (c : CoreId) : Prop := s.touched t c ∧ t.mem = s.mem ∧ t.ecc = s.ecc

theorem State.sameBut.readFrom {t : State} (h : s.sameBut t) (c : CoreId) : s.readFrom t c := ⟨h.touched c, h.mem, h.ecc⟩

theorem State.readFrom.byte {t : State} (h : s.readFrom t c) (a : Nat) : t.byte a = s.byte a := congrArg (fun m => Table.get memDefault m a) h.2.1

theorem State.readFrom.loaded {t : State} (h : s.readFrom t c) (rd : Reg) (v : W64) : s.loaded (t.put c rd v) c rd v := by
  obtain ⟨hreg, hcores, hcore, hrest⟩ := h.1.put rd v
  refine ⟨hreg, hcore, hcores, h.byte, ?_⟩
  conv_rhs => rw [← hrest]
  simp [h.2.1, h.2.2]

/-- Allocating a D-cache line. -/
theorem readFrom_fillLine {q : State} (h : s.sameBut q) (c : CoreId) (n : CLine) :
    s.readFrom { q.updCore c fun x => { x with dcache := cachePut q.freeCtr x.dcache n } with freeCtr := q.freeCtr + 1 } c :=
  ⟨((h.touched c).trans (touched_updDcache q c _)).trans (touched_freeCtr _ c _), h.mem, h.ecc⟩

/-- Filling a D-cache line reads memory alone, and answers whether the addressed word could be read. -/
theorem lineFill_dcache (s : State) (c : CoreId) {a : Nat} (h : s.badSyms (a / 32) ≤ 4) :
    s.readFrom (s.lineFill c a false).1 c ∧ (s.lineFill c a false).2 = true := by
  unfold State.lineFill
  simp only [Bool.false_eq_true, if_false]
  generalize (if sramDie a = some c.die then 0 else 1) = src
  have hown := checkWord_ok s (a / 32) src h
  have hread := (checkWord_same s (a / 32) src).trans (checkWord_same _ (4 * (a / 64) + 1 - a / 32) src)
  rw [hown]
  split
  · exact ⟨readFrom_fillLine hread c _, rfl⟩
  · exact ⟨hread.readFrom c, rfl⟩

/-- A read of an aligned range in a word that can be read brings its bytes. -/
theorem readMem_plain {a n : Nat} (src : Nat) (hn : n ∈ [1, 2, 4, 8]) (ha : a % n = 0) (h : s.badSyms (a / 32) ≤ 4) :
    (s.readMem a n src).2 = some (s.bytes a n) := by
  have hok : (checkWords src (wordsOf a n) s).2 = true := checkWords_ok src _ s (by simpa [wordsOf_aligned hn ha] using h)
  show (if (checkWords src (wordsOf a n) s).2 then _ else _) = _
  rw [if_pos hok]

/-- A load of SRAM brings what its hint sees (R51, R53). -/
theorem load_plain {a n : Nat} {hint : BitVec 2} (hn : n ∈ [1, 2, 4, 8]) (h : s.plainSram a n) :
    ∃ t, s.load c a n hint.toNat = (t, some (s.seen c a n hint)) ∧ s.readFrom t c := by
  obtain ⟨ha, hbad, d, hd, -⟩ := h
  obtain ⟨-, -, hloc⟩ := whereIs_of_sramDie hd
  have hread (src : Nat) : ∃ t, s.readMem a n src = (t, some (s.bytes a n)) ∧ s.readFrom t c :=
    ⟨_, Prod.ext rfl (readMem_plain src hn ha hbad), (readMem_same s a n src).readFrom c⟩
  unfold State.load State.seen
  dsimp only
  split
  · next o ho => exact absurd ho (hloc o)
  · split
    · next h1 =>
      have h1 : hint = 1 := BitVec.eq_of_toNat_eq h1
      subst h1
      cases lineOf (s.core c).dcache a <;> exact hread _
    · next l hline h1 =>
      have h1 : hint ≠ 1 := fun e => h1 (by rw [e]; rfl)
      rw [hline]
      simp only [if_neg h1]
      exact ⟨s, rfl, State.sameBut.readFrom (s := s) (t := s) rfl c⟩
    · next hline h1 =>
      rw [hline]
      split
      · exact hread _
      · obtain ⟨hfill, hok⟩ := lineFill_dcache s c hbad
        refine ⟨_, Prod.ext rfl ?_, hfill⟩
        show (if (s.lineFill c a false).2 then _ else _) = _
        rw [if_pos hok]
        exact congrArg some (List.map_congr_left fun i _ => hfill.byte _)

/-! ### Load instructions -/

/-- The address that the model computes is that of R43. -/
theorem effAddr_fetched (s : State) (c : CoreId) (ra : Reg) (disp : BitVec 14) : (s.fetched c).effAddr c ra disp = s.address c ra disp := by
  unfold State.effAddr State.address
  rw [fetched_reg]
  rfl

theorem accCheck_plain {a n : Nat} {word : Bool} (h : s.plainSram a n) : s.accCheck a n word = none := by
  obtain ⟨ha, -, d, hd, hans⟩ := h
  obtain ⟨hlt, hreg, -⟩ := whereIs_of_sramDie hd
  rw [accCheck_of_not_reg hlt hreg, if_neg (not_not.2 ha), addrOk_of_sramDie hd, if_pos hans]

/-- A load of plain SRAM by a ready core. -/
theorem answers_load {i : Instr} {n : Nat} {signed word : Bool} {hint : BitVec 2} {rt ra : Reg} {disp : BitVec 14}
    (hi : exec i s = .next (runInstr c (fun t => t.loadOp c n signed word hint rt ra disp) s)) (hr : s.ready c = true)
    (hh : hint ≠ 3) (hn : n ∈ [1, 2, 4, 8]) (h : (s.fetched c).plainSram (s.address c ra disp) n) :
    Answers i s fun t => (s.fetched c).loaded t c rt
      (extend signed n ((s.fetched c).seen c (s.address c ra disp) n hint)) := by
  obtain ⟨t, hload, hread⟩ := load_plain (c := c) (hint := hint) hn h
  refine answers_of_ok hi hr ?_ (hread.loaded rt _)
  have ⟨_, _, d, hd, _⟩ := h
  obtain ⟨-, hreg, -⟩ := whereIs_of_sramDie hd
  simp only [State.loadOp, effAddr_fetched, if_neg hh, accCheck_plain h, hload]

/-! ### Stores -/

@[simp] theorem length_toBytes (n v : Nat) : (toBytes n v).length = n := by
  induction n generalizing v with
  | zero => rfl
  | succ n ih => simp [toBytes, ih]

/-- `t` is `s` with the bytes `l` at `a`, and but for the symbols of SRAM and what the write reports. -/
def State.wroteBytes (s t : State) (a : Nat) (l : List Byte) : Prop :=
  (∀ x, t.byte x = if a ≤ x ∧ x < a + l.length then l.getD (x - a) 0 else s.byte x) ∧
    { t with mem := s.mem, ecc := s.ecc, regs := s.regs, memDie := s.memDie, fb := s.fb, wdx := s.wdx } = s

theorem wroteBytes_poke (s : State) (a : Nat) (l : List Byte) (e : Table Nat) : s.wroteBytes { s.poke a l with ecc := e } a l :=
  ⟨byte_poke s a l, rfl⟩

theorem State.sameBut.wroteBytes {t u : State} {a : Nat} {l : List Byte} (h : s.sameBut t) (k : t.wroteBytes u a l) : s.wroteBytes u a l := by
  obtain ⟨kbytes, krest⟩ := k
  refine ⟨fun x => by rw [kbytes, h.byte], ?_⟩
  have hs := congrArg (fun y => { y with mem := s.mem, ecc := s.ecc }) h
  rw [← krest] at hs
  exact hs

theorem State.wroteBytes.sameBut {t u : State} {a : Nat} {l : List Byte} (h : s.wroteBytes t a l) (k : t.sameBut u) : s.wroteBytes u a l := by
  obtain ⟨hbytes, hrest⟩ := h
  refine ⟨fun x => by rw [k.byte, hbytes], ?_⟩
  rw [← k] at hrest
  exact hrest

theorem State.wroteBytes.touched {t : State} {a : Nat} {l : List Byte} (h : s.wroteBytes t a l) (c : CoreId) : s.touched t c := by
  obtain ⟨-, hrest⟩ := h
  have hcores : t.cores = s.cores := by
    have k := congrArg State.cores hrest
    exact k
  have hcore (d : CoreId) : t.core d = s.core d := by
    unfold State.core
    rw [hcores]
  exact ⟨fun d _ => hcore d, by rw [hcore], congrArg (fun x => { x with cores := s.cores, freeCtr := s.freeCtr }) hrest⟩

/-- A write of an aligned range into a word that can be read stores its bytes. -/
theorem writeWord_plain {a : Nat} {l : List Byte} (hn : l.length ∈ [1, 2, 4, 8]) (ha : a % l.length = 0) (h : s.badSyms (a / 32) ≤ 4) :
    ∃ t, s.writeWord (a / 32) a l = (t, true) ∧ s.wroteBytes t a l := by
  have hlen : l.length ≤ 8 ∧ a + l.length ≤ 32 * (a / 32) + 32 := by
    simp only [List.mem_cons, List.not_mem_nil, or_false] at hn
    rcases hn with hn | hn | hn | hn <;> rw [hn] at ha ⊢ <;> omega
  have hlo : max a (32 * (a / 32)) = a := by omega
  have hhi : min (a + l.length) (32 * (a / 32) + 32) = a + l.length := by omega
  have hok : ((s.noteOld (a / 32)).checkWord (a / 32) 3).2 = true :=
    checkWord_ok _ _ _ (by rw [State.badSyms, (noteOld_same s _).ecc]; exact h)
  obtain ⟨q, hq⟩ : ∃ q, (s.noteOld (a / 32)).checkWord (a / 32) 3 = (q, true) := ⟨_, Prod.ext rfl hok⟩
  have hsame : s.sameBut q := (noteOld_same s (a / 32)).trans (by simpa [hq] using checkWord_same (s.noteOld (a / 32)) (a / 32) 3)
  refine ⟨_, ?_, hsame.wroteBytes (wroteBytes_poke q a l (q.ecc.drop (a / 32)))⟩
  unfold State.writeWord
  simp only [hlo, hhi, Nat.sub_self, List.drop_zero, Nat.add_sub_cancel_left, List.take_length, hq, if_true]
  rw [if_neg (by omega)]

theorem writeWords_plain {a : Nat} {l : List Byte} (hn : l.length ∈ [1, 2, 4, 8]) (ha : a % l.length = 0) (h : s.badSyms (a / 32) ≤ 4) :
    ∃ t, writeWords a l (wordsOf a l.length) s = (t, true) ∧ s.wroteBytes t a l := by
  obtain ⟨t, hw, hwrote⟩ := writeWord_plain hn ha h
  refine ⟨t, ?_, hwrote⟩
  rw [wordsOf_aligned hn ha, writeWords, hw]
  rfl

theorem stored_pc4 {t : State} {a : Nat} {l : List Byte} (h : s.wroteBytes t a l) (f : Core → List CLine) :
    s.stored ((t.updCore c fun x => { x with dcache := f x }).pc4 c) c a l := by
  have htouched := (h.touched c).trans (touched_updDcache t c f)
  have hcore := htouched.core
  obtain ⟨hcores, -, -⟩ := htouched
  obtain ⟨hbytes, hrest⟩ := h
  refine ⟨hbytes, ?_, fun d hd => ?_, congrArg (fun x => { x with cores := s.cores }) hrest⟩
  · rw [State.pc4, State.core_updCore, if_pos rfl, hcore]
  · rw [State.pc4, State.core_updCore, if_neg hd, hcores d hd]

/-- A store by a core to plain SRAM: the bytes, and the D-cache line if one is present (R51). -/
theorem stored_store {a : Nat} {l : List Byte} (hn : l.length ∈ [1, 2, 4, 8]) (h : s.plainSram a l.length) :
    s.stored ((s.store c a l).pc4 c) c a l := by
  obtain ⟨ha, hbad, d, hd, -⟩ := h
  obtain ⟨-, -, hloc⟩ := whereIs_of_sramDie hd
  obtain ⟨t, hw, hwrote⟩ := writeWords_plain hn ha hbad
  unfold State.store State.writeMem0 State.writeMem
  split
  · next o ho => exact absurd ho (hloc o)
  · by_cases hdie : sramDie a = some c.die
    · simp only [if_pos hdie, hw, if_true]
      exact stored_pc4 (hwrote.sameBut (notePort0_same t c.die _)) _
    · simp only [if_neg hdie, hw, if_true]
      exact stored_pc4 (hwrote.sameBut (noteCollisions_same _ t)) _

/-- A store to plain SRAM by a ready core. -/
theorem answers_store {i : Instr} {n : Nat} {word : Bool} {hint : BitVec 2} {rt ra : Reg} {disp : BitVec 14}
    (hi : exec i s = .next (runInstr c (fun t => t.storeOp c n word hint rt ra disp) s)) (hr : s.ready c = true)
    (hh : hint ≠ 3) (hn : n ∈ [1, 2, 4, 8]) (h : (s.fetched c).plainSram (s.address c ra disp) n) :
    Answers i s fun t => (s.fetched c).stored t c (s.address c ra disp) (toBytes n (s.reg c rt).toNat) := by
  have hlen := length_toBytes n (s.reg c rt).toNat
  refine answers_of_ok hi hr ?_ (stored_store (c := c) (by rwa [hlen]) (by rwa [hlen]))
  have ⟨_, _, d, hd, _⟩ := h
  obtain ⟨-, hreg, -⟩ := whereIs_of_sramDie hd
  simp only [State.storeOp, effAddr_fetched, fetched_reg, if_neg hh, accCheck_plain h]

/-- Settles O6: every load is one `loadOp` and every store one `storeOp`, which differ in their size and extension alone. -/
theorem loadsAndStores : Obligations.LoadsAndStores := by
  refine ⟨fun s c hint rt ra disp hr hh => ?_, fun s c hint rt ra disp hr hh => ?_⟩
  · exact ⟨answers_load rfl hr hh (by decide), answers_load rfl hr hh (by decide), answers_load rfl hr hh (by decide),
      answers_load rfl hr hh (by decide), answers_load rfl hr hh (by decide), answers_load rfl hr hh (by decide),
      answers_load rfl hr hh (by decide)⟩
  · exact ⟨answers_store rfl hr hh (by decide), answers_store rfl hr hh (by decide), answers_store rfl hr hh (by decide),
      answers_store rfl hr hh (by decide)⟩

end Sys2Proof.Machine
end

section
/-! SUPPORT. The exceptions of loads and stores, and AADD and ACAS (R48, R49, R56). -/

namespace Sys2Proof.Machine

variable {s : State} {c : CoreId}

/-! ### Accesses that raise -/

/-- The command is an access of `n` bytes at `a` by core `c`: hint 3 is ILLEGAL, and what the checks of R48 find is raised. -/
def AccessOf (i : Instr) (s : State) (c : CoreId) (hint : BitVec 2) (a n : Nat) : Prop :=
  ∃ body word, exec i s = .next (runInstr c body s) ∧ (hint = 3 → body (s.fetched c) = .exc (s.fetched c) excIllegal) ∧
    ∀ e, hint ≠ 3 → (s.fetched c).accCheck a n word = some e → body (s.fetched c) = .exc (s.fetched c) e

theorem accessOf_load {i : Instr} {n : Nat} {signed word : Bool} {hint : BitVec 2} {rt ra : Reg} {disp : BitVec 14}
    (hi : exec i s = .next (runInstr c (fun t => t.loadOp c n signed word hint rt ra disp) s)) :
    AccessOf i s c hint (s.address c ra disp) n := by
  refine ⟨_, word, hi, fun hh => if_pos hh, fun e hh hacc => ?_⟩
  simp only [State.loadOp, effAddr_fetched, if_neg hh, hacc]

theorem accessOf_store {i : Instr} {n : Nat} {word : Bool} {hint : BitVec 2} {rt ra : Reg} {disp : BitVec 14}
    (hi : exec i s = .next (runInstr c (fun t => t.storeOp c n word hint rt ra disp) s)) :
    AccessOf i s c hint (s.address c ra disp) n := by
  refine ⟨_, word, hi, fun hh => if_pos hh, fun e hh hacc => ?_⟩
  simp only [State.storeOp, effAddr_fetched, if_neg hh, hacc]

/-- What the checks of R48 find is what a core with a handler takes. -/
theorem AccessOf.trapped {i : Instr} {hint : BitVec 2} {a n : Nat} {e : Exc} (h : AccessOf i s c hint a n) (hr : s.ready c = true)
    (hh : s.hasHandler c) (h3 : hint ≠ 3) (he : ∀ word, (s.fetched c).accCheck a n word = some e) :
    Answers i s fun t => (s.fetched c).trapped t c e := by
  obtain ⟨body, word, hi, -, hacc⟩ := h
  exact answers_trapped hi hr hh (hacc e h3 (he word))

theorem AccessOf.trapped_illegal {i : Instr} {hint : BitVec 2} {a n : Nat} (h : AccessOf i s c hint a n) (hr : s.ready c = true)
    (hh : s.hasHandler c) (h3 : hint = 3) : Answers i s fun t => (s.fetched c).trapped t c excIllegal := by
  obtain ⟨body, word, hi, hill, -⟩ := h
  exact answers_trapped hi hr hh (hill h3)

/-- An address that the map does not list, and SRAM of a die that does not answer. -/
theorem addrOk_false {a : Nat} (h : whereIs a = .none ∨ ∃ d, sramDie a = some d ∧ s.answers d = false) :
    (∀ r, whereIs a ≠ .reg r) ∧ s.addrOk a = false := by
  rcases h with hw | ⟨d, hd, hans⟩
  · exact ⟨fun r hr => by simp [hw] at hr, by simp [State.addrOk, hw]⟩
  · obtain ⟨-, hreg, -⟩ := whereIs_of_sramDie hd
    exact ⟨hreg, (addrOk_of_sramDie hd).trans hans⟩

/-- Settles O7: the eleven instructions are accesses, and the exception is the one that `accCheck` finds. -/
theorem accessExceptions : Obligations.AccessExceptions := by
  intro s c hint rt ra disp hr hh a u x hx
  have hacc : AccessOf x.1 s c hint a x.2 := by
    simp only [List.mem_cons, List.not_mem_nil, or_false] at hx
    rcases hx with rfl | rfl | rfl | rfl | rfl | rfl | rfl | rfl | rfl | rfl | rfl
    iterate 7 exact accessOf_load rfl
    iterate 4 exact accessOf_store rfl
  refine ⟨hacc.trapped_illegal hr hh, fun h3 hbig => ?_, fun h3 hlt hsram hal => ?_, fun h3 hlt hal hnone => ?_⟩
  · exact hacc.trapped hr hh h3 fun word => accCheck_beyond hbig
  · obtain ⟨d, hd⟩ := Option.isSome_iff_exists.1 hsram
    obtain ⟨-, hreg, -⟩ := whereIs_of_sramDie hd
    exact hacc.trapped hr hh h3 fun word => by rw [accCheck_of_not_reg hlt hreg, if_pos hal]
  · obtain ⟨hreg, hok⟩ := addrOk_false hnone
    refine hacc.trapped hr hh h3 fun word => ?_
    rw [accCheck_of_not_reg hlt hreg, if_neg (not_not.2 hal), hok]
    rfl

/-! ### Atomics -/

theorem atomicCheck_beyond {a n : Nat} (h : 2 ^ 40 ≤ a) : s.atomicCheck a n = some (excAddr a) := if_pos h

theorem atomicCheck_outside {a n : Nat} (h : ∃ o, whereIs a = .loc o ∨ whereIs a = .reg o) : s.atomicCheck a n = some (excAtomic a) := by
  obtain ⟨o, ho⟩ := h
  have hlt : a < 2 ^ 40 := lt_of_whereIs_ne fun hn => by simp [hn] at ho
  rw [State.atomicCheck, if_neg (not_le.2 hlt)]
  rcases ho with ho | ho <;> rw [ho]

theorem atomicCheck_sram {a d n : Nat} (hd : sramDie a = some d) :
    s.atomicCheck a n = if a % n ≠ 0 then some (excAlign a) else if s.answers d then none else some (excBus a) := by
  obtain ⟨hlt, hreg, hloc⟩ := whereIs_of_sramDie hd
  rw [State.atomicCheck, if_neg (not_le.2 hlt), ← addrOk_of_sramDie (s := s) hd]
  split
  · next r hr => exact absurd hr (hreg r)
  · next o ho => exact absurd ho (hloc o)
  · rfl

theorem atomic_small (u : State) (c : CoreId) {size : BitVec 2} (rd : Reg) (a : Nat) (f : Nat → Option Nat) (h : size.toNat < 2) :
    u.atomic c size rd a f = .exc u excIllegal := if_pos h

theorem atomic_raises (u : State) (c : CoreId) {size : BitVec 2} (rd : Reg) {a : Nat} (f : Nat → Option Nat) {e : Exc} (h : 2 ≤ size.toNat)
    (he : u.atomicCheck a (2 ^ size.toNat) = some e) : u.atomic c size rd a f = .exc u e := by
  rw [State.atomic, if_neg (not_lt.2 h)]
  simp only [he]

/-- What an atomic leaves at each address: the bytes of the new value where it writes one. -/
def atomicByte (s : State) (a n : Nat) (v : Option Nat) (x : Nat) : Byte :=
  match v with
  | some v => if a ≤ x ∧ x < a + n then (toBytes n v).getD (x - a) 0 else s.byte x
  | none => s.byte x

theorem atomicByte_congr {t : State} {x : Nat} (h : t.byte x = s.byte x) (a n : Nat) (v : Option Nat) : atomicByte t a n v x = atomicByte s a n v x := by
  cases v <;> simp [atomicByte, h]

theorem atomicByte_ite (s : State) (a n v x : Nat) (p : Prop) [Decidable p] :
    atomicByte s a n (if p then some v else none) x = if a ≤ x ∧ x < a + n ∧ p then (toBytes n v).getD (x - a) 0 else s.byte x := by
  by_cases h : p <;> simp [atomicByte, h]

/-- The write of an atomic, if it makes one. -/
theorem atomic_write {a n : Nat} (hn : n ∈ [1, 2, 4, 8]) (ha : a % n = 0) (hbad : s.badSyms (a / 32) ≤ 4) (v : Option Nat) (c : CoreId) :
    s.touched (match v with | some v => (writeWords a (toBytes n v) (wordsOf a n) s).1 | none => s) c ∧
    ∀ x, (match v with | some v => (writeWords a (toBytes n v) (wordsOf a n) s).1 | none => s).byte x = atomicByte s a n v x := by
  cases v with
  | none => exact ⟨State.sameBut.touched (s := s) (t := s) rfl c, fun x => rfl⟩
  | some v =>
    have hlen := length_toBytes n v
    obtain ⟨t, hw, hwrote⟩ := writeWords_plain (a := a) (l := toBytes n v) (by rwa [hlen]) (by rwa [hlen]) hbad
    rw [hlen] at hw
    simp only [hw]
    refine ⟨hwrote.touched c, fun x => ?_⟩
    obtain ⟨hbytes, -⟩ := hwrote
    rw [hbytes, hlen]
    rfl

/-- An atomic on an aligned word of SRAM that can be read returns the old value and writes what `f` makes of it. -/
theorem atomic_plain {a : Nat} {size : BitVec 2} (rd : Reg) (f : Nat → Option Nat) (h2 : 2 ≤ size.toNat) (h : s.plainSram a (2 ^ size.toNat)) :
    ∃ t, s.atomic c size rd a f = .ok (t.put c rd (BitVec.ofInt 64 (sxt (8 * 2 ^ size.toNat) (ofBytes (s.bytes a (2 ^ size.toNat)))))) ∧
      s.touched t c ∧ ∀ x, t.byte x = atomicByte s a (2 ^ size.toNat) (f (ofBytes (s.bytes a (2 ^ size.toNat)))) x := by
  obtain ⟨ha, hbad, d, hd, hans⟩ := h
  have hn : 2 ^ size.toNat ∈ [1, 2, 4, 8] := by
    have hsize : size.toNat = 2 ∨ size.toNat = 3 := by omega
    rcases hsize with h | h <;> rw [h] <;> decide
  let q := s.dropLine c a
  have hq : s.touched q c := touched_updDcache s c _
  obtain ⟨t, hread⟩ : ∃ t, q.readMem a (2 ^ size.toNat) (if sramDie a = some c.die then 0 else 1) = (t, some (s.bytes a (2 ^ size.toNat))) :=
    ⟨_, Prod.ext rfl (readMem_plain (s := q) _ hn ha hbad)⟩
  have hsame : q.sameBut t := by simpa [hread] using readMem_same q a (2 ^ size.toNat) (if sramDie a = some c.die then 0 else 1)
  have hbyte (x : Nat) : t.byte x = s.byte x := hsame.byte x
  obtain ⟨hwrote, hbytes⟩ := atomic_write (s := t) hn ha (by rw [State.badSyms, hsame.ecc]; exact hbad)
    (f (ofBytes (s.bytes a (2 ^ size.toNat)))) c
  refine ⟨_, ?_, (hq.trans (hsame.touched c)).trans hwrote, fun x => ?_⟩
  · rw [State.atomic, if_neg (not_lt.2 h2)]
    simp only [atomicCheck_sram hd, ha, hans, hread, q]
    rfl
  · rw [hbytes, atomicByte_congr (hbyte x)]

/-- What the checks of an atomic's target find is raised by both. -/
theorem atomics_trapped {size : BitVec 2} {ra : Reg} {e : Exc} (rd rb rc : Reg) (hr : s.ready c = true) (hh : s.hasHandler c)
    (h2 : 2 ≤ size.toNat) (he : (s.fetched c).atomicCheck (s.reg c ra).toNat (2 ^ size.toNat) = some e) :
    Answers (.aadd c size rd ra rb) s (fun t => (s.fetched c).trapped t c e) ∧
    Answers (.acas c size rd ra rb rc) s (fun t => (s.fetched c).trapped t c e) := by
  rw [← fetched_reg s c c ra] at he
  exact ⟨answers_trapped rfl hr hh (atomic_raises _ c rd _ h2 he), answers_trapped rfl hr hh (atomic_raises _ c rd _ h2 he)⟩

/-- Settles O8: both are one `atomic`, whose checks come in the order of R56 and whose write `atomicByte` says. -/
theorem atomicResults : Obligations.AtomicResults := by
  intro s c size rd ra rb rc hr n a u old kept traps
  refine ⟨fun h2 hplain => ⟨?_, ?_⟩, fun hh => ⟨fun h => ?_, fun h2 h => ?_, fun h2 h => ?_, fun h2 h hal => ?_⟩⟩
  · obtain ⟨t, hat, htouched, hbytes⟩ := atomic_plain (c := c) rd (fun old => some (old + (s.reg c rb).toNat)) h2 hplain
    obtain ⟨hreg, hkept⟩ := htouched.put rd (BitVec.ofInt 64 (sxt (8 * n) old))
    exact answers_of_ok rfl hr (by simpa only [fetched_reg] using hat) ⟨hreg, hbytes, hkept⟩
  · obtain ⟨t, hat, htouched, hbytes⟩ := atomic_plain (c := c) rd
      (fun old => if old = (s.reg c rc).toNat % 2 ^ (8 * 2 ^ size.toNat) then some (s.reg c rb).toNat else none) h2 hplain
    obtain ⟨hreg, hkept⟩ := htouched.put rd (BitVec.ofInt 64 (sxt (8 * n) old))
    exact answers_of_ok rfl hr (by simpa only [fetched_reg] using hat) ⟨hreg, fun x => (hbytes x).trans (atomicByte_ite ..), hkept⟩
  · exact ⟨answers_trapped rfl hr hh (atomic_small _ c rd _ _ h), answers_trapped rfl hr hh (atomic_small _ c rd _ _ h)⟩
  · exact atomics_trapped rd rb rc hr hh h2 (atomicCheck_beyond h)
  · exact atomics_trapped rd rb rc hr hh h2 (atomicCheck_outside h)
  · obtain ⟨d, hd⟩ := Option.isSome_iff_exists.1 h
    exact atomics_trapped rd rb rc hr hh h2 (by rw [atomicCheck_sram hd, if_pos hal])

end Sys2Proof.Machine
end

section
/-! SUPPORT. MFC and MTC, the cache instructions, FENCE and ERET (R42, R50, R53, R57). -/

namespace Sys2Proof.Machine

variable {s : State} {c : CoreId}

/-- An instruction that changes its core alone and moves on. -/
theorem answers_setCore_pc4 {i : Instr} {body : State → CRes} {x : Core} (hi : exec i s = .next (runInstr c body s)) (hr : s.ready c = true)
    (hb : body (s.fetched c) = .ok (((s.fetched c).setCore c x).pc4 c)) :
    Answers i s fun t => (s.fetched c).onlyCore t c { x with pc := (x.pc + 4) % 2 ^ 64 } := by
  refine answers_of_ok hi hr hb ((onlyCore_setCore _ c x).trans ?_)
  have h := onlyCore_updCore ((s.fetched c).setCore c x) c fun x => { x with pc := (x.pc + 4) % 2 ^ 64 }
  rw [State.core_setCore, if_pos rfl] at h
  exact h

/-- The table of R42 ends with CTAG at index 12. -/
theorem readCreg_isSome_iff (u : State) (c : CoreId) (i : Nat) : i ≤ 12 ↔ (u.readCreg c i).isSome = true := by
  unfold State.readCreg
  dsimp only
  split
  iterate 13 exact ⟨fun _ => rfl, fun _ => by decide⟩
  · constructor
    · intro h
      interval_cases i <;> contradiction
    · simp

/-- MTC names SAT, CEPC, CVEC and CSAVE alone. -/
theorem writeCreg_none (x : Core) (k : BitVec 6) (v : W64) (h0 : k ≠ 0) (h5 : k ≠ 5) (h7 : k ≠ 7) (h8 : k ≠ 8) :
    x.writeCreg k.toNat v = none := by
  unfold Core.writeCreg
  split
  · next h => exact absurd (BitVec.eq_of_toNat_eq h) h0
  · next h => exact absurd (BitVec.eq_of_toNat_eq h) h5
  · next h => exact absurd (BitVec.eq_of_toNat_eq h) h7
  · next h => exact absurd (BitVec.eq_of_toNat_eq h) h8
  · rfl

/-- A write of a control register that R42 lets MTC name. -/
theorem answers_mtc {k : BitVec 6} {ra : Reg} {x : Core} (hr : s.ready c = true)
    (hx : ((s.fetched c).core c).writeCreg k.toNat (s.reg c ra) = some x) :
    Answers (.mtc c k ra) s fun t => (s.fetched c).onlyCore t c { x with pc := (x.pc + 4) % 2 ^ 64 } :=
  answers_setCore_pc4 rfl hr (by simp only [fetched_reg, hx])

/-- Settles O9: each instruction is one update of its core, or an exception at the fetched state. -/
theorem systemInstructions : Obligations.SystemInstructions := by
  intro s c rd ra k hr u x next v
  refine ⟨fun w hw => ?_, readCreg_isSome_iff u c k.toNat, fun hh hk => ?_, ?_, ?_, ?_, ?_, fun hh h0 h5 h7 h8 => ?_,
    answers_setCore_pc4 (x := { x with icache := [] }) rfl hr rfl, answers_setCore_pc4 (x := { x with dcache := [] }) rfl hr rfl, fun hv => ?_, answers_of_ok rfl hr rfl (wentTo_pc4 u c),
    fun hx => ?_, fun hh => ?_⟩
  · exact answers_of_ok rfl hr (by simp only [u, hw]) (wrote_put u c rd _)
  · have hnone : u.readCreg c k.toNat = none := by
      rw [← Option.not_isSome_iff_eq_none, ← readCreg_isSome_iff]
      omega
    exact answers_trapped rfl hr hh (by simp only [u] at hnone; simp only [hnone])
  · rintro rfl
    exact answers_mtc (x := { x with sat := v.getLsbD 1 }) hr rfl
  · rintro rfl
    exact answers_mtc (x := { x with cepc := v.toNat }) hr rfl
  · rintro rfl
    exact answers_mtc (x := { x with cvec := v.toNat }) hr rfl
  · rintro rfl
    exact answers_mtc (x := { x with csave := v.toNat }) hr rfl
  · exact answers_trapped rfl hr hh (by simp only [writeCreg_none _ k _ h0 h5 h7 h8])
  · refine answers_setCore_pc4 (x := { x with dcache := x.dcache.filter fun l => l.line != v.toNat / 64 }) rfl hr ?_
    simp only [fetched_reg]
    exact if_neg (not_le.2 hv)
  · exact answers_of_ok rfl hr (by simp only [u, x] at hx; rw [if_pos hx]) (onlyCore_updCore u c _)
  · exact answers_trapped rfl hr hh (by rw [if_neg (by simp [hh.2])])

end Sys2Proof.Machine
end

section
/-! SUPPORT. An item that ends without a handler, and what the place that it frees sets off (R57, R66, R94, R96). -/

namespace Sys2Proof.Machine

/-- Core 0 of the hub runs the item of slot 0 and has no handler; a POST of core 1 is stalled at priority 0; and CTM holds a firing of
event entry 0, whose KIND is 1 and whose template names no core. -/
def stalledPost : State where
  sys := { porst := false }
  regs := [(rg 0 1 0x8000, 1)]
  wdx := { slots := [(0, { item := some { d := {}, st := .running 0 0, arr := 0 } })], held := [⟨.ctm, 0, 0⟩] }
  cores := [(0, { item := some 0 }), (1, { stall := some { rd := 3, d := {}, delay := none, seq := 0 } })]

/-- The state in which TRAP 0 of core 0 leaves `stalledPost`. -/
def stalledPostTrapped : State := runInstr ⟨0, 0⟩ (fun t => .exc t { code := 7, tcode := 0 }) stalledPost

theorem exec_trap_stalledPost : exec (.trap ⟨0, 0⟩ 0) stalledPost = .next stalledPostTrapped := rfl

/-- The Field Book holds the item's FAULT and the discarded firing. -/
theorem stalledPostTrapped_entries : stalledPostTrapped.fb.entries.map (·.code) = [0x0100, 0x0101] := by decide +kernel

theorem stalledPost_logged_entries :
    (((stalledPost.fetched ⟨0, 0⟩).log 0x0100 3 0 1 ((stalledPost.fetched ⟨0, 0⟩).core ⟨0, 0⟩).cwid 7
      ((stalledPost.fetched ⟨0, 0⟩).core ⟨0, 0⟩).pc).fb.entries).map (·.code) = [0x0100] := by decide +kernel

/-- Refutes O10 at its last clause: the Field Book of an item that TRAP ends need not hold its FAULT alone on top. The freed slot lets
the POST stalled on another core go on (R66), before which WDX takes the held firing of that priority (R94); its template is refused, so
the firing is discarded and logged (R96). In `stalledPost` TRAP 0 therefore adds the entries 0x0100 and 0x0101. -/
theorem not_exceptionEntry : ¬ Obligations.ExceptionEntry := by
  intro h
  obtain ⟨-, -, hend⟩ := h stalledPost ⟨0, 0⟩ 0 0
  obtain ⟨-, hfb⟩ := (answers_iff_of_exec exec_trap_stalledPost).1 (hend (by decide) (by decide))
  have hcodes := congrArg (fun b : FieldBook => b.entries.map (·.code)) hfb
  exact absurd (stalledPostTrapped_entries.symm.trans (hcodes.trans stalledPost_logged_entries)) (by decide)

end Sys2Proof.Machine
end

section
/-! SUPPORT. DISPATCH: what the places that a start frees leave of the core and of memory, and the state of R40 (R91, R92). -/

namespace Sys2Proof.Machine

/-! ### Settling -/

theorem takeHeld_same (s : State) (h : Held) : s.sameBut (s.takeHeld h) := by
  have hq : s.sameBut { s with wdx := { s.wdx with held := s.wdx.held.erase h } } := rfl
  unfold State.takeHeld
  dsimp only
  split
  · exact hq.trans (log_same _ _ _ _ _ _ _ _)
  · exact hq.trans (createEvt_same _ _ _ _ _ _ _)

theorem acceptAt_same (prio fuel : Nat) (s : State) : s.sameBut (acceptAt prio fuel s) := by
  induction fuel generalizing s with
  | zero => rfl
  | succ fuel ih =>
    unfold acceptAt
    split
    · rfl
    · exact (takeHeld_same ..).trans (ih _)

/-- A stall that goes first belongs to a core of the list. -/
theorem stall_of_firstStall {s : State} {c : CoreId} {x : Stall} (l : List CoreId) (h : firstStall s l = some (c, x)) :
    (s.core c).stall = some x := by
  induction l generalizing c x with
  | nil => simp [firstStall] at h
  | cons d l ih =>
    unfold firstStall at h
    split at h
    · exact ih h
    · next y hy _ =>
      cases h
      exact hy
    · next y c' z hy hz =>
      split_ifs at h <;> cases h
      · exact ih hz
      · exact hy

/-- The end of a stall changes the core that was stalled, and nothing else but what the dispatcher's work changes. -/
theorem placePost_keeps (s : State) (c : CoreId) (rd : Reg) (d : Desc) (delay : Option Nat) (n : Nat) :
    (s.placePost c rd d delay n).mem = s.mem ∧ ∀ e, coreKey e ≠ coreKey c → (s.placePost c rd d delay n).core e = s.core e := by
  have key (t : State) (f : Core → Core) (h : s.sameBut t) :
      (t.updCore c f).mem = s.mem ∧ ∀ e, coreKey e ≠ coreKey c → (t.updCore c f).core e = s.core e :=
    ⟨h.mem, fun e he => by rw [State.core_updCore, if_neg he, h.core]⟩
  cases delay with
  | none => exact key _ _ (arrive_same s n d none)
  | some k => exact key (s.putDelay c.die n d k) _ rfl

/-- A core that is not stalled goes through settling as it is, and so does memory. -/
theorem settle_keeps {c : CoreId} (fuel : Nat) (s : State) (h : (s.core c).stall = none) :
    (settle fuel s).core c = s.core c ∧ (settle fuel s).mem = s.mem := by
  induction fuel generalizing s with
  | zero => exact ⟨rfl, rfl⟩
  | succ fuel ih =>
    unfold settle
    split
    · exact ⟨rfl, rfl⟩
    · next d x hfirst =>
      have hne : coreKey c ≠ coreKey d := fun e => by
        have hd := stall_of_firstStall _ hfirst
        have hcore : s.core d = s.core c := by rw [State.core, State.core, e]
        rw [hcore, h] at hd
        cases hd
      have hsame : s.sameBut (if x.delay.isNone then s.acceptFor x.d.prio else s) := ite_same (acceptAt_same ..) rfl
      generalize (if x.delay.isNone then s.acceptFor x.d.prio else s) = t at hsame
      dsimp only
      split
      · exact ⟨hsame.core c, hsame.mem⟩
      · next n _ =>
        obtain ⟨hmem, hcore⟩ := placePost_keeps t d x.rd x.d x.delay n
        have hu : (if t.stallFits d x then t.placePost d x.rd x.d x.delay n else t).core c = s.core c ∧
            (if t.stallFits d x then t.placePost d x.rd x.d x.delay n else t).mem = s.mem := by
          split_ifs
          · exact ⟨(hcore c hne).trans (hsame.core c), hmem.trans hsame.mem⟩
          · exact ⟨hsame.core c, hsame.mem⟩
        obtain ⟨ucore, umem⟩ := hu
        obtain ⟨icore, imem⟩ := ih _ (by rw [ucore]; exact h)
        exact ⟨icore.trans ucore, imem.trans umem⟩

/-! ### The start of an item -/

/-- The state of R40, in which an item starts on a core. -/
def startedCore (s : State) (n : Nat) (i : Item) (x : Core) : Core :=
  { x with
    g := [(2, 0xF0010000#64)], pc := i.d.pc, xm := false, sat := false, dlpend := false, item := some n,
    cwid := s.wdx.handle n, carg := i.d.arg, ctime := s.ns + s.mer.sec % 2 ^ 32 * 2 ^ 32, cvec := 0, cdead := i.d.deadline,
    ctag := i.d.tag, prio := i.d.prio, stall := none, tsnap := none, dcache := [] }

theorem startItem_keeps (s : State) (c : CoreId) (n : Nat) (i : Item) :
    (s.startItem c n i).core c = startedCore s n i (s.core c) ∧ (s.startItem c n i).mem = s.mem := by
  let t : State := { s with wdx := (s.wdx.leaveQueue i).updItem n fun y => { y with st := .running c.die c.idx } }
  have hcore : (t.updCore c (startedCore s n i)).core c = startedCore s n i (s.core c) := by
    rw [State.core_updCore, if_pos rfl]
    rfl
  obtain ⟨kcore, kmem⟩ := settle_keeps (c := c) 80 (t.updCore c (startedCore s n i)) (by rw [hcore]; rfl)
  exact ⟨kcore.trans hcore, kmem⟩

theorem startedCore_reg (s : State) (n : Nat) (i : Item) (x : Core) (r : Reg) :
    (startedCore s n i x).reg r = if r = 2 then 0xF0010000#64 else 0 := by
  have h : (startedCore s n i x).reg r = if r = 0 then 0 else if 2 = r.toNat then 0xF0010000#64 else 0 := rfl
  rw [h]
  by_cases h2 : r = 2
  · subst h2
    rfl
  · have h2' : 2 ≠ r.toNat := fun e => h2 (BitVec.eq_of_toNat_eq e.symm)
    rw [if_neg h2', if_neg h2, ite_self]

/-- Settles O12: the start sets the core to `startedCore`, and settling, which the freed place may set off, spares a core that is not stalled. -/
theorem dispatchState : Obligations.DispatchState := by
  intro s c n i hlive hfree hcand
  have hexec : exec (.dispatch c) s = .next (s.startItem c n i) := by
    show Host.Outcome.next _ = _
    rw [hlive, hfree, hcand]
    rfl
  obtain ⟨hcore, hmem⟩ := startItem_keeps s c n i
  rw [answers_iff_of_exec hexec, hcore]
  refine ⟨fun r => ?_, rfl, rfl, rfl, rfl, rfl, rfl, rfl, rfl, rfl, rfl, rfl, rfl, fun a => ?_⟩
  · rw [State.reg, hcore, startedCore_reg]
  · rw [State.byte, hmem]
    rfl

end Sys2Proof.Machine
end

section
/-! SUPPORT. Words and commands: the fields of a spelled word, and that its reading is the command it spells (R43, R44, R61, R69). -/

namespace Sys2Proof

/-! ### The fields of a word -/

theorem wordG_fields (op : BitVec 6) (rd ra rb : Reg) (sh : BitVec 6) (fn : BitVec 5) :
    (wordG op rd ra rb sh fn).extractLsb' 26 6 = op ∧ (wordG op rd ra rb sh fn).extractLsb' 21 5 = rd ∧
    (wordG op rd ra rb sh fn).extractLsb' 16 5 = ra ∧ (wordG op rd ra rb sh fn).extractLsb' 11 5 = rb ∧
    (wordG op rd ra rb sh fn).extractLsb' 5 6 = sh ∧ (wordG op rd ra rb sh fn).extractLsb' 0 5 = fn := by
  unfold wordG
  simp (disch := decide) only [BitVec.extractLsb'_append_eq_of_le, BitVec.extractLsb'_append_eq_of_add_le, BitVec.extractLsb'_eq_self,
    Nat.reduceSub, and_self]

theorem wordI_fields (op : BitVec 6) (rd ra : Reg) (imm : BitVec 16) :
    (wordI op rd ra imm).extractLsb' 26 6 = op ∧ (wordI op rd ra imm).extractLsb' 21 5 = rd ∧
    (wordI op rd ra imm).extractLsb' 16 5 = ra ∧ (wordI op rd ra imm).extractLsb' 0 16 = imm := by
  unfold wordI
  simp (disch := decide) only [BitVec.extractLsb'_append_eq_of_le, BitVec.extractLsb'_append_eq_of_add_le, BitVec.extractLsb'_eq_self,
    Nat.reduceSub, and_self]

theorem wordM_fields (op : BitVec 6) (rt ra : Reg) (hint : BitVec 2) (disp : BitVec 14) :
    (wordM op rt ra hint disp).extractLsb' 26 6 = op ∧ (wordM op rt ra hint disp).extractLsb' 21 5 = rt ∧
    (wordM op rt ra hint disp).extractLsb' 16 5 = ra ∧ (wordM op rt ra hint disp).extractLsb' 14 2 = hint ∧
    (wordM op rt ra hint disp).extractLsb' 0 14 = disp := by
  unfold wordM
  simp (disch := decide) only [BitVec.extractLsb'_append_eq_of_le, BitVec.extractLsb'_append_eq_of_add_le, BitVec.extractLsb'_eq_self,
    Nat.reduceSub, and_self]

theorem wordJ_fields (op : BitVec 6) (off : BitVec 26) :
    (wordJ op off).extractLsb' 26 6 = op ∧ (wordJ op off).extractLsb' 0 26 = off := by
  unfold wordJ
  simp (disch := decide) only [BitVec.extractLsb'_append_eq_of_le, BitVec.extractLsb'_append_eq_of_add_le, BitVec.extractLsb'_eq_self,
    Nat.reduceSub, and_self]

theorem wordC_fields (op : BitVec 6) (rd ra rb rc : Reg) (flags : BitVec 2) :
    (wordC op rd ra rb rc flags).extractLsb' 26 6 = op ∧ (wordC op rd ra rb rc flags).extractLsb' 21 5 = rd ∧
    (wordC op rd ra rb rc flags).extractLsb' 16 5 = ra ∧ (wordC op rd ra rb rc flags).extractLsb' 11 5 = rb ∧
    (wordC op rd ra rb rc flags).extractLsb' 6 5 = rc ∧ (wordC op rd ra rb rc flags).extractLsb' 4 2 = flags ∧
    (wordC op rd ra rb rc flags).extractLsb' 0 4 = 0 := by
  unfold wordC
  simp (disch := decide) only [BitVec.extractLsb'_append_eq_of_le, BitVec.extractLsb'_append_eq_of_add_le, BitVec.extractLsb'_eq_self,
    Nat.reduceSub, true_and]
  rfl

theorem wordE_fields (op : BitVec 6) (rd ra rb : Reg) (eng : BitVec 3) (cmd : BitVec 8) :
    (wordE op rd ra rb eng cmd).extractLsb' 26 6 = op ∧ (wordE op rd ra rb eng cmd).extractLsb' 21 5 = rd ∧
    (wordE op rd ra rb eng cmd).extractLsb' 16 5 = ra ∧ (wordE op rd ra rb eng cmd).extractLsb' 11 5 = rb ∧
    (wordE op rd ra rb eng cmd).extractLsb' 8 3 = eng ∧ (wordE op rd ra rb eng cmd).extractLsb' 0 8 = cmd := by
  unfold wordE
  simp (disch := decide) only [BitVec.extractLsb'_append_eq_of_le, BitVec.extractLsb'_append_eq_of_add_le, BitVec.extractLsb'_eq_self,
    Nat.reduceSub, and_self]

/-- Bits 5 and 4 of the C general layout (R61). -/
theorem wordC_flags (op : BitVec 6) (rd ra rb rc : Reg) (l k : Bool) :
    (wordC op rd ra rb rc (BitVec.ofBool l ++ BitVec.ofBool k)).getLsbD 5 = l ∧
    (wordC op rd ra rb rc (BitVec.ofBool l ++ BitVec.ofBool k)).getLsbD 4 = k := by
  obtain ⟨-, -, -, -, -, hflags, -⟩ := wordC_fields op rd ra rb rc (BitVec.ofBool l ++ BitVec.ofBool k)
  have h5 := congrArg (fun x => x.getLsbD 1) hflags
  have h4 := congrArg (fun x => x.getLsbD 0) hflags
  simp only [BitVec.getLsbD_extractLsb'] at h5 h4
  exact ⟨h5.trans (by cases l <;> cases k <;> rfl), h4.trans (by cases l <;> cases k <;> rfl)⟩

/-! ### Reading a word -/

/-- The word reads as the command, or as ILLEGAL where a field of it is reserved. -/
def Reads (c : CoreId) (w : W32) (i : Instr) : Prop := decodeWord c w = if Machine.wordIllegal w then .illegal c w else i

/-! A format's word reads as a command if every word with those fields does. -/

section

variable {c : CoreId} {i : Instr}

theorem reads_wordG {op : BitVec 6} {rd ra rb : Reg} {sh : BitVec 6} {fn : BitVec 5}
    (h : ∀ w : W32, w.extractLsb' 26 6 = op → w.extractLsb' 21 5 = rd → w.extractLsb' 16 5 = ra → w.extractLsb' 11 5 = rb →
      w.extractLsb' 5 6 = sh → w.extractLsb' 0 5 = fn → Reads c w i) : Reads c (wordG op rd ra rb sh fn) i := by
  obtain ⟨h26, h21, h16, h11, h5, h0⟩ := wordG_fields op rd ra rb sh fn
  exact h _ h26 h21 h16 h11 h5 h0

theorem reads_wordI {op : BitVec 6} {rd ra : Reg} {imm : BitVec 16}
    (h : ∀ w : W32, w.extractLsb' 26 6 = op → w.extractLsb' 21 5 = rd → w.extractLsb' 16 5 = ra → w.extractLsb' 0 16 = imm →
      Reads c w i) : Reads c (wordI op rd ra imm) i := by
  obtain ⟨h26, h21, h16, h0⟩ := wordI_fields op rd ra imm
  exact h _ h26 h21 h16 h0

theorem reads_wordM {op : BitVec 6} {rt ra : Reg} {hint : BitVec 2} {disp : BitVec 14}
    (h : ∀ w : W32, w.extractLsb' 26 6 = op → w.extractLsb' 21 5 = rt → w.extractLsb' 16 5 = ra → w.extractLsb' 14 2 = hint →
      w.extractLsb' 0 14 = disp → Reads c w i) : Reads c (wordM op rt ra hint disp) i := by
  obtain ⟨h26, h21, h16, h14, h0⟩ := wordM_fields op rt ra hint disp
  exact h _ h26 h21 h16 h14 h0

theorem reads_wordJ {op : BitVec 6} {off : BitVec 26} (h : ∀ w : W32, w.extractLsb' 26 6 = op → w.extractLsb' 0 26 = off → Reads c w i) :
    Reads c (wordJ op off) i := by
  obtain ⟨h26, h0⟩ := wordJ_fields op off
  exact h _ h26 h0

theorem reads_wordC {op : BitVec 6} {rd ra rb rc : Reg} {flags : BitVec 2}
    (h : ∀ w : W32, w.extractLsb' 26 6 = op → w.extractLsb' 21 5 = rd → w.extractLsb' 16 5 = ra → w.extractLsb' 11 5 = rb →
      w.extractLsb' 6 5 = rc → w.extractLsb' 4 2 = flags → Reads c w i) : Reads c (wordC op rd ra rb rc flags) i := by
  obtain ⟨h26, h21, h16, h11, h6, h4, -⟩ := wordC_fields op rd ra rb rc flags
  exact h _ h26 h21 h16 h11 h6 h4

/-- The words of QMUL and QMAC, whose flags are bits of their own. -/
theorem reads_wordC_flags {op : BitVec 6} {rd ra rb rc : Reg} {l k : Bool}
    (h : ∀ w : W32, w.extractLsb' 26 6 = op → w.extractLsb' 21 5 = rd → w.extractLsb' 16 5 = ra → w.extractLsb' 11 5 = rb →
      w.extractLsb' 6 5 = rc → w.getLsbD 5 = l → w.getLsbD 4 = k → w.extractLsb' 0 4 = 0 → Reads c w i) :
    Reads c (wordC op rd ra rb rc (BitVec.ofBool l ++ BitVec.ofBool k)) i := by
  obtain ⟨h26, h21, h16, h11, h6, -, h0⟩ := wordC_fields op rd ra rb rc (BitVec.ofBool l ++ BitVec.ofBool k)
  obtain ⟨hl, hk⟩ := wordC_flags op rd ra rb rc l k
  exact h _ h26 h21 h16 h11 h6 hl hk h0

theorem reads_wordE {op : BitVec 6} {rd ra rb : Reg} {eng : BitVec 3} {cmd : BitVec 8}
    (h : ∀ w : W32, w.extractLsb' 26 6 = op → w.extractLsb' 21 5 = rd → w.extractLsb' 16 5 = ra → w.extractLsb' 11 5 = rb →
      w.extractLsb' 8 3 = eng → w.extractLsb' 0 8 = cmd → Reads c w i) : Reads c (wordE op rd ra rb eng cmd) i := by
  obtain ⟨h26, h21, h16, h11, h8, h0⟩ := wordE_fields op rd ra rb eng cmd
  exact h _ h26 h21 h16 h11 h8 h0

end

theorem reads_alu (c : CoreId) (rd ra rb : Reg) (sh : BitVec 6) (fn : BitVec 5) :
    Reads c (wordG 0x01 rd ra rb sh fn) (decodeAlu c fn.toNat rd ra rb sh) :=
  reads_wordG fun w h26 h21 h16 h11 h5 h0 => by rw [Reads, decodeWord, h26, h21, h16, h11, h5, h0]; rfl

theorem reads_mul (c : CoreId) (rd ra rb : Reg) (sh : BitVec 6) (fn : BitVec 5) :
    Reads c (wordG 0x02 rd ra rb sh fn) (decodeMul c fn.toNat rd ra rb) :=
  reads_wordG fun w h26 h21 h16 h11 h5 h0 => by rw [Reads, decodeWord, h26, h21, h16, h11, h0]; rfl

theorem reads_sys (c : CoreId) (rd ra rb : Reg) (sh : BitVec 6) (fn : BitVec 5) :
    Reads c (wordG 0x03 rd ra rb sh fn) (decodeSys c fn.toNat rd ra sh) :=
  reads_wordG fun w h26 h21 h16 h11 h5 h0 => by rw [Reads, decodeWord, h26, h21, h16, h5, h0]; rfl

theorem reads_engw (c : CoreId) (rd ra rb : Reg) (eng : BitVec 3) (cmd : BitVec 8) :
    Reads c (wordE 0x33 rd ra rb eng cmd) (decodeEngw c eng cmd rd ra rb) :=
  reads_wordE fun w h26 h21 h16 h11 h8 h0 => by rw [Reads, decodeWord, h26, h21, h16, h11, h8, h0]; rfl

theorem reads_engr (c : CoreId) (rd ra rb : Reg) (eng : BitVec 3) (cmd : BitVec 8) :
    Reads c (wordE 0x34 rd ra rb eng cmd) (decodeEngr c eng cmd rd rb) :=
  reads_wordE fun w h26 h21 h16 h11 h8 h0 => by rw [Reads, decodeWord, h26, h21, h11, h8, h0]; rfl

/-- ENGW of a Traverse code reads as the command of the code. -/
theorem reads_trvWord {cmd : BitVec 8} {src : TrvSrc} {f : TrvSrc → Instr} {c : CoreId} {w : W32} (h : trvWord cmd src = some (c, w))
    (hf : ∀ c hub rd ra rb, decodeTrv c hub cmd rd ra rb = f (.engw c hub rd ra rb)) : Reads c w (f src) := by
  cases src with
  | reg d n => cases h
  | engw c' hub rd ra rb =>
    cases h
    rw [← hf]
    have hreads := reads_engw c rd ra rb (if hub then 1 else 0) cmd
    cases hub <;> exact hreads

/-- ENGW of a code of another engine reads as the command of the code. -/
theorem reads_engWord {eng : BitVec 3} {cmd : BitVec 8} {src : EngSrc} {f : EngSrc → Instr} {c : CoreId} {w : W32}
    (h : engWord eng cmd src = some (c, w)) (hf : ∀ c rd ra rb, decodeEngw c eng cmd rd ra rb = f (.engw c rd ra rb)) : Reads c w (f src) := by
  cases src with
  | reg d n => cases h
  | engw c' rd ra rb =>
    cases h
    rw [← hf]
    exact reads_engw c rd ra rb eng cmd

theorem reads_readWord {c c' : CoreId} {eng : BitVec 3} {code : BitVec 8} {rd rb : Reg} {w : W32} {i : Instr}
    (h : readWord c' eng code rd rb = some (c, w)) (hi : decodeEngr c' eng code rd rb = i) : Reads c w i := by
  cases h
  rw [← hi]
  exact reads_engr c rd 0 rb eng code

theorem reads_trvRead {c c' : CoreId} {hub : Bool} {code : BitVec 8} {rd rb : Reg} {w : W32} {i : Instr}
    (h : readWord c' (if hub then 1 else 0) code rd rb = some (c, w)) (hi : decodeTrvRead c' hub code rd rb = i) : Reads c w i :=
  reads_readWord h (by rw [← hi]; cases hub <;> rfl)

/-- A read code of a stored value has bit 7 set, and its lower bits name the value (R111). -/
theorem decodeTrvRead_stored (c : CoreId) (hub : Bool) (code : BitVec 7) (rd rb : Reg) :
    decodeTrvRead c hub (1#1 ++ code) rd rb = .trvReadStored c hub rd rb code := by
  have hge : 128 ≤ (1#1 ++ code).toNat := by
    rw [BitVec.toNat_append]
    exact Nat.left_le_or
  have hbit : (1#1 ++ code).getLsbD 7 = true := by
    rw [BitVec.getLsbD_append]
    rfl
  have hlow : (1#1 ++ code).extractLsb' 0 7 = code := by
    rw [BitVec.extractLsb'_append_eq_of_add_le (by decide), BitVec.extractLsb'_eq_self]
  unfold decodeTrvRead
  split
  iterate 11 next h => omega
  rw [hbit, hlow]
  rfl

theorem decodeTrv_unassigned (c : CoreId) (hub : Bool) {cmd : BitVec 8} (rd ra rb : Reg) (h : codeIn trvAssigned cmd.toNat = false) :
    decodeTrv c hub cmd rd ra rb = .badcmd (.engw c (if hub then 1 else 0) cmd rd ra rb) := by
  unfold decodeTrv
  dsimp only
  split
  iterate 42 next hk => exact absurd h (by rw [hk]; decide)
  rfl

theorem decodeEngw_unassigned (c : CoreId) {eng : BitVec 3} {cmd : BitVec 8} (rd ra rb : Reg) (h : codeIn (engAssigned eng.toNat) cmd.toNat = false) :
    decodeEngw c eng cmd rd ra rb = .badcmd (.engw c eng cmd rd ra rb) := by
  unfold decodeEngw
  dsimp only
  split
  · next he => rw [decodeTrv_unassigned c false rd ra rb (by rw [he] at h; exact h), BitVec.eq_of_toNat_eq (y := 0) he]; rfl
  · next he => rw [decodeTrv_unassigned c true rd ra rb (by rw [he] at h; exact h), BitVec.eq_of_toNat_eq (y := 1) he]; rfl
  iterate 16 next he hk => exact absurd h (by rw [he, hk]; decide)
  rfl

theorem decodeTrvRead_unassigned (c : CoreId) (hub : Bool) {code : BitVec 8} (rd rb : Reg) (h : codeIn [(0, 0x0A), (0x80, 0xFF)] code.toNat = false) :
    decodeTrvRead c hub code rd rb = .badcmd (.engr c (if hub then 1 else 0) code rd rb) := by
  have hlt : code.toNat < 128 := by
    have := code.isLt
    simp [codeIn] at h
    omega
  have hbit : code.getLsbD 7 = false := Nat.testBit_lt_two_pow hlt
  unfold decodeTrvRead
  split
  iterate 11 next hk => exact absurd h (by rw [hk]; decide)
  rw [hbit]
  rfl

/-- The fields by which the read codes of the SLE are told apart are the code's quotients. -/
theorem decodeSleRead_unassigned (c : CoreId) {code : BitVec 8} (rd rb : Reg) (h : codeIn (engrAssigned 2) code.toNat = false) :
    decodeSleRead c code rd rb = .badcmd (.engr c 2 code rd rb) := by
  have hlt := code.isLt
  unfold decodeSleRead
  split
  iterate 16 next hk => exact absurd h (by rw [hk]; decide)
  simp [codeIn, engrAssigned] at h
  split
  iterate 7
    next h5 h3 h2 =>
      simp only [BitVec.extractLsb'_toNat, Nat.shiftRight_eq_div_pow] at h5 h3 h2
      omega
  rfl

theorem decodeEngr_unassigned (c : CoreId) {eng : BitVec 3} {code : BitVec 8} (rd rb : Reg) (h : codeIn (engrAssigned eng.toNat) code.toNat = false) :
    decodeEngr c eng code rd rb = .badcmd (.engr c eng code rd rb) := by
  unfold decodeEngr
  split
  · next he => rw [decodeTrvRead_unassigned c false rd rb (by rw [he] at h; exact h), BitVec.eq_of_toNat_eq (y := 0) he]; rfl
  · next he => rw [decodeTrvRead_unassigned c true rd rb (by rw [he] at h; exact h), BitVec.eq_of_toNat_eq (y := 1) he]; rfl
  · next he => rw [decodeSleRead_unassigned c rd rb (by rw [he] at h; exact h), BitVec.eq_of_toNat_eq (y := 2) he]
  iterate 8 next he hk => exact absurd h (by rw [he, hk]; decide)
  rfl

/-! ### Spelling and reading -/

/-- A code that BADCMD carries in a word is one that its unit does not assign, and reads as BADCMD. -/
theorem reads_badcmd {src : BadSrc} {c : CoreId} {w : W32} (hok : src.ok = true) (h : encodeWord (.badcmd src) = some (c, w)) :
    Reads c w (.badcmd src) := by
  cases src with
  | engw c' eng cmd rd ra rb =>
    simp only [BadSrc.ok, Bool.and_eq_true, Bool.not_eq_true'] at hok
    cases h
    rw [← decodeEngw_unassigned c rd ra rb hok.2]
    exact reads_engw c rd ra rb eng cmd
  | engr c' eng code rd rb =>
    simp only [BadSrc.ok, Bool.and_eq_true, Bool.not_eq_true'] at hok
    exact reads_readWord h (decodeEngr_unassigned _ rd rb hok.2)
  | trv | sle | tri | dma | sfy => cases h

/-- The word that spells a command reads as the command: format by format, each field is found where the format puts it. -/
theorem reads_encodeWord (i : Instr) {c : CoreId} {w : W32} (hwf : i.wf = true) (h : encodeWord i = some (c, w)) : Reads c w i := by
  cases i
  case add | sub | and | or | xor | nor | slt | sltu | sll | srl | sra | slli | srli | srai | adds | subs | min | max | minu | maxu | clz | popc =>
    cases h
    exact reads_alu ..
  case mul | mulh | mulhu | muls | div | divu | rem | remu =>
    cases h
    exact reads_mul ..
  case jr | jalr | mfc | mtc | trap | eret | iinv | cinv | cinva =>
    cases h
    exact reads_sys ..
  case addi | andi | ori | xori | slti | sltiu | lui | orh | ort | beq | bne | blt | bge | bltu | bgeu =>
    cases h
    exact reads_wordI fun w h26 h21 h16 h0 => by rw [Reads, decodeWord, h26, h21, h16, h0]; rfl
  case lb | lbu | lh | lhu | lw | lwu | ld | sb | sh | sw | sd =>
    cases h
    exact reads_wordM fun w h26 h21 h16 h14 h0 => by rw [Reads, decodeWord, h26, h21, h16, h14, h0]; rfl
  case j | jal =>
    cases h
    exact reads_wordJ fun w h26 h0 => by rw [Reads, decodeWord, h26, h0]; rfl
  case post | delay | done | solve | tsamp | luti | aadd | acas | fence =>
    cases h
    exact reads_wordC fun w h26 h21 h16 h11 h6 h4 => by rw [Reads, decodeWord, h26, h21, h16, h11, h6, h4]; rfl
  case qmul | qmac =>
    cases h
    exact reads_wordC_flags fun w h26 h21 h16 h11 h6 hl hk h0 => by
      rw [Reads, decodeWord, h26, h21, h16, h11, h6, hl, hk, h0, bne_self_eq_false, Bool.and_false]; rfl
  case enable | disable | stop | qstop | clearFault | mode | xtarget | vstart | a1 | v1 | amax | vmax | dmax | d1 | vstop | qdec | vjog |
      setpos | swlimLo | swlimHi | axisCfg | limCfg | debounce | chatterWin | stallCfg | motor | stallflow | encCpr | pathCommit |
      gearMaster | gearRatio | gearArmpos | gearArm | gearRamp | gearDisarm | homeCfg | homeVsearch | homeVlatch | homeOffset |
      homeBackoff | homeMaxdist | homeStart =>
    exact reads_trvWord h fun _ _ _ _ _ => rfl
  case load | free | gtab | coef | lmode | lmcfg | inbind | outbind | axcfg | hocfg | abort | slotclr | tau | start | halt =>
    exact reads_engWord h fun _ _ _ _ => rfl
  case bank src =>
    cases src with
    | cmd s => exact reads_engWord (f := fun s => .bank (.cmd s)) h fun _ _ _ _ => rfl
    | target d n b => cases h
  case trvReadStat | trvReadFlag | trvReadPosition | trvReadSpeed | trvReadAccel | trvReadXtarget | trvReadMaster | trvReadLoad |
      trvReadLatched | trvReadPlan | trvReadGrem =>
    exact reads_trvRead h rfl
  case trvReadStored => exact reads_trvRead h (decodeTrvRead_stored ..)
  case sleReadStat | sleReadFlag | sleReadRmp | sleReadPred | sleReadPlaus | triReadStat | triReadDone | triReadTau | triReadCnt |
      triReadMiss | dmaReadStat | dmaReadCnt | dmaReadLevel =>
    exact reads_readWord h rfl
  case sleReadInteg k | sleReadOutput k | sleReadInput k | sleReadAge k | sleReadCoefA k | sleReadCoefB k | sleReadInbind k | sleReadOutbind k =>
    exact reads_readWord h (by fin_cases k <;> rfl)
  case sleReadCfg ho => exact reads_readWord h (by cases ho <;> rfl)
  case sleReadLmcfg b m => exact reads_readWord h (by cases b <;> fin_cases m <;> rfl)
  case badcmd => exact reads_badcmd hwf h
  all_goals cases h

/-- A word without an instruction reads as ILLEGAL. -/
theorem decodeWord_of_illegal (c : CoreId) {w : W32} (h : Machine.wordIllegal w = true) : decodeWord c w = .illegal c w := if_pos h

end Sys2Proof
end

section
/-! SUPPORT. Commands with a code that no unit assigns: each path ends with the result of BADCMD (R62, R69, R112, R165, R196, R328, R381). -/

namespace Sys2Proof.Machine

variable {s : State} {c : CoreId}

/-! ### What an engine answers -/

theorem trvCommand_unassigned (s : State) (d n : Nat) {code : Nat} (v : W64) (h : trvCodes.contains code = false) :
    s.trvCommand d n code v = (s, 5) := by
  rw [State.trvCommand, h]
  rfl

theorem sleCommand_unassigned (s : State) (d n : Nat) {code : Nat} (v : W64) (h : ¬ (1 ≤ code ∧ code ≤ 0x0B)) :
    s.sleCommand d n code v = (s, 5) := by
  rw [State.sleCommand, if_pos (by simp; omega)]

theorem triCommand_unassigned (s : State) (d : Nat) {code : Nat} (v : W64) (h : ¬ (1 ≤ code ∧ code ≤ 3)) :
    s.triCommand d code v = (s, 5) := by
  unfold State.triCommand
  dsimp only
  rw [if_pos (show code = 0 ∨ 3 < code by omega)]
  rfl

theorem dmaCommand_unassigned (s : State) (d ch : Nat) {code : Nat} (v : Nat) (h : ¬ (1 ≤ code ∧ code ≤ 2)) :
    s.dmaCommand d ch code v = (s, 5) := by
  have haccept : s.dmaAccept d code v = 5 := if_pos (by omega)
  unfold State.dmaCommand
  rw [haccept]
  rfl

/-! ### By a register -/

@[simp] theorem trvAx_updTrvAx (s : State) (d n : Nat) (f : TrvAx → TrvAx) : (s.updTrvAx d n f).trvAx d n = f (s.trvAx d n) := by
  simp [State.updTrvAx, State.setTrvAx, State.trvAx]

@[simp] theorem sleOf_updSle (s : State) (d : Nat) (f : Sle → Sle) : (s.updSle d f).sleOf d = f (s.sleOf d) := by
  simp [State.updSle, State.setSle, State.sleOf]

@[simp] theorem sleAx_updSleAx (s : State) (d n : Nat) (f : SleAx → SleAx) : (s.updSleAx d n f).sleAx d n = f (s.sleAx d n) := by
  simp [State.updSleAx, State.setSleAx, State.sleAx, Sle.axis]

@[simp] theorem triOf_updTri (s : State) (d : Nat) (f : Tri → Tri) : (s.updTri d f).triOf d = f (s.triOf d) := by
  simp [State.updTri, State.triOf]

@[simp] theorem ch_updCh (s : State) (d n : Nat) (f : DmaCh → DmaCh) : (s.updCh d n f).ch d n = f (s.ch d n) := by
  simp [State.updCh, State.setCh, State.ch]

theorem exec_badcmd_trv {d n : Nat} {k : BitVec 8} (hd : d ≤ 6) (hn : n < trvAxes d) (hlive : s.blockLive d = true)
    (h : trvCodes.contains k.toNat = false) :
    exec (.badcmd (.trv d n k)) s = .next (s.updTrvAx d n fun a => { a with cmdSt := 5 }) := by
  have hskip : ¬ (6 < d ∨ trvAxes d ≤ n ∨ (!s.blockLive d) = true) := by simp [hlive]; omega
  show Host.Outcome.next (if trvCodes.contains k.toNat then s else s.trvByReg d n k.toNat) = _
  rw [h, if_neg (by decide), State.trvByReg, if_neg hskip]
  simp only [trvCommand_unassigned s d n _ h]

theorem exec_badcmd_sle {d n : Nat} {k : BitVec 8} (hd : 1 ≤ d) (hn : n < 24) (hlive : s.blockLive d = true)
    (h : ¬ (1 ≤ k.toNat ∧ k.toNat ≤ 0x0B)) :
    exec (.badcmd (.sle d n k)) s = .next (s.updSleAx d n fun a => { a with cmdSt := 5 }) := by
  have hskip : ¬ (d = 0 ∨ 24 ≤ n ∨ (!s.blockLive d) = true) := by simp [hlive]; omega
  show Host.Outcome.next (if 1 ≤ k.toNat ∧ k.toNat ≤ 0x0B then s else s.sleByReg d n k.toNat) = _
  rw [if_neg h, State.sleByReg, if_neg hskip]
  simp only [sleCommand_unassigned s d n _ h]

theorem exec_badcmd_tri {d : Nat} {k : BitVec 8} (hd : 1 ≤ d ∧ d ≤ 6) (hlive : s.blockLive d = true) (h : ¬ (1 ≤ k.toNat ∧ k.toNat ≤ 3)) :
    exec (.badcmd (.tri d k)) s = .next (s.updTri d fun x => { x with cmdSt := 5 }) := by
  have hskip : ¬ ((1 ≤ k.toNat ∧ k.toNat ≤ 3) ∨ d = 0 ∨ 6 < d ∨ (!s.blockLive d) = true) := by simp [hlive]; omega
  show Host.Outcome.next (if (1 ≤ k.toNat ∧ k.toNat ≤ 3) ∨ d = 0 ∨ 6 < d ∨ !s.blockLive d then s else s.triByReg d k.toNat) = _
  rw [if_neg hskip, State.triByReg]
  simp only [triCommand_unassigned s d _ h]

theorem exec_badcmd_dma {d n : Nat} {k : BitVec 8} (hn : n < 16) (hlive : s.blockLive d = true) (h : ¬ (1 ≤ k.toNat ∧ k.toNat ≤ 2)) :
    exec (.badcmd (.dma d n k)) s = .next (s.updCh d n fun x => { x with cmdSt := 5 }) := by
  have hskip : ¬ (16 ≤ n ∨ (!s.blockLive d) = true) := by simp [hlive]; omega
  show Host.Outcome.next (if 1 ≤ k.toNat ∧ k.toNat ≤ 2 then s else s.dmaByReg d n k.toNat) = _
  rw [if_neg h, State.dmaByReg, if_neg hskip]
  simp only [dmaCommand_unassigned s d n _ h]

theorem State.sameBut.sfy {t : State} (h : s.sameBut t) : t.sfy = s.sfy := by
  have k := congrArg State.sfy (show { t with regs := s.regs, memDie := s.memDie, fb := s.fb, wdx := s.wdx } = s from h)
  exact k

theorem sfyEvent_same (s : State) (code obj res : Nat) : s.sameBut (s.sfyEvent code obj res) := ite_same (fireCoal_same ..) rfl

/-- The end of a command of Surveyor sets its result; its event spares the bytes and the cores. -/
theorem sfyEnd_result (s : State) (r : Nat) : (s.sfyEnd r).sfy = { s.sfy with result := r } ∧ s.spares (s.sfyEnd r) := by
  have h := sfyEvent_same ((s.updSfy fun y => { y with result := r }).freshWord 256).1 1 ((s.updSfy fun y => { y with result := r }).freshWord 256).2 r
  exact ⟨h.sfy, h.byte, h.core⟩

theorem exec_badcmd_sfy {k : BitVec 8} (hp : s.powered = true) (hr : s.sfyRestarting = false) (hb : s.sfy.booted = true)
    (hs : s.sfy.surv = none) (h : ¬ ((1 ≤ k.toNat ∧ k.toNat ≤ 6) ∨ k.toNat = 0x10)) : exec (.badcmd (.sfy k)) s = .next (s.sfyEnd 12) := by
  have hsfy : exec (.badcmd (.sfy k)) s = .next (s.sfyCommand k.toNat) :=
    congrArg Host.Outcome.next (if_neg h)
  have hskip : (!s.powered || s.sfyRestarting || (!false && !s.sfy.booted)) = false := by simp [hp, hr, hb]
  have hidle : s.sfyBusy = false := by simp [State.sfyBusy, hr, hs]
  rw [hsfy, State.sfyCommand, State.sfyRun, hskip, hidle]
  simp only [Bool.false_eq_true, if_false]
  split
  iterate 7 next hk => omega
  rfl

/-! ### By ENGW and ENGR -/

theorem fetched_selector (s : State) (c : CoreId) (eng sel : Nat) : (s.fetched c).selector eng sel = s.selector eng sel := by
  have hsys : (s.fetched c).sys = s.sys := by
    have k := congrArg State.sys (fetch_same s c).2
    exact k
  unfold State.selector State.dieFitted State.sheetFitted
  rw [hsys]

/-- ENGW of a command that its engine refuses: the refusal goes to rd, and nothing else changes. -/
theorem answers_engw_refused {i : Instr} {eng d n : Nat} {rd ra rb : Reg} {f : Nat → Nat → W64 → State → State × Nat}
    (hi : exec i s = .next (runInstr c (fun t => t.engw c eng rd ra rb f) s)) (hr : s.ready c = true)
    (hsel : s.selector eng (s.reg c rb).toNat = .inr (d, n)) (hf : ∀ v u, f d n v u = (u, 5)) :
    Answers i s fun t => (s.fetched c).wrote t c rd (refusal 5) false := by
  refine answers_of_ok hi hr ?_ (wrote_put _ c rd _)
  unfold State.engw
  simp only [fetched_reg, fetched_selector, hsel, hf]
  rfl

/-- A code that its engine does not assign has no value to read. -/
theorem engRead_unassigned (u : State) {eng : Nat} (d n : Nat) {k : BitVec 8} (he : eng ≤ 4) (h : codeIn (engrAssigned eng) k.toNat = false) :
    readAssigned eng k.toNat = false ∧ u.engRead eng d n k.toNat = none := by
  have hlt := k.isLt
  have htrv (h : codeIn [(0, 0x0A), (0x80, 0xFF)] k.toNat = false) :
      (decide (k.toNat ≤ 0x0A) || decide (0x80 ≤ k.toNat)) = false ∧ u.trvRead d n k.toNat = none := by
    simp [codeIn] at h
    refine ⟨by simp; omega, ?_⟩
    unfold State.trvRead
    dsimp only
    split
    iterate 11 next hk => omega
    exact if_neg (by omega)
  interval_cases eng
  · exact htrv h
  · exact htrv h
  · simp [codeIn, engrAssigned] at h
    refine ⟨by simp [readAssigned, inRanges]; omega, ?_⟩
    show u.sleRead d n k.toNat = none
    unfold State.sleRead
    dsimp only
    iterate 15 rw [if_neg (by omega)]
  · simp [codeIn, engrAssigned] at h
    refine ⟨by simp [readAssigned]; omega, ?_⟩
    show u.triRead d k.toNat = none
    unfold State.triRead
    dsimp only
    split
    iterate 5 next hk => omega
    rfl
  · simp [codeIn, engrAssigned] at h
    refine ⟨by simp [readAssigned]; omega, ?_⟩
    show u.dmaRead d n k.toNat = none
    unfold State.dmaRead
    split
    iterate 3 next hk => omega
    rfl

/-- The codes above the last assigned one, and 0. -/
theorem not_between_of_unassigned {k : BitVec 8} {m : Nat} (h : k = 0 ∨ m < k.toNat) : ¬ (1 ≤ k.toNat ∧ k.toNat ≤ m) := by
  rcases h with rfl | h
  · simp
  · omega

/-- ENGW with a code that its engine does not assign. -/
theorem answers_badcmd_engw {d n : Nat} {eng : BitVec 3} {k : BitVec 8} {rd ra rb : Reg} (hr : s.ready c = true)
    (hsel : s.selector eng.toNat (s.reg c rb).toNat = .inr (d, n))
    (h : (eng.toNat ≤ 1 ∧ trvCodes.contains k.toNat = false) ∨ (eng = 2 ∧ (k = 0 ∨ 0x0B < k.toNat)) ∨ (eng = 3 ∧ (k = 0 ∨ 3 < k.toNat)) ∨
      (eng = 4 ∧ (k = 0 ∨ 2 < k.toNat))) :
    Answers (.badcmd (.engw c eng k rd ra rb)) s fun t => (s.fetched c).wrote t c rd (refusal 5) false := by
  rcases h with ⟨he, hk⟩ | ⟨rfl, hk⟩ | ⟨rfl, hk⟩ | ⟨rfl, hk⟩
  · have hk' : ¬ trvCodes.contains k.toNat = true := by simp only [hk]; decide
    have he' : eng = 0 ∨ eng = 1 := by
      have h01 : eng.toNat = 0 ∨ eng.toNat = 1 := by omega
      exact h01.imp (fun e => BitVec.eq_of_toNat_eq e) fun e => BitVec.eq_of_toNat_eq e
    rcases he' with rfl | rfl
    · exact answers_engw_refused (congrArg Host.Outcome.next (if_neg hk')) hr hsel fun v u => trvCommand_unassigned u d n v hk
    · exact answers_engw_refused (congrArg Host.Outcome.next (if_neg hk')) hr hsel fun v u => trvCommand_unassigned u d n v hk
  · have hk' := not_between_of_unassigned hk
    exact answers_engw_refused (congrArg Host.Outcome.next (if_neg hk')) hr hsel fun v u => sleCommand_unassigned u d n v hk'
  · have hk' := not_between_of_unassigned hk
    exact answers_engw_refused (congrArg Host.Outcome.next (if_neg hk')) hr hsel fun v u => triCommand_unassigned u d v hk'
  · have hk' := not_between_of_unassigned hk
    exact answers_engw_refused (congrArg Host.Outcome.next (if_neg hk')) hr hsel fun v u => dmaCommand_unassigned u d n v.toNat hk'

/-- ENGR with a code that its engine does not assign, once its selector passed. -/
theorem answers_badcmd_engr {d n : Nat} {eng : BitVec 3} {k : BitVec 8} {rd rb : Reg} (hr : s.ready c = true) (hh : s.hasHandler c)
    (hsel : (s.fetched c).selector eng.toNat (s.reg c rb).toNat = .inr (d, n)) (he : eng.toNat ≤ 4)
    (h : codeIn (engrAssigned eng.toNat) k.toNat = false) :
    Answers (.badcmd (.engr c eng k rd rb)) s fun t => (s.fetched c).trapped t c (excEng 3 (s.reg c rb).toNat) := by
  obtain ⟨hread, hnone⟩ := engRead_unassigned (s.fetched c) d n he h
  have hskip : ¬ (5 ≤ eng.toNat ∨ readAssigned eng.toNat k.toNat = true) := by simp [hread]; omega
  refine answers_trapped (congrArg Host.Outcome.next (if_neg hskip)) hr hh ?_
  unfold State.engr
  simp only [fetched_reg, hsel, hnone]

/-- Settles O56: `reads_encodeWord` for the words; and each path to an engine ends in a command that answers 5 and leaves the state. -/
theorem unassignedCodes : Obligations.UnassignedCodes := by
  refine ⟨fun i c w hwf h => reads_encodeWord i hwf h, fun c w h => decodeWord_of_illegal c h, fun s d n k hd hlive => ?_⟩
  refine ⟨fun hn hk => ?_, fun hd1 hn hk => ?_, fun hd1 hk => ?_, fun hn hk => ?_, fun hp hr hb hs hk => ?_,
    fun c eng rd ra rb hr hsel hk => answers_badcmd_engw hr hsel hk,
    fun c eng rd rb hr hh hsel he hk => answers_badcmd_engr hr hh hsel he hk⟩
  · rw [answers_iff_of_exec (exec_badcmd_trv hd hn hlive hk)]
    exact ⟨trvAx_updTrvAx .., rfl⟩
  · rw [answers_iff_of_exec (exec_badcmd_sle hd1 hn hlive (not_between_of_unassigned hk))]
    refine ⟨by rw [sleAx_updSleAx], ?_, rfl⟩
    rw [State.updSleAx, State.setSleAx, sleOf_updSle]
  · rw [answers_iff_of_exec (exec_badcmd_tri ⟨hd1, hd⟩ hlive (not_between_of_unassigned hk))]
    exact ⟨triOf_updTri .., rfl⟩
  · rw [answers_iff_of_exec (exec_badcmd_dma hn hlive (not_between_of_unassigned hk))]
    exact ⟨ch_updCh .., rfl⟩
  · have hk' : ¬ ((1 ≤ k.toNat ∧ k.toNat ≤ 6) ∨ k.toNat = 0x10) := by
      rcases hk with rfl | hk
      · decide
      · omega
    rw [answers_iff_of_exec (exec_badcmd_sfy hp hr hb hs hk')]
    exact sfyEnd_result s 12

end Sys2Proof.Machine
end

section
/-! SUPPORT. ENGW and ENGR to an engine that takes them: the state of the engines behind the fetch, the selector that passes, and what
the accepted command and the read answer (R62, R69, R70, R72). -/

namespace Sys2Proof.Machine

variable {s : State} {c : CoreId}

/-! ### The engines of the fetched state -/

@[simp] theorem fetched_sys (s : State) (c : CoreId) : (s.fetched c).sys = s.sys := by
  have k := congrArg State.sys (fetch_same s c).2
  exact k

@[simp] theorem fetched_mer (s : State) (c : CoreId) : (s.fetched c).mer = s.mer := by
  have k := congrArg State.mer (fetch_same s c).2
  exact k

@[simp] theorem fetched_trvAx (s : State) (c : CoreId) (d n : Nat) : (s.fetched c).trvAx d n = s.trvAx d n := by
  have k := congrArg State.trv (fetch_same s c).2
  exact congrArg (fun x => Table.get (fun _ => {}) x (32 * d + n)) k

@[simp] theorem fetched_triOf (s : State) (c : CoreId) (d : Nat) : (s.fetched c).triOf d = s.triOf d := by
  have k := congrArg State.tri (fetch_same s c).2
  exact congrArg (fun x => Table.get (fun _ => {}) x d) k

@[simp] theorem fetched_ch (s : State) (c : CoreId) (d n : Nat) : (s.fetched c).ch d n = s.ch d n := by
  have k := congrArg State.dma (fetch_same s c).2
  exact congrArg (fun x => Table.get (fun _ => {}) x (16 * d + n)) k

@[simp] theorem fetched_inService (s : State) (c : CoreId) (d : Nat) : (s.fetched c).inService d = s.inService d := by
  have k := congrArg State.sfy (fetch_same s c).2
  have hsfy : (s.fetched c).sfy = s.sfy := k
  unfold State.inService State.sheetFitted State.sheet
  rw [fetched_sys, hsfy]

/-! ### The dies that a selector can name -/

/-- At most six sheets are fitted (R1). -/
theorem sheetCount_le_six (member : Nat) : sheetCount member ≤ 6 := by
  unfold sheetCount
  split_ifs <;> omega

theorem le_six_of_dieFitted {d : Nat} (h : s.dieFitted d = true) : d ≤ 6 := by
  simp only [State.dieFitted, State.sheetFitted, Bool.or_eq_true, beq_iff_eq, Bool.and_eq_true, decide_eq_true_eq] at h
  have hle := sheetCount_le_six s.sys.member
  omega

theorem dieFitted_of_inService {d : Nat} (h : s.inService d = true) : s.dieFitted d = true := by
  simp only [State.inService, State.dieFitted, Bool.or_eq_true, Bool.and_eq_true] at h ⊢
  exact h.imp id And.left

theorem answers_of_inService {d : Nat} (h : s.inService d = true) : s.answers d = true := by
  simp only [State.inService, State.answers, Bool.or_eq_true, Bool.and_eq_true] at h ⊢
  exact h.imp id fun ⟨hfit, hst⟩ => ⟨hfit, .inl hst⟩

theorem answers_of_blockLive {d : Nat} (h : s.blockLive d = true) : s.answers d = true := by
  simp only [State.blockLive, Bool.and_eq_true] at h
  exact h.2

/-- A selector that names a unit which its engine has on a fitted die passes (R69). -/
theorem selector_fitted {eng d n sel : Nat} (hsel : sel = d + n * 256) (hfit : s.dieFitted d = true)
    (hunit : (eng = 0 ∧ d ≠ 0 ∧ n < 24) ∨ (eng = 1 ∧ d = 0 ∧ n < 16) ∨ (eng = 3 ∧ d ≠ 0 ∧ n < 1) ∨ (eng = 4 ∧ n < 16)) :
    s.selector eng sel = .inr (d, n) := by
  have hd := le_six_of_dieFitted hfit
  have hn : n < 24 := by omega
  have hdie : sel % 256 = d := by omega
  have hun : fld sel 8 5 = n := by unfold fld; omega
  have hwide : ¬ 2 ^ 13 ≤ sel := by omega
  have hhub : d ≠ 0x0C := by omega
  unfold State.selector
  simp only [hdie, hun, hwide, hfit, if_false, Bool.or_true, Bool.not_true, Bool.false_eq_true]
  rcases hunit with ⟨rfl, h0, h⟩ | ⟨rfl, h0, h⟩ | ⟨rfl, h0, h⟩ | ⟨rfl, h⟩
  · simp [h0, hhub, h]
  · simp [h0, h]
  · simp [h0, hhub, h]
  · simp [hhub, h]

/-! ### What the core sees -/

@[simp] theorem pc_put (u : State) (c : CoreId) (rd : Reg) (v : W64) : ((u.put c rd v).core c).pc = ((u.core c).pc + 4) % 2 ^ 64 := by
  rw [State.put, State.core_updCore, if_pos rfl]

@[simp] theorem reg_zero (u : State) (c : CoreId) : u.reg c 0 = 0 := rfl

/-- A result of 0 in rd: g0 reads 0 in any case. -/
theorem reg_put_zero (u : State) (c : CoreId) (rd r : Reg) : (u.put c rd 0).reg c r = if r = rd then 0 else u.reg c r := by
  rw [reg_put]
  by_cases hd : r = rd
  · by_cases h0 : r = 0
    · rw [if_neg fun h => h.2 h0, if_pos hd, h0, reg_zero]
    · rw [if_pos ⟨hd, h0⟩, if_pos hd]
  · rw [if_neg fun h => hd h.1, if_neg hd]

/-- ENGW of a command that its engine accepts: 0 goes to rd. -/
theorem answers_engw_accepted {i : Instr} {eng d n : Nat} {rd ra rb : Reg} {f : Nat → Nat → W64 → State → State × Nat} {u : State}
    {P : State → Prop} (hi : exec i s = .next (runInstr c (fun t => t.engw c eng rd ra rb f) s)) (hr : s.ready c = true)
    (hsel : s.selector eng (s.reg c rb).toNat = .inr (d, n)) (hf : f d n (s.reg c ra) (s.fetched c) = (u, 0)) (hP : P (u.put c rd 0)) :
    Answers i s P := by
  refine answers_of_ok hi hr ?_ hP
  unfold State.engw
  simp only [fetched_reg, fetched_selector, hsel, hf]
  rfl

/-- ENGR of a code that its engine assigns: the value goes to rd, and nothing else changes. -/
theorem answers_engr {i : Instr} {eng d n : Nat} {rd rb : Reg} {f : Nat → Nat → State → Option W64} {v : W64}
    (hi : exec i s = .next (runInstr c (fun t => t.engr c eng rd rb f) s)) (hr : s.ready c = true)
    (hsel : s.selector eng (s.reg c rb).toNat = .inr (d, n)) (hf : f d n (s.fetched c) = some v) :
    Answers i s fun t => (s.fetched c).wrote t c rd v false := by
  refine answers_of_ok hi hr ?_ (wrote_put _ c rd v)
  unfold State.engr
  simp only [fetched_reg, fetched_selector, hsel, hf]

end Sys2Proof.Machine
end

section
/-! SUPPORT. START and HALT of a DMA channel by both paths, and the reads of its registers (R327–R329, R337). -/

namespace Sys2Proof.Machine

variable {s : State} {c : CoreId} {d n : Nat}

/-- A channel of a die in service takes START and HALT outside SHUTDOWN. -/
theorem dmaCommand_accepted {code : Nat} (hcode : code = 1 ∨ code = 2) (hserv : s.inService d = true) (hmode : s.sys.mode ≠ .shutdown) :
    s.dmaCommand d n code 0 = (s.updCh d n fun x => { x with cmds := x.cmds ++ [(code, s.mer.phase)] }, 0) := by
  have haccept : s.dmaAccept d code 0 = 0 := by
    unfold State.dmaAccept
    rw [if_neg (by omega), if_neg (by omega), if_neg (by simp [answers_of_inService hserv]), if_neg (by simp [hserv, hmode])]
  rw [State.dmaCommand, haccept]
  rfl

/-- START to a die that answers but is not in service. -/
theorem dmaCommand_start_refused (hans : s.answers d = true) (hserv : s.inService d = false) : s.dmaCommand d n 1 0 = (s, 8) := by
  have haccept : s.dmaAccept d 1 0 = 8 := by
    unfold State.dmaAccept
    rw [if_neg (by omega), if_neg (by omega), if_neg (by simp [hans]), if_pos (by simp [hserv])]
  rw [State.dmaCommand, haccept]
  rfl

/-- A command by the registers of a channel: CMDST takes the result. -/
theorem dmaCmd_reg {code r : Nat} {t : State} (hn : n < 16) (hlive : s.blockLive d = true) (h : s.dmaCommand d n code 0 = (t, r)) :
    dmaCmd (.reg d n) code s = t.updCh d n fun x => { x with cmdSt := r } := by
  have hskip : ¬ (16 ≤ n ∨ (!s.blockLive d) = true) := by simp [hlive]; omega
  show s.dmaByReg d n code = _
  rw [State.dmaByReg, if_neg hskip]
  simp only [h]

/-- An update of one channel leaves the others. -/
theorem ch_updCh_ne {e m : Nat} (f : DmaCh → DmaCh) (h : 16 * e + m ≠ 16 * d + n) : (s.updCh d n f).ch e m = s.ch e m := by
  simp [State.updCh, State.setCh, State.ch, h]

@[simp] theorem ch_put (u : State) (c : CoreId) (rd : Reg) (v : W64) (d n : Nat) : (u.put c rd v).ch d n = u.ch d n := rfl
@[simp] theorem core_updCh (u : State) (c : CoreId) (f : DmaCh → DmaCh) : (u.updCh d n f).core c = u.core c := rfl
@[simp] theorem reg_updCh (u : State) (c : CoreId) (r : Reg) (f : DmaCh → DmaCh) : (u.updCh d n f).reg c r = u.reg c r := rfl

/-- An update of a channel changes the channels alone. -/
theorem updCh_rest (u : State) (f : DmaCh → DmaCh) (x : Table DmaCh) : { u.updCh d n f with dma := x } = { u with dma := x } := rfl

/-- A write of rd changes the cores alone. -/
theorem put_rest (u : State) (c : CoreId) (rd : Reg) (v : W64) (x : Table Core) : { u.put c rd v with cores := x } = { u with cores := x } := rfl

theorem put_updCh_rest (u : State) (c : CoreId) (rd : Reg) (v : W64) (f : DmaCh → DmaCh) :
    { (u.updCh d n f).put c rd v with dma := u.dma, cores := u.cores } = u :=
  (congrArg (fun t => { t with dma := u.dma }) (put_rest (u.updCh d n f) c rd v u.cores)).trans (updCh_rest u f u.dma)

@[simp] theorem byte_put (u : State) (c : CoreId) (rd : Reg) (v : W64) (a : Nat) : (u.put c rd v).byte a = u.byte a := rfl
@[simp] theorem byte_updCh (u : State) (f : DmaCh → DmaCh) (a : Nat) : (u.updCh d n f).byte a = u.byte a := rfl

/-- Settles O40: both commands are `dmaCmd` of their code, which `dmaCommand_accepted` and `dmaCommand_start_refused` decide. -/
theorem dmaCommands : Obligations.DmaCommands := by
  intro s d n c rd ra rb hn u
  refine ⟨fun x hx => ?_, fun hlive hserv => ?_, fun hr _ hfit hsel => ?_⟩
  · obtain ⟨hcode, hexec⟩ : (x.2 = 1 ∨ x.2 = 2) ∧ ∀ src s, exec (x.1 src) s = .next (dmaCmd src x.2 s) := by
      simp only [List.mem_cons, List.not_mem_nil, or_false] at hx
      rcases hx with rfl | rfl
      · exact ⟨.inl rfl, fun _ _ => rfl⟩
      · exact ⟨.inr rfl, fun _ _ => rfl⟩
    refine ⟨fun hlive hserv hmode => ?_, fun hr _ hsel hval hserv hmode => ?_⟩
    · rw [answers_iff_of_exec (hexec _ _), dmaCmd_reg hn hlive (dmaCommand_accepted hcode hserv hmode)]
      refine ⟨by simp only [ch_updCh], fun e m h => ?_, (updCh_rest ..).trans (updCh_rest ..)⟩
      rw [ch_updCh_ne _ h, ch_updCh_ne _ h]
    · have hfit : s.dieFitted d = true := dieFitted_of_inService (by rwa [fetched_inService] at hserv)
      refine answers_engw_accepted (hexec _ _) hr (selector_fitted (eng := 4) hsel hfit (by omega))
        (by rw [hval]; exact dmaCommand_accepted hcode hserv (by rwa [fetched_sys])) ?_
      refine ⟨by rw [ch_put, ch_updCh, fetched_ch, fetched_mer], fun r => ?_, by rw [pc_put, core_updCh], fun a => by rw [byte_put, byte_updCh],
        put_updCh_rest ..⟩
      rw [reg_put_zero, reg_updCh, fetched_reg]
  · have hexec : exec (.start (.reg d n)) s = .next (dmaCmd (.reg d n) 1 s) := rfl
    rw [answers_iff_of_exec hexec, dmaCmd_reg hn hlive (dmaCommand_start_refused (answers_of_blockLive hlive) hserv)]
    exact ⟨ch_updCh .., updCh_rest ..⟩
  · have hsel' := selector_fitted (eng := 4) hsel hfit (by omega)
    refine ⟨?_, ?_, ?_⟩
    · exact answers_engr rfl hr hsel' (by rw [State.dmaRead, fetched_ch])
    · exact answers_engr rfl hr hsel' rfl
    · exact answers_engr rfl hr hsel' (by rw [State.dmaRead, fetched_ch])

end Sys2Proof.Machine
end

section
/-! SUPPORT. ABORT, SLOTCLR and TAU of TRI by both paths, their effect at the datum, and the reads of its registers (R188, R192,
R194–R196). -/

namespace Sys2Proof.Machine

variable {s : State} {c : CoreId} {d : Nat}

/-! ### Commands -/

/-- What TRI answers to a command whose value lies in its range or not: it waits for the datum, or RANGE. -/
def State.triTaken (s : State) (d code : Nat) (v : W64) (ok : Bool) : State × Nat :=
  if ok then (s.updTri d fun x => { x with cmds := x.cmds ++ [(code, v.toNat, s.mer.phase)] }, 0) else (s, 6)

theorem triCommand_abort (hserv : s.inService d = true) (v : W64) : s.triCommand d 1 v = s.triTaken d 1 v (v.toNat == 0) := by
  have hans := answers_of_inService hserv
  cases hok : v.toNat == 0 <;> simp [State.triCommand, State.triTaken, hok, hans]

theorem triCommand_tau (hserv : s.inService d = true) (v : W64) :
    s.triCommand d 3 v = s.triTaken d 3 v (decide (0x2B800000 ≤ v.toNat ∧ v.toNat ≤ 0x3F000000)) := by
  have hans := answers_of_inService hserv
  have hok : tauOk v.toNat = decide (0x2B800000 ≤ v.toNat ∧ v.toNat ≤ 0x3F000000) := (Bool.decide_and ..).symm
  rw [← hok]
  cases hok : tauOk v.toNat <;> simp [State.triCommand, State.triTaken, hok, hans, hserv]

/-- The range of SLOTCLR: a slot below 128, or all of them by bit 8 alone (R194). -/
theorem slotclr_range (v : Nat) :
    (decide (v < 512) && fld v 7 1 == 0 && (!bitN v 8 || fld v 0 7 == 0)) = (decide (v < 128) || v == 256) := by
  rw [Bool.eq_iff_iff]
  simp only [fld, bitN, Bool.and_eq_true, Bool.or_eq_true, Bool.not_eq_true', decide_eq_true_eq, beq_iff_eq, beq_eq_false_iff_ne]
  omega

theorem triCommand_slotclr (hserv : s.inService d = true) (v : W64) :
    s.triCommand d 2 v = s.triTaken d 2 v (decide (v.toNat < 128) || v.toNat == 256) := by
  have hans := answers_of_inService hserv
  rw [← slotclr_range]
  cases hok : decide (v.toNat < 512) && fld v.toNat 7 1 == 0 && (!bitN v.toNat 8 || fld v.toNat 0 7 == 0) <;>
    simp [State.triCommand, State.triTaken, hok, hans]

/-- A command by the registers of TRI: CMDST takes the result. -/
theorem triCmd_reg {code r n : Nat} {t : State} (hd : 1 ≤ d) (hlive : s.blockLive d = true)
    (h : s.triCommand d code (s.rd (triReg d 0x18) ++ s.rd (triReg d 0x14) : W64) = (t, r)) :
    triCmd (.reg d n) code s = t.updTri d fun x => { x with cmdSt := r } := by
  have hgo : (d != 0 && s.blockLive d) = true := by simp [hlive]; omega
  show (if d != 0 && s.blockLive d then s.triByReg d code else s) = _
  rw [hgo, if_pos rfl, State.triByReg]
  simp only [h]

@[simp] theorem triOf_put (u : State) (c : CoreId) (rd : Reg) (v : W64) (d : Nat) : (u.put c rd v).triOf d = u.triOf d := rfl
@[simp] theorem reg_updTri (u : State) (c : CoreId) (r : Reg) (f : Tri → Tri) : (u.updTri d f).reg c r = u.reg c r := rfl

/-- An update of a sheet's TRI changes the TRIs alone. -/
theorem updTri_rest (u : State) (d : Nat) (f : Tri → Tri) (x : Table Tri) : { u.updTri d f with tri := x } = { u with tri := x } := rfl

theorem put_updTri_rest (u : State) (c : CoreId) (rd : Reg) (v : W64) (f : Tri → Tri) :
    { (u.updTri d f).put c rd v with tri := u.tri, cores := u.cores } = u :=
  (congrArg (fun t => { t with tri := u.tri }) (put_rest (u.updTri d f) c rd v u.cores)).trans (updTri_rest u d f u.tri)

/-! ### At the datum -/

theorem triApply_abort_queue (s : State) (d k : Nat) : ((s.triApply d (1, 0, k)).triOf d).queue =
    (s.triOf d).queue.map fun b => if b.abortAt.isNone then { b with abortAt := some s.mer.cycle } else b := by
  rw [State.triApply, triOf_updTri]
  rfl

theorem triApply_slotclr_invalid (s : State) (d : Nat) {k : Nat} (hk : k < 128) :
    (((s.triApply d (2, k, 0)).triOf d).slot k).valid = false := by
  have hall : bitN k 8 = false := by simp [bitN]; omega
  have hslot : fld k 0 7 = k := by unfold fld; omega
  rw [State.triApply, triOf_updTri]
  simp [Tri.slot, hall, hslot]

theorem triApply_tau (s : State) (d k : Nat) : ((s.triApply d (3, k, 0)).triOf d).tau = k := by
  rw [State.triApply, triOf_updTri]
  rfl

/-- Settles O23: each command is `triCmd` of its code, which answers `triTaken` of its range; a read is the value that `triRead` has. -/
theorem triangulationCommandsAndReads : Obligations.TriangulationCommandsAndReads := by
  intro s d k c rd ra rb hd _ u v
  refine ⟨fun x hx => ?_, triApply_abort_queue s d k, triApply_slotclr_invalid s d, triApply_tau s d k, fun hr hfit hsel => ?_⟩
  · obtain ⟨hexec, hcmd⟩ : (∀ src s, exec (x.1 src) s = .next (triCmd src x.2.1 s)) ∧
        ∀ s w, State.inService s d = true → s.triCommand d x.2.1 w = s.triTaken d x.2.1 w (x.2.2 w.toNat) := by
      simp only [List.mem_cons, List.not_mem_nil, or_false] at hx
      rcases hx with rfl | rfl | rfl
      · exact ⟨fun _ _ => rfl, fun _ w h => triCommand_abort h w⟩
      · exact ⟨fun _ _ => rfl, fun _ w h => triCommand_slotclr h w⟩
      · exact ⟨fun _ _ => rfl, fun _ w h => triCommand_tau h w⟩
    refine ⟨fun hlive hserv hok => ?_, fun hlive hserv hok => ?_, fun hr hsel hserv hok => ?_⟩
    · have h := hcmd s v hserv
      rw [State.triTaken, if_pos hok] at h
      rw [answers_iff_of_exec (hexec _ _), triCmd_reg hd hlive h]
      exact ⟨by simp only [triOf_updTri], (updTri_rest ..).trans (updTri_rest ..)⟩
    · have h := hcmd s v hserv
      rw [State.triTaken, if_neg (by simp [hok])] at h
      rw [answers_iff_of_exec (hexec _ _), triCmd_reg hd hlive h]
      exact ⟨triOf_updTri .., updTri_rest ..⟩
    · have h := hcmd u (s.reg c ra) hserv
      rw [State.triTaken, if_pos hok] at h
      have hfit : s.dieFitted d = true := dieFitted_of_inService (by rwa [fetched_inService] at hserv)
      refine answers_engw_accepted (hexec _ _) hr (selector_fitted (eng := 3) (n := 0) (by omega) hfit (by omega)) h ?_
      refine ⟨by rw [triOf_put, triOf_updTri, fetched_triOf, fetched_mer], fun r => ?_, put_updTri_rest ..⟩
      rw [reg_put_zero, reg_updTri, fetched_reg]
  · have hdie : s.dieFitted d = true := by simp [State.dieFitted, hfit]
    have hsel' := selector_fitted (s := s) (eng := 3) (n := 0) (d := d) (sel := (s.reg c rb).toNat) (by omega) hdie (by omega)
    refine ⟨fun y hy => answers_engr rfl hr hsel' hy, fun y hy => answers_engr rfl hr hsel' hy, fun y hy => ?_,
      fun y hy => answers_engr rfl hr hsel' hy, fun y hy => answers_engr rfl hr hsel' hy, fun j hj => ?_⟩
    · exact answers_engr rfl hr hsel' (by rw [← hy, State.triRead, fetched_triOf])
    · interval_cases j <;> rfl

end Sys2Proof.Machine
end

section
/-! SUPPORT. The reads of Traverse, and the state changes that its commands bring at a datum (R106–R108, R111, R136). -/

namespace Sys2Proof.Machine

variable {s : State} {c : CoreId} {d n : Nat}

/-! ### Reads -/

/-- An ENGR read of Traverse by a ready core that names an axis of a fitted die. -/
theorem answers_trvRead {i : Instr} {code : Nat} {rd rb : Reg} {v : W64} (hi : exec i s = .next (trvEngr c (d == 0) rd rb code s))
    (hr : s.ready c = true) (hn : n < trvAxes d) (hfit : s.dieFitted d = true) (hsel : (s.reg c rb).toNat = d + n * 256)
    (hv : (s.fetched c).trvRead d n code = some v) : Answers i s fun t => (s.fetched c).wrote t c rd v false := by
  refine answers_engr hi hr (selector_fitted hsel hfit ?_) hv
  unfold trvAxes at hn
  by_cases h0 : d = 0
  · subst h0
    exact .inr (.inl ⟨rfl, rfl, hn⟩)
  · exact .inl ⟨by simp [b01, h0], h0, by simpa [h0] using hn⟩

/-- Read code 0x80 + k brings the stored value of command k (R111). -/
theorem trvRead_stored (u : State) (d n : Nat) {k : Nat} (hmem : trvCodes.contains k = true) (hlo : 0x10 ≤ k) (hhi : k ≤ 0x45) (hne : k ≠ 0x35) :
    u.trvRead d n (0x80 + k) = some ((u.trvAx d n).val k) := by
  have hk : 0x80 + k - 0x80 = k := by omega
  have hrange : 0x90 ≤ 0x80 + k ∧ 0x80 + k ≤ 0xC5 := by omega
  have hdisarm : 0x80 + k ≠ 0xB5 := by omega
  unfold State.trvRead
  dsimp only
  split
  iterate 11 next h => omega
  rw [hk, if_pos ⟨hrange.1, hrange.2, hmem⟩, if_neg hdisarm]

/-- A value that fits its 32-bit field is presented as it is (R119). -/
theorem narrow32_of_fits {x : Int} (hlo : -(2 ^ 31) ≤ x) (hhi : x < 2 ^ 31) : narrow32 x = x := if_pos ⟨hlo, hhi⟩

/-! ### Commands at the datum -/

variable {w : TrvW} {e : TrvEnv}

theorem cmd_enable_off (hdrain : e.draining = false) (hlock : e.locked = false) (hen : e.enOk = true) (hst : w.ax.st = .off) :
    w.cmd e ⟨1, 0, 0, false⟩ = w.upd TrvAx.enable := by
  simp [TrvW.cmd, hdrain, hlock, hen, hst]

theorem cmd_stop_moving (hdrain : e.draining = false) (hst : w.ax.st.moving = true) :
    w.cmd e ⟨3, 0, 0, false⟩ = w.upd fun a => { a with st := .stopping, quick := false, home := none } := by
  cases h : w.ax.st with
  | position | velocity | jog | path | gear => simp [TrvW.cmd, hdrain, h]
  | off | hold | homing | stopping | disabling | fault => simp [h, TrvSt.moving] at hst

theorem cmd_qstop_moving (hdrain : e.draining = false) (hst : w.ax.st.moving = true) :
    w.cmd e ⟨4, 0, 0, false⟩ = w.upd fun a => { a with st := .stopping, quick := true, home := none } := by
  cases h : w.ax.st with
  | position | velocity | jog | path | gear => simp [TrvW.cmd, hdrain, h]
  | off | hold | homing | stopping | disabling | fault => simp [h, TrvSt.moving] at hst

theorem cmd_disable_moving (hdrain : e.draining = false) (hst : w.ax.st.moving = true) :
    w.cmd e ⟨2, 0, 0, false⟩ = w.upd fun a => { a with st := .disabling, pendEn := false, home := none } := by
  cases h : w.ax.st with
  | position | velocity | jog | path | gear => simp [TrvW.cmd, hdrain, h]
  | off | hold | homing | stopping | disabling | fault => simp [h, TrvSt.moving] at hst

theorem cmd_clearFault_standing (hdrain : e.draining = false) (hst : w.ax.st = .fault) (hv : w.ax.v = 0) :
    w.cmd e ⟨5, 0, 0, false⟩ = w.upd fun a => { a.enterHold with fcause := 0, clrP := a.limp.level, clrN := a.limn.level } := by
  simp [TrvW.cmd, hdrain, hst, hv]

/-- Settles O17: a read is the value that `trvRead` has for its code, and each command at the datum is one update of its axis. -/
theorem traverseReadsAndStates : Obligations.TraverseReadsAndStates := by
  constructor
  · intro s c rd rb d n k hr hn hfit hsel u a gives
    have ha : u.trvAx d n = a := fetched_trvAx s c d n
    have hread (i : Instr) (code : Nat) (v : W64) (hi : exec i s = .next (trvEngr c (d == 0) rd rb code s))
        (hv : u.trvRead d n code = some v) : gives i v := answers_trvRead hi hr hn hfit hsel hv
    refine ⟨hread _ _ _ rfl rfl, hread _ _ _ rfl rfl, hread _ _ _ rfl (by rw [← ha]; rfl), hread _ _ _ rfl (by rw [← ha]; rfl),
      hread _ _ _ rfl (by rw [← ha]; rfl), fun x hlo hhi => narrow32_of_fits hlo hhi, hread _ _ _ rfl (by rw [← ha]; rfl),
      hread _ _ _ rfl (by rw [← ha]; rfl), hread _ _ _ rfl rfl, hread _ _ _ rfl (by rw [← ha]; rfl), hread _ _ _ rfl (by rw [← ha]; rfl),
      hread _ _ _ rfl (by rw [← ha]; rfl), fun hmem hlo hhi hne => hread _ _ _ rfl ?_⟩
    rw [← ha]
    exact trvRead_stored u d n hmem hlo hhi hne
  · intro w e hdrain hlock hen does
    refine ⟨fun hst => ?_, fun hst => ?_, fun hst hv => ?_⟩
    · simp only [does, cmd_enable_off hdrain hlock hen hst]
      exact ⟨rfl, rfl, rfl, rfl⟩
    · simp only [does, cmd_stop_moving hdrain hst, cmd_qstop_moving hdrain hst, cmd_disable_moving hdrain hst]
      exact ⟨rfl, rfl, rfl⟩
    · simp only [does, cmd_clearFault_standing hdrain hst hv]
      exact ⟨rfl, rfl, rfl⟩

end Sys2Proof.Machine
end

section
/-! SUPPORT. TSAMP, QMUL, QMAC, LUTI and SOLVE: the snapshot of a pair, the rounded and saturated product, the words that a table
is read by, the place of an argument in it, and the queue of a TRI (R62, R64, R73–R76). -/

namespace Sys2Proof.Machine

variable {s : State} {c : CoreId}

/-! ### TSAMP -/

/-- TSAMP without a snapshot that waits for it takes a new one, for the other of the pair (R74). -/
theorem pairSnap_first {u : State} (h : (u.core c).tsnap = none) (sel : Nat) :
    u.pairSnap c sel = ((u.mer.cycle, u.phaseNs), some (3 - sel, u.mer.cycle, u.phaseNs)) := by
  unfold State.pairSnap
  rw [h]

/-- The second of a pair uses up the snapshot of the first (R74). -/
theorem pairSnap_second {u : State} {sel cy ns : Nat} (h : (u.core c).tsnap = some (sel, cy, ns)) : u.pairSnap c sel = ((cy, ns), none) := by
  unfold State.pairSnap
  rw [h]
  exact if_pos rfl

theorem answers_tsamp_cycle {rd : Reg} {v : Nat × Nat} {w : Option (Nat × Nat × Nat)} (hr : s.ready c = true)
    (h : (s.fetched c).pairSnap c 1 = (v, w)) :
    Answers (.tsamp c rd 1) s fun t => ((s.fetched c).updCore c fun x => { x with tsnap := w }).wrote t c rd (BitVec.ofNat 64 v.1) false := by
  refine answers_of_ok rfl hr rfl ?_
  rw [h]
  exact wrote_put ..

theorem answers_tsamp_phase {rd : Reg} {v : Nat × Nat} {w : Option (Nat × Nat × Nat)} (hr : s.ready c = true)
    (h : (s.fetched c).pairSnap c 2 = (v, w)) :
    Answers (.tsamp c rd 2) s fun t => ((s.fetched c).updCore c fun x => { x with tsnap := w }).wrote t c rd (BitVec.ofNat 64 v.2) false := by
  refine answers_of_ok rfl hr rfl ?_
  rw [h]
  exact wrote_put ..

/-! ### QMUL and QMAC -/

/-- Saturation to 64 or 32 bits is a clamp between the least and the greatest value (R75). -/
theorem satI_eq_clamp (l : Bool) (x : Int) : satI (if l then 64 else 32) x =
    max (-(if l then 2 ^ 63 else 2 ^ 31)) (min x ((if l then 2 ^ 63 else 2 ^ 31) - 1)) := by
  unfold satI clampI
  rw [min_comm]
  cases l <;> rfl

theorem roundShift_toNat (p : Int) (sh : BitVec 5) :
    roundShift p sh.toNat = if sh = 0 then p else (p + 2 ^ (sh.toNat - 1)) / 2 ^ sh.toNat := by
  unfold roundShift
  by_cases h : sh = 0
  · rw [if_pos h, if_pos (by rw [h]; rfl)]
  · have h0 : sh.toNat ≠ 0 := fun e => h (BitVec.eq_of_toNat_eq e)
    rw [if_neg h, if_neg h0]

/-- QMUL and QMAC without K by a ready core write the saturated sum and set SAT where it differs from the exact one. -/
theorem answers_qop {i : Instr} {rd ra rb : Reg} {sh : BitVec 5} {l mac : Bool}
    (hi : exec i s = .next (runInstr c (fun t => t.qop c rd ra rb sh l false mac) s)) (hr : s.ready c = true) {acc x : Int}
    (hacc : (if mac then (s.reg c rd).toInt else 0) = acc)
    (hx : acc + roundShift (lowS (s.reg c ra) * lowS (s.reg c rb)) sh.toNat = x) :
    Answers i s fun t => (s.fetched c).wrote t c rd (BitVec.ofInt 64 (satI (if l then 64 else 32) x)) (decide (satI (if l then 64 else 32) x ≠ x)) := by
  refine answers_putSat (f := fun t => aluQ (if mac then (t.reg c rd).toInt else 0) (t.reg c ra) (lowS (t.reg c rb)) sh.toNat l) hi hr ?_
  simp only [fetched_reg, hacc]
  subst hx
  rfl

/-! ### Reading words -/

/-- Filling a D-cache line reads memory alone. -/
theorem readFrom_lineFill (s : State) (c : CoreId) (a : Nat) : s.readFrom (s.lineFill c a false).1 c := by
  unfold State.lineFill
  simp only [Bool.false_eq_true, if_false]
  generalize (if sramDie a = some c.die then 0 else 1) = src
  have hread := (checkWord_same s (a / 32) src).trans (checkWord_same _ (4 * (a / 64) + 1 - a / 32) src)
  split
  · exact readFrom_fillLine hread c _
  · exact hread.readFrom c

/-- A cached load reads memory alone. -/
theorem readFrom_load (s : State) (c : CoreId) (a n hint : Nat) : s.readFrom (s.load c a n hint).1 c := by
  unfold State.load
  dsimp only
  split
  · exact (readLm_same ..).readFrom c
  · split
    · exact (readMem_same ..).readFrom c
    · exact State.sameBut.readFrom (s := s) (t := s) rfl c
    · split
      · exact (readMem_same ..).readFrom c
      · exact readFrom_lineFill s c a

theorem readWords_touched (c : CoreId) (l : List Nat) (s : State) : s.touched (readWords c l s).1 c := by
  induction l generalizing s with
  | nil => exact State.sameBut.touched (s := s) (t := s) rfl c
  | cons a l ih =>
    have hload := (readFrom_load s c a 4 0).1
    unfold readWords
    split
    · exact State.sameBut.touched (s := s) (t := s) rfl c
    · split
      · next t h => rwa [h] at hload
      · next t b h =>
        rw [h] at hload
        have hrest := hload.trans (ih t)
        split
        · next u r hr => rwa [hr] at hrest
        · exact hrest

theorem State.touched.hasHandler {t : State} (h : s.touched t c) (hh : s.hasHandler c) : t.hasHandler c := by
  rw [State.hasHandler, h.core]
  exact hh

/-- An exception that the body raises after it has read memory enters the handler from there. -/
theorem answers_trapped_at {i : Instr} {body : State → CRes} {t : State} {e : Exc} (hi : exec i s = .next (runInstr c body s))
    (hr : s.ready c = true) (hb : body (s.fetched c) = .exc t e) (hh : t.hasHandler c) : Answers i s fun u => t.trapped u c e := by
  rw [answers_iff_of_exec hi, runInstr_ready c body s hr, hb]
  simp only [takeExc_handler _ c e hh]
  exact onlyCore_setCore _ c _

/-! ### LUTI -/

/-- A malformed header raises TABLE once it has been read (R76). -/
theorem luti_raises {u t : State} {rd ra rb : Reg} {x0 h : Nat}
    (hread : readWords c [(u.reg c ra).toNat, (u.reg c ra).toNat + 4] u = (t, .inr [x0, h]))
    (hbad : fld h 8 8 + 1 = 1 ∨ fld h 16 16 ≠ 0 ∨ fld h 5 3 ≠ 0) :
    u.luti c rd ra rb = .exc t { code := 0x13, tcode := 1, bada := some (u.reg c ra).toNat } := by
  unfold State.luti
  simp only [hread]
  exact if_pos hbad

/-- A distance inside the table lies past the point of its quotient by the spacing, and before the last point. -/
theorem lut_place {u : Int} {e n : Nat} (h0 : 0 ≤ u) (hlt : u < ((n : Int) - 1) * 2 ^ e) :
    u - ((u / 2 ^ e).toNat : Int) * 2 ^ e = u % 2 ^ e ∧ (u / 2 ^ e).toNat < n - 1 := by
  have hpow : (0 : Int) < 2 ^ e := by positivity
  have hq : ((u / 2 ^ e).toNat : Int) = u / 2 ^ e := Int.toNat_of_nonneg (Int.ediv_nonneg h0 hpow.le)
  have hqlt : u / 2 ^ e < (n : Int) - 1 := Int.ediv_lt_of_lt_mul hpow hlt
  refine ⟨?_, by omega⟩
  rw [hq, Int.emod_def, mul_comm]

variable {u : Int} {e n : Nat}

/-- Between two points LUTI reads both of them. -/
theorem lutIdx_between (h0 : 0 ≤ u) (hlt : u < ((n : Int) - 1) * 2 ^ e) (hne : u % 2 ^ e ≠ 0) :
    lutIdx u e n = [(u / 2 ^ e).toNat, (u / 2 ^ e).toNat + 1] := by
  obtain ⟨hf, hi⟩ := lut_place h0 hlt
  unfold lutIdx
  dsimp only
  rw [if_neg (by omega), hf, if_neg (by omega), if_neg hne]

/-- Between two points the table is their chord, rounded half up, and does not saturate (R76). -/
theorem interp_between {x0 x : Int} (y : Nat → Int) (h0 : 0 ≤ x - x0) (hlt : x - x0 < ((n : Int) - 1) * 2 ^ e) (hne : (x - x0) % 2 ^ e ≠ 0) :
    interp x0 e n y x = (y ((x - x0) / 2 ^ e).toNat +
      ((y (((x - x0) / 2 ^ e).toNat + 1) - y ((x - x0) / 2 ^ e).toNat) * ((x - x0) % 2 ^ e) + 2 ^ (e - 1)) / 2 ^ e, false) := by
  obtain ⟨hf, hi⟩ := lut_place h0 hlt
  have he : e ≠ 0 := by
    rintro rfl
    simp at hne
  unfold interp roundShift
  dsimp only
  rw [if_neg (by omega), hf, if_neg (by omega), if_neg hne, if_neg he]

/-- LUTI of an argument between two points of a good table. -/
theorem luti_between {t t1 t2 : State} {rd ra rb : Reg} {x0 h y0 y1 : Nat} {d : Int}
    (hread : readWords c [(t.reg c ra).toNat, (t.reg c ra).toNat + 4] t = (t1, .inr [x0, h]))
    (hgood : ¬ (fld h 8 8 + 1 = 1 ∨ fld h 16 16 ≠ 0 ∨ fld h 5 3 ≠ 0)) (hd : lowS (t1.reg c rb) - sxt 32 x0 = d)
    (h0 : 0 ≤ d) (hlt : d < (((fld h 8 8 + 1 : Nat) : Int) - 1) * 2 ^ fld h 0 5) (hne : d % 2 ^ fld h 0 5 ≠ 0)
    (hpts : readWords c [(t.reg c ra).toNat + 8 + 4 * (d / 2 ^ fld h 0 5).toNat,
      (t.reg c ra).toNat + 8 + 4 * ((d / 2 ^ fld h 0 5).toNat + 1)] t1 = (t2, .inr [y0, y1])) :
    t.luti c rd ra rb = .ok (t2.putSat c rd (BitVec.ofInt 64
      (sxt 32 y0 + ((sxt 32 y1 - sxt 32 y0) * (d % 2 ^ fld h 0 5) + 2 ^ (fld h 0 5 - 1)) / 2 ^ fld h 0 5), false)) := by
  subst hd
  unfold State.luti
  simp only [hread, List.getD_cons_zero, List.getD_cons_succ, if_neg hgood, lutIdx_between h0 hlt hne, List.map_cons, List.map_nil, hpts,
    interp_between _ h0 hlt hne, if_true, Nat.succ_ne_self, if_false, w64]

/-! ### SOLVE -/

/-- The selector of a fitted sheet (R73). -/
theorem solveSel_sheet {u : State} {d : Nat} (h1 : 1 ≤ d) (hfit : u.sheetFitted d = true) (h12 : d < 0x0C) : u.solveSel d = .inr d := by
  have hmod : d % 256 = d := by omega
  unfold State.solveSel
  simp only [hmod]
  rw [if_neg (by omega), if_neg (by simp [State.dieFitted, hfit]), if_neg (by omega)]

/-- A SOLVE whose descriptor can be read hands it to the TRI. -/
theorem solve_of_load {u t t1 : State} {rd ra rb : Reg} {l : List Byte} {v : W64} (h1 : 1 ≤ (u.reg c rb).toNat)
    (hfit : u.sheetFitted (u.reg c rb).toNat = true) (h12 : (u.reg c rb).toNat < 0x0C) (hcheck : u.cellCheck (u.reg c ra).toNat 32 true = none)
    (hload : u.load c (u.reg c ra).toNat 32 0 = (t1, some l)) (hq : t1.triQueue (u.reg c rb).toNat (u.reg c ra).toNat = (t, v)) :
    u.solve c rd ra rb = .ok (t.put c rd v) := by
  unfold State.solve
  simp only [solveSel_sheet h1 hfit h12, hcheck, hload, hq]

/-- A TRI in service with room takes the batch and gives it the next ticket. -/
theorem triQueue_taken {u : State} {d a : Nat} (hserv : u.inService d = true) (hmode : u.sys.mode ≠ .shutdown) (hroom : (u.triOf d).queue.length < 4) :
    u.triQueue d a = (u.updTri d fun y =>
      { y with queue := y.queue ++ [{ ticket := (u.triOf d).ticket, addr := a }], ticket := (y.ticket + 1) % 65536 },
      BitVec.ofNat 64 (u.triOf d).ticket) := by
  unfold State.triQueue
  dsimp only
  rw [if_neg (by simp [hserv, hmode]), if_neg (by omega)]

theorem triQueue_busy {u : State} {d a : Nat} (hserv : u.inService d = true) (hmode : u.sys.mode ≠ .shutdown) (hfull : 4 ≤ (u.triOf d).queue.length) :
    u.triQueue d a = (u, refusal 1) := by
  unfold State.triQueue
  dsimp only
  rw [if_neg (by simp [hserv, hmode]), if_pos hfull]

@[simp] theorem core_updTri (u : State) (d : Nat) (c : CoreId) (f : Tri → Tri) : (u.updTri d f).core c = u.core c := rfl

/-- What rd reads after a write of rd. -/
theorem reg_put_same (u : State) (c : CoreId) (rd : Reg) (v : W64) : (u.put c rd v).reg c rd = if rd = 0 then 0 else v := by
  rw [reg_put]
  by_cases h : rd = 0
  · rw [if_neg fun hne => hne.2 h, if_pos h, h, reg_zero]
  · rw [if_pos ⟨rfl, h⟩, if_neg h]

/-- Settles O13: each instruction is one equation of its body at the fetched state, which `answers_of_ok` or `answers_trapped_at` closes. -/
theorem cellInstructions : Obligations.CellInstructions := by
  constructor
  · intro s c rd ra rb sh l hr u now p r lim clampL acc
    have hclamp (x : Int) : satI (if l then 64 else 32) x = clampL x := satI_eq_clamp l x
    have hround : roundShift (lowS (s.reg c ra) * lowS (s.reg c rb)) sh.toNat = r := roundShift_toNat p sh
    refine ⟨answers_of_ok rfl hr rfl rfl, fun hnone => ⟨?_, ?_⟩, fun k cy ns hsome => ⟨?_, ?_⟩, ?_, ?_, fun hh => ⟨?_, ?_⟩,
      fun t1 x0 h hread => ⟨fun hbad hh => ?_, fun hn h16 h5 => ?_⟩⟩
    · exact answers_tsamp_cycle hr (pairSnap_first hnone 1)
    · exact answers_tsamp_phase hr (pairSnap_first hnone 2)
    · rintro rfl
      exact answers_tsamp_cycle hr (pairSnap_second hsome)
    · rintro rfl
      exact answers_tsamp_phase hr (pairSnap_second hsome)
    · have h := answers_qop (i := .qmul c rd ra rb sh l false) (mac := false) rfl hr (acc := 0) (x := r) rfl (by rw [hround, zero_add])
      rwa [hclamp] at h
    · have h := answers_qop (i := .qmac c rd ra rb sh l false) (mac := true) rfl hr rfl (by rw [hround])
      rwa [hclamp] at h
    · exact answers_trapped rfl hr hh rfl
    · exact answers_trapped rfl hr hh rfl
    · have hreg := fetched_reg s c c ra
      have htouch := readWords_touched c [(s.reg c ra).toNat, (s.reg c ra).toNat + 4] u
      rw [hread] at htouch
      rw [← hreg] at hread ⊢
      exact answers_trapped_at rfl hr (luti_raises hread hbad) (htouch.hasHandler (fetched_hasHandler hh))
    · intro d t2 y0 y1 h0 hlt hne hpts
      have hreg := fetched_reg s c c ra
      have htouch := readWords_touched c [(s.reg c ra).toNat, (s.reg c ra).toNat + 4] u
      rw [hread] at htouch
      have hd : lowS (t1.reg c rb) - sxt 32 x0 = d := by rw [htouch.reg, fetched_reg]; rfl
      rw [← hreg] at hread hpts
      exact answers_of_ok rfl hr (luti_between hread (by omega) hd h0 hlt hne hpts) (wrote_putSat ..)
  · intro s c rd ra rb t1 l hr u d a h1 hfit h12 hcheck hload hserv hmode
    have hra : (u.reg c ra).toNat = a := by rw [fetched_reg]
    have hrb : (u.reg c rb).toNat = d := by rw [fetched_reg]
    have hsolve (t : State) (v : W64) (hq : t1.triQueue d a = (t, v)) : u.solve c rd ra rb = .ok (t.put c rd v) := by
      rw [← hra, ← hrb] at hq
      rw [← hra] at hcheck hload
      rw [← hrb] at h1 hfit h12
      exact solve_of_load h1 hfit h12 hcheck hload hq
    refine ⟨fun hroom => ?_, fun hfull => ?_⟩
    · refine answers_of_ok rfl hr (hsolve _ _ (triQueue_taken hserv hmode hroom)) ⟨?_, ?_, ?_, ?_⟩
      · rw [triOf_put, triOf_updTri]
      · rw [triOf_put, triOf_updTri]
      · rw [reg_put_same]
      · rw [pc_put, core_updTri]
    · exact answers_of_ok rfl hr (hsolve _ _ (triQueue_busy hserv hmode hfull)) (wrote_put ..)

end Sys2Proof.Machine
end

section
/-! SUPPORT. POST, DELAY, DONE and the end of a stalled POST: what an arrival keeps of the slots' generations, where a placed item
stands, and what the end of an item leaves of its core (R62, R65–R68, R93). -/

namespace Sys2Proof.Machine

variable {s : State} {c : CoreId}

/-! ### Slots and handles -/

@[simp] theorem slot_setSlot (w : Wdx) (n m : Nat) (x : Slot) : (w.setSlot n x).slot m = if m = n then x else w.slot m := by
  simp [Wdx.slot, Wdx.setSlot]

/-- A change of the item in a slot keeps the slot's generation. -/
theorem gen_setItem (w : Wdx) (n m : Nat) (i : Option Item) : ((w.setSlot n { w.slot n with item := i }).slot m).gen = (w.slot m).gen := by
  rw [slot_setSlot]
  split_ifs with h
  · rw [h]
  · rfl

theorem gen_updItem (w : Wdx) (n m : Nat) (f : Item → Item) : ((w.updItem n f).slot m).gen = (w.slot m).gen := by
  unfold Wdx.updItem
  split
  · exact gen_setItem ..
  · rfl

theorem gen_displace (s : State) (n m : Nat) : ((s.displace n).wdx.slot m).gen = (s.wdx.slot m).gen := by
  unfold State.displace
  split
  · rfl
  · dsimp only
    split
    · rfl
    · split
      · rfl
      · split
        · rfl
        · exact (gen_updItem ..).trans (gen_updItem ..)

/-- An arrival keeps every handle (R89). -/
theorem handle_arrive (s : State) (n m : Nat) (d : Desc) (evt : Option Nat) : (s.arrive n d evt).wdx.handle m = s.wdx.handle m := by
  have h : ((s.arrive n d evt).wdx.slot m).gen = (s.wdx.slot m).gen := (gen_displace ..).trans (gen_setItem ..)
  rw [Wdx.handle, Wdx.handle, h]

theorem handle_putDelay (s : State) (die n m : Nat) (d : Desc) (ticks : Nat) : (s.putDelay die n d ticks).wdx.handle m = s.wdx.handle m := by
  have h : ((s.putDelay die n d ticks).wdx.slot m).gen = (s.wdx.slot m).gen := gen_setItem ..
  rw [Wdx.handle, Wdx.handle, h]

/-- A delayed item stands in its slot with its tick and its place in the order of arrival (R67). -/
theorem item_putDelay (s : State) (die n : Nat) (d : Desc) (ticks : Nat) : ((s.putDelay die n d ticks).wdx.slot n).item =
    some { d := d, st := .delayed die (s.wdx.ticks + max ticks 1), arr := s.wdx.arrival } := by
  have h : (s.putDelay die n d ticks).wdx.slot n = _ := slot_setSlot s.wdx n n _
  rw [h, if_pos rfl]

/-! ### Placing an item -/

/-- A POST or DELAY that takes its slot returns the slot's handle, and the core goes on. -/
theorem core_placePost (s : State) (c : CoreId) (rd : Reg) (d : Desc) (delay : Option Nat) (n : Nat) : (s.placePost c rd d delay n).core c =
    { (s.core c).setReg rd (BitVec.ofNat 64 (s.wdx.handle n)) with stall := none, pc := ((s.core c).pc + 4) % 2 ^ 64 } := by
  cases delay with
  | none =>
    rw [State.placePost, State.core_updCore, if_pos rfl, handle_arrive, (arrive_same s n d none).core]
  | some k =>
    rw [State.placePost, State.core_updCore, if_pos rfl, handle_putDelay]
    rfl

theorem reg_placePost (s : State) (c : CoreId) (rd r : Reg) (d : Desc) (delay : Option Nat) (n : Nat) : (s.placePost c rd d delay n).reg c r =
    if r = rd ∧ r ≠ 0 then BitVec.ofNat 64 (s.wdx.handle n) else s.reg c r := by
  rw [State.reg, core_placePost]
  exact Core.reg_setReg ..

theorem pc_placePost (s : State) (c : CoreId) (rd : Reg) (d : Desc) (delay : Option Nat) (n : Nat) :
    ((s.placePost c rd d delay n).core c).pc = ((s.core c).pc + 4) % 2 ^ 64 := by
  rw [core_placePost]

/-- Without a held event at its priority a POST finds the lists as they are (R94). -/
theorem acceptFor_eq_self {prio : Nat} (h : s.nextHeld (· == prio) = none) : s.acceptFor prio = s := by
  unfold State.acceptFor
  cases s.wdx.held.length with
  | zero => rfl
  | succ k => simp only [acceptAt, h]

/-! ### POST and DELAY once the descriptor has been read -/

section
variable {u t : State} {rd ra rb : Reg} {l : List Byte}

theorem post_badDesc (hread : u.readDesc c (u.reg c ra).toNat = (t, .inr l)) (hbad : Desc.ofBytes l = none) :
    u.post c rd ra = .ok (t.put c rd (refusal 4)) := by
  simp only [State.post, hread, hbad]

theorem delay_badDesc (hread : u.readDesc c (u.reg c ra).toNat = (t, .inr l)) (hbad : Desc.ofBytes l = none) :
    u.delay c rd ra rb = .ok (t.put c rd (refusal 4)) := by
  simp only [State.delay, hread, hbad]

variable {d : Desc} (hread : u.readDesc c (u.reg c ra).toNat = (t, .inr l)) (hdesc : Desc.ofBytes l = some d)
include hread hdesc

theorem post_noAffinity (haff : t.affinityOk d = false) : u.post c rd ra = .ok (t.put c rd (refusal 3)) := by
  simp only [State.post, hread, hdesc, haff, Bool.not_false, if_true]

theorem delay_noAffinity (haff : t.affinityOk d = false) : u.delay c rd ra rb = .ok (t.put c rd (refusal 3)) := by
  simp only [State.delay, hread, hdesc, haff, Bool.not_false, if_true]

variable {n : Nat} (haff : t.affinityOk d = true) (hslot : t.wdx.freeSlot = some n)
include haff hslot

theorem post_placed (hroom : t.listFull d.prio = false) (hheld : t.nextHeld (· == d.prio) = none) :
    u.post c rd ra = .ok (t.placePost c rd d none n) := by
  simp only [State.post, hread, hdesc, haff, acceptFor_eq_self hheld, hroom, hslot, Bool.not_true, Bool.false_eq_true, if_false]

theorem delay_placed (hroom : t.wdx.delayCount c.die < 1024) (hk : (t.reg c rb).toNat < 2 ^ 32) :
    u.delay c rd ra rb = .ok (t.placePost c rd d (some (t.reg c rb).toNat) n) := by
  simp only [State.delay, hread, hdesc, haff, hslot, Bool.not_true, Bool.false_eq_true, if_false, if_neg (not_le.2 hk), if_neg (not_le.2 hroom)]

end

/-! ### The end of an item and of a stall -/

/-- A completion record changes no core. -/
theorem cores_writeRecord (s : State) (l : List Byte) : (s.writeRecord l).cores = s.cores := by
  unfold State.writeRecord
  dsimp only
  split_ifs
  · rfl
  · rfl
  · exact (wakeBank_same ..).cores

/-- The end of an item leaves a core that is not stalled as it is. -/
theorem core_endItem {s : State} (n : Nat) (e : Ending) (h : (s.core c).stall = none) : (s.endItem n e).core c = s.core c := by
  unfold State.endItem
  split
  · rfl
  · next i _ =>
    have hrec : (if i.d.rc || e.status == 2 then s.writeRecord (recordBytes (s.wdx.handle n) i e) else s).cores = s.cores := by
      split_ifs
      · exact cores_writeRecord ..
      · rfl
    generalize (if i.d.rc || e.status == 2 then s.writeRecord (recordBytes (s.wdx.handle n) i e) else s) = t at hrec
    dsimp only
    have hcore (w : Wdx) : ({ t with wdx := w } : State).core c = s.core c := congrArg (fun x => Table.get (fun _ => ({} : Core)) x (coreKey c)) hrec
    exact (settle_keeps 80 _ (by rw [hcore]; exact h)).1.trans (hcore _)

/-- A core that ends its item is free (R57, R68). -/
theorem item_endOnCore {s : State} (e : Ending) (h : (s.core c).stall = none) : ((s.endOnCore c e).core c).item = none := by
  unfold State.endOnCore
  split
  · assumption
  · next n _ =>
    have hcore : (s.updCore c fun x => { x with item := none, dlpend := false }).core c = { s.core c with item := none, dlpend := false } := by
      rw [State.core_updCore, if_pos rfl]
    rw [core_endItem n _ (by rw [hcore]; exact h), hcore]

/-- A ready core is not stalled. -/
theorem fetched_stall (hr : s.ready c = true) : ((s.fetched c).core c).stall = none := by
  simp only [State.ready, State.canRun, Bool.and_eq_true, Option.isNone_iff_eq_none] at hr
  obtain ⟨⟨⟨-, hstall⟩, -⟩, -⟩ := hr
  rw [fetched_core]
  exact hstall

theorem exec_postBusy_due {x : Stall} (hlive : s.coreLive c = true) (hst : (s.core c).stall = some x) (hdue : x.limit ≤ s.upNs) :
    exec (.postBusy c) s = .next (s.updCore c fun y => y.endStall 1) := by
  have hcond : (s.coreLive c && (s.core c).stall.any fun x => decide (x.limit ≤ s.upNs)) = true := by simp [hlive, hst, hdue]
  show Host.Outcome.next (if (s.coreLive c && (s.core c).stall.any fun x => decide (x.limit ≤ s.upNs)) = true then _ else _) = _
  rw [if_pos hcond]

/-- Settles O11: `post_placed` and `delay_placed` for a slot that is taken, a refusal in rd else; DONE by `item_endOnCore`. -/
theorem workItemInstructions : Obligations.WorkItemInstructions := by
  intro s c rd ra rb t1 l u
  refine ⟨fun hr hread => ?_, fun hr => ?_, fun x hlive hst hdue => ?_⟩
  · rw [← fetched_reg s c c ra] at hread
    refine ⟨fun hbad => ⟨?_, ?_⟩, fun d hdesc haff => ⟨?_, ?_⟩, fun d n hdesc haff hslot => ⟨fun hroom hheld => ?_, fun hroom hk => ?_⟩⟩
    · exact answers_of_ok rfl hr (post_badDesc hread hbad) (wrote_put ..)
    · exact answers_of_ok rfl hr (delay_badDesc hread hbad) (wrote_put ..)
    · exact answers_of_ok rfl hr (post_noAffinity hread hdesc haff) (wrote_put ..)
    · exact answers_of_ok rfl hr (delay_noAffinity hread hdesc haff) (wrote_put ..)
    · exact answers_of_ok rfl hr (post_placed hread hdesc haff hslot hroom hheld) ⟨rfl, fun r => reg_placePost .., pc_placePost ..⟩
    · exact answers_of_ok rfl hr (delay_placed hread hdesc haff hslot hroom hk) ⟨item_putDelay .., fun r => reg_placePost .., pc_placePost ..⟩
  · refine answers_of_ok rfl hr rfl ⟨item_endOnCore _ (fetched_stall hr), ?_⟩
    rw [fetched_reg]
  · obtain ⟨g, hg⟩ := Core.setReg_eq (s.core c) x.rd (refusal 1)
    have hend : (s.core c).endStall 1 = { (s.core c).setReg x.rd (refusal 1) with stall := none, pc := ((s.core c).pc + 4) % 2 ^ 64 } := by
      unfold Core.endStall
      rw [hst]
      rfl
    rw [answers_iff_of_exec (exec_postBusy_due hlive hst hdue)]
    refine ⟨fun r => ?_, g, ?_⟩
    · rw [State.reg, State.core_updCore, if_pos rfl, hend]
      exact Core.reg_setReg ..
    · rw [hg] at hend
      rw [← hend]
      exact onlyCore_updCore ..

end Sys2Proof.Machine
end

section
/-! SUPPORT. The registers of WDX: a stored field, settling when no POST waits, the firings that a written KIND discards, the end of a
cancelled item and an emptied completion ring (R89, R90, R97, R102, R104). -/

namespace Sys2Proof.Machine

variable {s : State}

/-! ### A stored field at bit 0 -/

theorem fld_zero_setFld (v w x : Nat) : fld (setFld v 0 w x) 0 w = x % 2 ^ w := by
  have hdiv : v - v % 2 ^ w = 2 ^ w * (v / 2 ^ w) := by
    have hv := Nat.div_add_mod v (2 ^ w)
    omega
  simp only [fld, setFld, pow_zero, Nat.div_one, mul_one, hdiv, Nat.mul_add_mod, Nat.mod_mod]

theorem rf_setRf_same (s : State) (r x : Nat) {w : Nat} (hw : w ≤ 32) : (s.setRf r 0 w x).rf r 0 w = x % 2 ^ w := by
  have hfld : (s.setRf r 0 w x).rf r 0 w = fld (setFld (s.rd r).toNat 0 w x % 2 ^ 32) 0 w := by
    simp [State.rf, State.setRf]
  have hmod (y : Nat) : fld (y % 2 ^ 32) 0 w = fld y 0 w := by
    simp only [fld, pow_zero, Nat.div_one]
    exact Nat.mod_mod_of_dvd y (pow_dvd_pow 2 hw)
  rw [hfld, hmod, fld_zero_setFld]

theorem rf_setRf_ne (s : State) {r q : Nat} (lo w x lo' w' : Nat) (h : q ≠ r) : (s.setRf r lo w x).rf q lo' w' = s.rf q lo' w' := by
  simp [State.rf, State.setRf, h]

/-! ### Settling when no POST waits -/

/-- Without a stalled POST or DELAY a freed place sets nothing off (R66). -/
theorem settled_eq_self (h : s.coreList.all (fun c => (s.core c).stall.isNone) = true) : s.settled = s := by
  have hnone : s.coreList.filter (fun c => (s.core c).stall.any (s.stallFits c)) = [] := by
    rw [List.filter_eq_nil_iff]
    intro c hc
    simp [Option.isNone_iff_eq_none.1 (List.all_eq_true.1 h c hc)]
  show settle 80 s = s
  unfold settle
  rw [hnone]
  rfl

theorem settled_eq_self_of_cores (t : State) (hsys : t.sys = s.sys) (hcores : t.cores = s.cores)
    (h : s.coreList.all (fun c => (s.core c).stall.isNone) = true) : t.settled = t := by
  have hlist : t.coreList = s.coreList := by rw [State.coreList, State.sheetList, hsys]; rfl
  have hcore (c : CoreId) : t.core c = s.core c := by rw [State.core, hcores]; rfl
  exact settled_eq_self (by simpa only [hlist, hcore] using h)

/-! ### A write of WDX_EVT_CTLn -/

theorem log_eq_fb (s : State) (code sev die block obj d0 d1 : Nat) : ∃ b, s.log code sev die block obj d0 d1 = { s with fb := b } := by
  unfold State.log
  dsimp only
  split_ifs <;> exact ⟨_, rfl⟩

theorem foldl_evtDrop_eq_fb (e : Nat) (l : List Held) (t : State) : ∃ b, l.foldl (fun t h => t.evtDrop e h.word) t = { t with fb := b } := by
  induction l generalizing t with
  | nil => exact ⟨t.fb, rfl⟩
  | cons h l ih =>
    obtain ⟨b, hb⟩ := log_eq_fb t 0x0101 2 0 1 e h.word 0
    obtain ⟨b', hb'⟩ := ih (t.evtDrop e h.word)
    exact ⟨b', hb'.trans (by rw [State.evtDrop, hb])⟩

theorem pendOf_setPend (w : Wdx) (e : Nat) (p : Pend) : (w.setPend e p).pendOf e = p := by
  simp [Wdx.pendOf, Wdx.setPend]

/-- Discarded firings are logged; none of the entry is held or waits afterwards (R97). -/
theorem dropFirings_eq (s : State) (e : Nat) : ∃ b w, s.dropFirings e = { s with fb := b, wdx := w } ∧
    w.held = s.wdx.held.filter (fun h => h.entry != e) ∧ ∀ x k, w.pendOf e ≠ .waiting x k := by
  let held := s.wdx.held.filter fun h => h.entry != e
  obtain ⟨b, hb⟩ := foldl_evtDrop_eq_fb e (s.wdx.held.filter fun h => h.entry == e) { s with wdx := { s.wdx with held := held } }
  unfold State.dropFirings
  dsimp only
  rw [hb]
  split
  · next x k _ =>
    obtain ⟨b', hb'⟩ := log_eq_fb { s with fb := b, wdx := ({ s.wdx with held := held } : Wdx).setPend e .idle } 0x0101 2 0 1 e x 0
    refine ⟨b', _, hb', rfl, fun y j => ?_⟩
    rw [pendOf_setPend]
    exact Pend.noConfusion
  · next hwait => exact ⟨b, _, rfl, rfl, hwait⟩

/-- The KIND that was written stands, and KIND 2 or 3 leaves no firing of the entry held or waiting (R97). -/
theorem evtCtl_stores (e : Nat) (v : W32) (h : s.coreList.all (fun c => (s.core c).stall.isNone) = true) :
    (s.evtCtl e v).evKind e = v.toNat % 4 ∧ (2 ≤ v.toNat % 4 → (s.evtCtl e v).wdx.held.all (fun x => x.entry != e) = true ∧
      ∀ w k, (s.evtCtl e v).wdx.pendOf e ≠ .waiting w k) := by
  let u := s.setRf (wdxReg (0x8000 + 4 * e)) 0 2 (fld v.toNat 0 2)
  have hv : fld v.toNat 0 2 = v.toNat % 4 := by simp [fld]
  have hkind : u.evKind e = v.toNat % 4 := (rf_setRf_same s _ _ (by decide)).trans (by rw [hv]; exact Nat.mod_mod ..)
  have hctl : s.evtCtl e v = (if 2 ≤ v.toNat % 4 then u.dropFirings e else u).settled := by rw [← hv]; rfl
  by_cases h2 : 2 ≤ v.toNat % 4
  · obtain ⟨b, w, heq, hheld, hpend⟩ := dropFirings_eq u e
    have hdrop : s.evtCtl e v = { u with fb := b, wdx := w } := by
      rw [hctl, if_pos h2, heq]
      exact settled_eq_self_of_cores _ rfl rfl h
    rw [hdrop]
    refine ⟨hkind, fun _ => ⟨?_, hpend⟩⟩
    show w.held.all _ = true
    rw [hheld]
    exact List.all_eq_true.2 fun x hx => (List.mem_filter.1 hx).2
  · have hkeep : s.evtCtl e v = u := by
      rw [hctl, if_neg h2]
      exact settled_eq_self_of_cores u rfl rfl h
    rw [hkeep]
    exact ⟨hkind, fun hc => absurd hc h2⟩

/-! ### Cancellation -/

theorem item_of_query {w : Wdx} {handle : Nat} (h : 1 ≤ w.query handle % 16) : ∃ i, (w.slot (handle % 4096)).item = some i := by
  unfold Wdx.query at h
  dsimp only at h
  split at h
  · exact absurd h (by decide)
  · split at h
    · exact absurd h (by decide)
    · next i hi => exact ⟨i, hi⟩

theorem cancelItem_free {handle : Nat} (h : s.wdx.query handle % 16 = 0) : s.cancelItem handle = (s, 2) := by
  simp only [State.cancelItem, h]

theorem cancelItem_running {handle : Nat} (h : s.wdx.query handle % 16 = 4) : s.cancelItem handle = (s, 3) := by
  simp only [State.cancelItem, h]

theorem cancelItem_waiting {handle : Nat} (h1 : 1 ≤ s.wdx.query handle % 16) (h3 : s.wdx.query handle % 16 ≤ 3) :
    s.cancelItem handle = (s.endItem (handle % 4096) { status := 4 }, 1) := by
  unfold State.cancelItem
  dsimp only
  split
  · next h => omega
  · next h => omega
  · rfl

/-- A completion record changes no slot, no core and no mode of the system. -/
theorem writeRecord_keeps (s : State) (l : List Byte) :
    (s.writeRecord l).wdx.slots = s.wdx.slots ∧ (s.writeRecord l).cores = s.cores ∧ (s.writeRecord l).sys = s.sys := by
  have hwake (d b : Nat) : (s.wakeBank d b).wdx = s.wdx ∧ (s.wakeBank d b).cores = s.cores ∧ (s.wakeBank d b).sys = s.sys := by
    unfold State.wakeBank
    dsimp only
    split_ifs <;> exact ⟨rfl, rfl, rfl⟩
  unfold State.writeRecord
  dsimp only
  split_ifs
  · exact ⟨rfl, rfl, rfl⟩
  · exact ⟨rfl, rfl, rfl⟩
  · obtain ⟨hwdx, hcores, hsys⟩ := hwake 0 (bankOf (s.rf (rg 0 1 0x20) 0 32 * 256 + s.wdx.crHead * 32))
    have hslots := congrArg Wdx.slots hwdx
    exact ⟨hslots, hcores, hsys⟩

/-- The end of an item frees its slot, whose generation goes up (R89). -/
theorem slot_endItem {n : Nat} {i : Item} (e : Ending) (hi : (s.wdx.slot n).item = some i)
    (h : s.coreList.all (fun c => (s.core c).stall.isNone) = true) :
    (s.endItem n e).wdx.slot n = { gen := ((s.wdx.slot n).gen + 1) % 16, item := none } := by
  have hleave (w : Wdx) : (w.leaveQueue i).slots = w.slots := by
    unfold Wdx.leaveQueue
    split <;> rfl
  have hrec : ∃ t : State, (if i.d.rc || e.status == 2 then s.writeRecord (recordBytes (s.wdx.handle n) i e) else s) = t ∧
      t.wdx.slots = s.wdx.slots ∧ t.cores = s.cores ∧ t.sys = s.sys := by
    split_ifs
    · exact ⟨_, rfl, writeRecord_keeps ..⟩
    · exact ⟨s, rfl, rfl, rfl, rfl⟩
  obtain ⟨t, ht, hslots, hcores, hsys⟩ := hrec
  have hqueue : ∃ w : Wdx, (if i.st.queued then t.wdx.leaveQueue i else t.wdx) = w ∧ w.slots = s.wdx.slots := by
    split_ifs
    · exact ⟨_, rfl, (hleave _).trans hslots⟩
    · exact ⟨_, rfl, hslots⟩
  obtain ⟨w, hw, hwslots⟩ := hqueue
  have hend : s.endItem n e = { t with wdx := w.freeUp n } := by
    simp only [State.endItem, hi, ht, hw]
    exact settled_eq_self_of_cores _ hsys hcores h
  have hslot : w.slot n = s.wdx.slot n := by rw [Wdx.slot, hwslots]; rfl
  rw [hend]
  show (w.freeUp n).slot n = _
  rw [Wdx.freeUp, slot_setSlot, if_pos rfl, hslot]

/-! ### The commands on a live hub -/

theorem exec_evtCtlWrite_live {e : Nat} (v : W32) (hlive : s.blockLive 0 = true) (he : e < 512) : exec (.evtCtlWrite e v) s = .next (s.evtCtl e v) := by
  have hcond : (s.blockLive 0 && decide (e < 512)) = true := by simp [hlive, he]
  exact congrArg _ (if_pos hcond)

theorem exec_cancel_live (m : Master) (handle : BitVec 16) (hlive : s.blockLive 0 = true) :
    exec (.cancel m handle) s = .next (s.wdxCancel m handle.toNat) := congrArg _ (if_pos hlive)

theorem exec_hquery_live (m : Master) (handle : BitVec 16) (hlive : s.blockLive 0 = true) :
    exec (.hquery m handle) s = .next (s.wdxQuery m handle.toNat) := congrArg _ (if_pos hlive)

theorem exec_crsizeWrite_live (v : W32) (hlive : s.blockLive 0 = true) : exec (.crsizeWrite v) s = .next (s.crSize v) :=
  congrArg _ (if_pos hlive)

theorem wdxCancel_ext {t : State} {handle r : Nat} (h : s.cancelItem handle = (t, r)) :
    s.wdxCancel .ext handle = { t with wdx := { t.wdx with extCancel := r } } := by
  unfold State.wdxCancel
  rw [h]

theorem wdxCancel_core {t : State} {handle r : Nat} (c : CoreId) (h : s.cancelItem handle = (t, r)) :
    s.wdxCancel (.core c) handle = t.updCore c fun x => { x with cancelRes := r } := by
  unfold State.wdxCancel
  rw [h]

/-- The sizes of a completion ring that R102 allows. -/
theorem crsize_allowed_iff (s : State) (v : W32) :
    (4 ≤ fld v.toNat 0 4 ∧ fld v.toNat 0 4 ≤ 12 ∧ ringFits (s.rf (wdxReg 0x20) 0 32) (fld v.toNat 0 4)) ↔
      4 ≤ v.toNat % 16 ∧ v.toNat % 16 ≤ 12 ∧ s.rf (rg 0 1 0x20) 0 32 * 256 + 32 * 2 ^ (v.toNat % 16) ≤ 0x02000000 := by
  simp [ringFits, hubRange, wdxReg, fld]

/-- A size that R102 allows is stored, and the ring is empty. -/
theorem crSize_taken {v : W32} (h4 : 4 ≤ v.toNat % 16) (h12 : v.toNat % 16 ≤ 12)
    (hfit : s.rf (rg 0 1 0x20) 0 32 * 256 + 32 * 2 ^ (v.toNat % 16) ≤ 0x02000000) :
    (s.crSize v).rf (rg 0 1 0x24) 0 4 = v.toNat % 16 ∧ (s.crSize v).wdx.crHead = 0 ∧ (s.crSize v).rf (rg 0 1 0x2C) 0 12 = 0 ∧
      { s.crSize v with regs := s.regs, wdx := s.wdx } = s := by
  let t := s.setRf (wdxReg 0x24) 0 4 (fld v.toNat 0 4)
  have htaken : s.crSize v = { t.setRf (wdxReg 0x2C) 0 12 0 with wdx := { s.wdx with crHead := 0 } } :=
    if_pos ((crsize_allowed_iff s v).2 ⟨h4, h12, hfit⟩)
  have hsize : t.rf (rg 0 1 0x24) 0 4 = v.toNat % 16 := by
    refine (rf_setRf_same s _ _ (by decide)).trans ?_
    simp [fld]
  rw [htaken]
  refine ⟨?_, rfl, rf_setRf_same t _ 0 (by decide), rfl⟩
  exact (rf_setRf_ne t 0 12 0 0 4 (by decide)).trans hsize

/-- Settles O15: on a live hub each command is its register's operation; a cancellation ends a waiting item by `slot_endItem`. That a free slot
of the right generation answers STALE is the model's choice (assumption log 115). -/
theorem dispatcherRegisters : Obligations.DispatcherRegisters := by
  intro s e v h c hlive
  refine ⟨fun he hstall => ?_, fun hfree => ?_, fun hrun => ?_, fun h1 h3 hstall => ?_, ?_, ?_, fun h4 h12 hfit => ?_, fun hbad => ?_⟩
  · rw [answers_iff_of_exec (exec_evtCtlWrite_live v hlive he)]
    exact evtCtl_stores e v hstall
  · rw [answers_iff_of_exec (exec_cancel_live _ h hlive)]
    exact wdxCancel_ext (cancelItem_free hfree)
  · rw [answers_iff_of_exec (exec_cancel_live _ h hlive), wdxCancel_core c (cancelItem_running hrun)]
    exact onlyCore_updCore ..
  · obtain ⟨i, hi⟩ := item_of_query h1
    have hslot := slot_endItem { status := 4 } hi hstall
    rw [answers_iff_of_exec (exec_cancel_live _ h hlive), wdxCancel_ext (cancelItem_waiting h1 h3)]
    exact ⟨rfl, congrArg Slot.item hslot, congrArg Slot.gen hslot⟩
  · rw [answers_iff_of_exec (exec_hquery_live _ h hlive)]
    rfl
  · rw [answers_iff_of_exec (exec_hquery_live _ h hlive)]
    exact onlyCore_updCore ..
  · rw [answers_iff_of_exec (exec_crsizeWrite_live v hlive)]
    exact crSize_taken h4 h12 hfit
  · rw [answers_iff_of_exec (exec_crsizeWrite_live v hlive)]
    exact if_neg fun hok => by
      obtain ⟨h4, h12, hfit⟩ := (crsize_allowed_iff s v).1 hok
      omega

end Sys2Proof.Machine
end

section
/-! SUPPORT. What WDX moves: an arrival, the expiry of the delay list, the move to a station, held events and pending
firings (R67, R91, R92, R94, R95, R97, R99). -/

namespace Sys2Proof.Machine

variable {s : State}

/-! ### Tables in order -/

theorem Table.get_of_mem {α : Type} {d : Nat → α} {t : Table α} (h : t.Pairwise fun a b => a.1 < b.1) {k : Nat} {v : α}
    (hm : (k, v) ∈ t) : Table.get d t k = v := by
  induction t with
  | nil => cases hm
  | cons x t ih =>
    obtain ⟨j, w⟩ := x
    obtain ⟨hlt, ht⟩ := List.pairwise_cons.1 h
    rw [Table.get_cons]
    rcases List.mem_cons.1 hm with heq | hm
    · cases heq
      exact if_pos rfl
    · rw [if_neg (hlt _ hm).ne, ih ht hm]

theorem Table.mem_of_get {α : Type} {d : Nat → α} {t : Table α} {k : Nat} (h : Table.get d t k ≠ d k) : (k, Table.get d t k) ∈ t := by
  induction t with
  | nil => exact absurd rfl h
  | cons x t ih =>
    obtain ⟨j, w⟩ := x
    rw [Table.get_cons] at h ⊢
    split_ifs at h ⊢ with hj
    · rw [hj]
      exact List.mem_cons_self ..
    · exact List.mem_cons_of_mem _ (ih h)

/-- The slots stand in the canonical form that every write of a slot keeps. -/
def Wdx.slotsWf (w : Wdx) : Prop := Table.wf (fun _ => ({} : Slot)) w.slots = true

/-- In the canonical form the listed items are those that the slots hold. -/
theorem mem_items_iff {w : Wdx} (hwf : w.slotsWf) {n : Nat} {i : Item} : (n, i) ∈ w.items ↔ (w.slot n).item = some i := by
  obtain ⟨hrise, -⟩ := (Table.wf_iff _ _).1 hwf
  simp only [Wdx.items, List.mem_filterMap, Option.map_eq_some_iff, Prod.mk.injEq]
  constructor
  · rintro ⟨⟨k, x⟩, hx, i, hi, rfl, rfl⟩
    rw [Wdx.slot, Table.get_of_mem hrise hx]
    exact hi
  · intro hi
    have hne : Table.get (fun _ => ({} : Slot)) w.slots n ≠ {} := fun h => by
      rw [Wdx.slot, h] at hi
      cases hi
    exact ⟨_, Table.mem_of_get hne, i, hi, rfl, rfl⟩

/-! ### An arrival -/

theorem slot_updItem (w : Wdx) (n m : Nat) (f : Item → Item) :
    (w.updItem n f).slot m = if m = n then { w.slot n with item := (w.slot n).item.map f } else w.slot m := by
  unfold Wdx.updItem
  split
  · next i hi => rw [slot_setSlot, hi, Option.map_some]
  · next hi =>
    split_ifs with hm
    · rw [hm, hi, Option.map_none, ← hi]
    · rfl

/-- `w'` is `w` with some items put into the ready list or a station. -/
structure Wdx.Requeued (w w' : Wdx) : Prop where
  arrival : w'.arrival = w.arrival
  tickDone : w'.tickDone = w.tickDone
  held : w'.held = w.held
  slotsWf : w.slotsWf → w'.slotsWf
  item : ∀ k, (w'.slot k).item = (w.slot k).item ∨
    ∃ i st, (w.slot k).item = some i ∧ st.isDelayed = false ∧ (w'.slot k).item = some { i with st := st }

theorem Wdx.Requeued.refl (w : Wdx) : w.Requeued w := ⟨rfl, rfl, rfl, id, fun _ => .inl rfl⟩

theorem Wdx.Requeued.trans {u v w : Wdx} (h : u.Requeued v) (k : v.Requeued w) : u.Requeued w where
  arrival := k.arrival.trans h.arrival
  tickDone := k.tickDone.trans h.tickDone
  held := k.held.trans h.held
  slotsWf hwf := k.slotsWf (h.slotsWf hwf)
  item n := by
    rcases k.item n with hk | ⟨i, st, hi, hst, hk⟩
    · rw [hk]
      exact h.item n
    · rcases h.item n with hh | ⟨j, st', hj, -, hh⟩
      · exact .inr ⟨i, st, hh ▸ hi, hst, hk⟩
      · cases hi.symm.trans hh
        exact .inr ⟨j, st, hj, hst, hk⟩

theorem requeued_updItem (w : Wdx) (n : Nat) {st : ItemSt} (hst : st.isDelayed = false) : w.Requeued (w.updItem n fun y => { y with st := st }) where
  arrival := by unfold Wdx.updItem; split <;> rfl
  tickDone := by unfold Wdx.updItem; split <;> rfl
  held := by unfold Wdx.updItem; split <;> rfl
  slotsWf hwf := by
    unfold Wdx.updItem
    split
    · exact Table.wf_set _ _ _ _ hwf
    · exact hwf
  item k := by
    rw [slot_updItem]
    by_cases hk : k = n
    · subst hk
      rw [if_pos rfl]
      cases hi : (w.slot k).item with
      | none => exact .inl rfl
      | some i => exact .inr ⟨i, st, rfl, hst, rfl⟩
    · exact .inl (by rw [if_neg hk])

theorem requeued_displace (s : State) (n : Nat) : s.wdx.Requeued (s.displace n).wdx := by
  unfold State.displace
  split
  · exact .refl _
  · dsimp only
    split
    · exact .refl _
    · split
      · exact .refl _
      · split
        · exact .refl _
        · exact (requeued_updItem _ _ rfl).trans (requeued_updItem _ _ rfl)

/-- What an arrival in slot `n` does to WDX: the item is there and not delayed, no other item has become delayed, and nothing is taken from
the held events. -/
structure Wdx.Arrived (w w' : Wdx) (n : Nat) (d : Desc) (evt : Option Nat) : Prop where
  arrival : w'.arrival = w.arrival + 1
  tickDone : w'.tickDone = w.tickDone
  held : w'.held = w.held
  slotsWf : w.slotsWf → w'.slotsWf
  item : ∃ i, (w'.slot n).item = some i ∧ i.d = d ∧ i.evt = evt ∧ i.st.isDelayed = false
  others : ∀ k i, k ≠ n → (w'.slot k).item = some i → i.st.isDelayed = true → (w.slot k).item = some i

theorem arrived_arrive (s : State) (n : Nat) (d : Desc) (evt : Option Nat) : s.wdx.Arrived (s.arrive n d evt).wdx n d evt := by
  let w : Wdx := s.wdx.setSlot n { s.wdx.slot n with item := some { d := d, st := .ready, arr := s.wdx.arrival, evt := evt } }
  have hslot (k : Nat) : (w.slot k).item = if k = n then some { d := d, st := .ready, arr := s.wdx.arrival, evt := evt } else (s.wdx.slot k).item := by
    rw [slot_setSlot]
    split_ifs <;> rfl
  have hreq : ({ w with arrival := s.wdx.arrival + 1 } : Wdx).Requeued (s.arrive n d evt).wdx :=
    requeued_displace { s with wdx := { w with arrival := s.wdx.arrival + 1 } } n
  refine ⟨hreq.arrival, hreq.tickDone, hreq.held, fun hwf => hreq.slotsWf (Table.wf_set _ _ _ _ hwf), ?_, fun k i hk hi hdel => ?_⟩
  · have hn := (hslot n).trans (if_pos rfl)
    rcases hreq.item n with h | ⟨i, st, hi, hst, h⟩
    · exact ⟨_, h.trans hn, rfl, rfl, rfl⟩
    · cases hi.symm.trans hn
      exact ⟨_, h, rfl, rfl, hst⟩
  · have hk' := (hslot k).trans (if_neg hk)
    rcases hreq.item k with h | ⟨j, st, -, hst, h⟩
    · exact hk'.symm.trans (h.symm.trans hi)
    · cases hi.symm.trans h
      rw [hst] at hdel
      cases hdel

theorem displace_rest (s : State) (n : Nat) (w : Wdx) : { s.displace n with wdx := w } = { s with wdx := w } := by
  unfold State.displace
  split
  · rfl
  · dsimp only
    split
    · rfl
    · split
      · rfl
      · split <;> rfl

theorem arrive_rest (s : State) (n : Nat) (d : Desc) (evt : Option Nat) (w : Wdx) : { s.arrive n d evt with wdx := w } = { s with wdx := w } :=
  displace_rest ..

/-! ### The expiry of the delay list -/

/-- The delay-list entries that are due at tick `lim`, but for the slots of `skip`, as `expire` looks for them. -/
def State.dueItems (s : State) (lim : Nat) (skip : List Nat) : List (Nat × Item) :=
  s.wdx.items.filter fun x => x.2.st.isDelayed && decide (x.2.tick ≤ lim) && !skip.contains x.1

theorem dueItems_nil (s : State) (lim : Nat) : s.dueItems lim [] = s.wdx.items.filter fun x => x.2.st.isDelayed && decide (x.2.tick ≤ lim) := by
  simp [State.dueItems]

theorem expire_none {lim fuel : Nat} {skip : List Nat} (h : s.dueItems lim skip = []) : expire lim fuel skip s = s := by
  cases fuel with
  | zero => rfl
  | succ fuel =>
    unfold State.dueItems at h
    simp only [expire, h, firstDelayed]

theorem expire_first {lim fuel n : Nat} {skip : List Nat} {i : Item} (h : firstDelayed (s.dueItems lim skip) = some (n, i))
    (hroom : s.prioFull i.d.prio = false) : expire lim (fuel + 1) skip s = expire lim fuel skip (s.arrive n i.d i.evt) := by
  unfold State.dueItems at h
  simp only [expire, h, hroom, Bool.false_eq_true, if_false]

theorem expire_rest (lim fuel : Nat) (skip : List Nat) (s : State) (w : Wdx) : { expire lim fuel skip s with wdx := w } = { s with wdx := w } := by
  induction fuel generalizing skip s with
  | zero => rfl
  | succ fuel ih =>
    unfold expire
    split
    · rfl
    · split_ifs
      · exact ih ..
      · exact (ih ..).trans (arrive_rest ..)

/-- Every arrival takes the next place, so the count of places never falls. -/
theorem arrival_le_expire (lim fuel : Nat) (skip : List Nat) (s : State) : s.wdx.arrival ≤ (expire lim fuel skip s).wdx.arrival := by
  induction fuel generalizing skip s with
  | zero => exact le_rfl
  | succ fuel ih =>
    unfold expire
    split
    · exact le_rfl
    · next n i _ =>
      split_ifs
      · exact ih ..
      · have harr := (arrived_arrive s n i.d i.evt).arrival
        exact (by omega : s.wdx.arrival ≤ _).trans (ih ..)

theorem expireTo_of_lt {lim : Nat} (h : s.wdx.tickDone < lim) :
    s.expireTo lim = { expire lim 7168 [] s with wdx := { (expire lim 7168 [] s).wdx with tickDone := lim } } := if_pos h

theorem arrival_expireTo {lim : Nat} (h : s.wdx.tickDone < lim) : (s.expireTo lim).wdx.arrival = (expire lim 7168 [] s).wdx.arrival := by
  rw [expireTo_of_lt h]

theorem expireTo_of_le {lim : Nat} (h : lim ≤ s.wdx.tickDone) : s.expireTo lim = s := if_neg (not_lt.2 h)

/-- With the slots in canonical form the one entry that is due arrives, and nothing is due after it (R99). -/
theorem expire_single {lim n : Nat} {i : Item} (fuel : Nat) (hwf : s.wdx.slotsWf) (hdue : s.dueItems lim [] = [(n, i)])
    (hroom : s.prioFull i.d.prio = false) : expire lim (fuel + 1) [] s = s.arrive n i.d i.evt := by
  have hfirst : firstDelayed (s.dueItems lim []) = some (n, i) := by
    rw [hdue]
    rfl
  have harr := arrived_arrive s n i.d i.evt
  rw [expire_first hfirst hroom]
  refine expire_none (List.filter_eq_nil_iff.2 fun x hx hdel => ?_)
  obtain ⟨k, j⟩ := x
  have hj := (mem_items_iff (harr.slotsWf hwf)).1 hx
  simp only [List.contains_nil, Bool.not_false, Bool.and_true, Bool.and_eq_true] at hdel
  obtain ⟨hst, htick⟩ := hdel
  by_cases hk : k = n
  · obtain ⟨y, hy, -, -, hyst⟩ := harr.item
    rw [hk, hy] at hj
    cases hj
    rw [hst] at hyst
    cases hyst
  · have hold := harr.others k j hk hj hst
    have hmem : (k, j) ∈ s.dueItems lim [] := by
      rw [dueItems_nil, List.mem_filter, mem_items_iff hwf, Bool.and_eq_true]
      exact ⟨hold, hst, htick⟩
    rw [hdue, List.mem_singleton] at hmem
    cases hmem
    exact hk rfl

theorem exec_delayExpiry_live (hlive : s.blockLive 0 = true) : exec .delayExpiry s = .next (s.expireTo s.wdx.ticks) := congrArg _ (if_pos hlive)

/-- The clause of O14 on the delay list, for slots in canonical form (R94, R99). -/
theorem delayExpiry_moves (hlive : s.blockLive 0 = true) (hwf : s.wdx.slotsWf) : Answers .delayExpiry s fun t =>
    { t with wdx := s.wdx } = s ∧ t.wdx.tickDone = max s.wdx.tickDone s.wdx.ticks ∧ (s.wdx.ticks ≤ s.wdx.tickDone → t = s) ∧
      ∀ n i, s.wdx.tickDone < s.wdx.ticks → s.dueItems s.wdx.ticks [] = [(n, i)] → s.prioFull i.d.prio = false →
        { t.wdx with tickDone := s.wdx.tickDone } = (s.arrive n i.d i.evt).wdx := by
  rw [answers_iff_of_exec (exec_delayExpiry_live hlive)]
  by_cases hlt : s.wdx.tickDone < s.wdx.ticks
  · rw [expireTo_of_lt hlt]
    refine ⟨expire_rest .., (max_eq_right hlt.le).symm, fun h => absurd hlt (not_lt.2 h), fun n i _ hdue hroom => ?_⟩
    have harr := arrived_arrive s n i.d i.evt
    rw [expire_single _ hwf hdue hroom, ← harr.tickDone]
  · have hle := not_lt.1 hlt
    rw [expireTo_of_le hle]
    exact ⟨rfl, (max_eq_left hle).symm, fun _ => rfl, fun _ _ h => absurd h hlt⟩

/-! ### The move to a station -/

theorem exec_stationMove_live (hlive : s.blockLive 0 = true) : exec .stationMove s = .next s.stationMove := congrArg _ (if_pos hlive)

/-- The READY items that a station may take and no free hub core could (R92). -/
def State.movable (s : State) : List (Nat × Item) :=
  s.wdx.items.filter fun x => x.2.st == .ready && !s.hubTakes x.2.d && (s.stationFor x.2.d).isSome

theorem stationMove_none (h : firstItem s.movable = none) : s.stationMove = s := by
  unfold State.movable at h
  simp only [State.stationMove, h]

theorem stationMove_some {n d : Nat} {i : Item} (h : firstItem s.movable = some (n, i)) (hd : s.stationFor i.d = some d) :
    s.stationMove = { s with wdx := s.wdx.updItem n fun y => { y with st := .station d } } := by
  unfold State.movable at h
  simp only [State.stationMove, h, hd]

theorem stationMove_rest (s : State) : { s.stationMove with wdx := s.wdx } = s := by
  unfold State.stationMove
  split
  · rfl
  · split <;> rfl

/-- The clause of O14 on stations (R92). -/
theorem stationMove_moves (hlive : s.blockLive 0 = true) : Answers .stationMove s fun t => { t with wdx := s.wdx } = s ∧
    (firstItem s.movable = none → t = s) ∧ ∀ n i d, firstItem s.movable = some (n, i) → s.stationFor i.d = some d →
      (∀ j, (s.wdx.slot n).item = some j → (t.wdx.slot n).item = some { j with st := .station d }) ∧
      ∀ m, m ≠ n → t.wdx.slot m = s.wdx.slot m := by
  rw [answers_iff_of_exec (exec_stationMove_live hlive)]
  refine ⟨stationMove_rest s, stationMove_none, fun n i d hnext hd => ?_⟩
  rw [stationMove_some hnext hd]
  refine ⟨fun j hj => ?_, fun m hm => ?_⟩
  · rw [slot_updItem, if_pos rfl, hj, Option.map_some]
  · rw [slot_updItem, if_neg hm]

/-! ### Held events -/

theorem exec_heldEventAccept_live (hlive : s.blockLive 0 = true) : exec .heldEventAccept s = .next s.acceptHeld.settled :=
  congrArg _ (if_pos hlive)

theorem State.sameBut.sys {t : State} (h : s.sameBut t) : t.sys = s.sys := by
  have k := congrArg State.sys (show { t with regs := s.regs, memDie := s.memDie, fb := s.fb, wdx := s.wdx } = s from h)
  exact k

theorem acceptHeld_same (s : State) : s.sameBut s.acceptHeld := by
  unfold State.acceptHeld
  split
  · rfl
  · exact takeHeld_same ..

theorem mem_settle (fuel : Nat) (s : State) : (settle fuel s).mem = s.mem := by
  induction fuel generalizing s with
  | zero => rfl
  | succ fuel ih =>
    unfold settle
    split
    · rfl
    · next c x _ =>
      have hsame : s.sameBut (if x.delay.isNone then s.acceptFor x.d.prio else s) := ite_same (acceptAt_same ..) rfl
      generalize (if x.delay.isNone then s.acceptFor x.d.prio else s) = t at hsame
      dsimp only
      split
      · exact hsame.mem
      · next n _ =>
        obtain ⟨hmem, -⟩ := placePost_keeps t c x.rd x.d x.delay n
        rw [ih]
        split_ifs
        · exact hmem.trans hsame.mem
        · exact hsame.mem

theorem byte_settled (s : State) (a : Nat) : s.settled.byte a = s.byte a := congrArg (fun m => Table.get memDefault m a) (mem_settle 80 s)

/-- The event that was held first is the one that WDX takes, if it can (R94). -/
theorem nextHeld_head {h : Held} {d : Desc} (hhead : s.wdx.held.head? = some h) (hkind : s.evKind h.entry = 1)
    (htemp : s.template h.entry = some d) (hroom : s.listFull d.prio = false) : s.nextHeld (fun _ => true) = some h := by
  obtain ⟨l, hheld⟩ := List.head?_eq_some_iff.1 hhead
  simp [State.nextHeld, hheld, heldHeads, hkind, htemp, hroom]

theorem createEvt_placed {e word count n : Nat} {d : Desc} {dl : Option Nat} (hslot : s.wdx.freeSlot = some n) :
    s.createEvt e word count d dl false =
      s.arrive n { d with tag := word % 2 ^ 24 + min count 255 * 2 ^ 24, deadline := dl.getD d.deadline } none := by
  simp only [State.createEvt, hslot, Bool.false_eq_true, if_false]

/-- The event that is taken leaves the queue, and the first free slot holds its item (R94, R96). -/
theorem acceptHeld_taken {h : Held} {d : Desc} {n : Nat} (hhead : s.wdx.held.head? = some h) (hkind : s.evKind h.entry = 1)
    (htemp : s.template h.entry = some d) (hroom : s.listFull d.prio = false) (hslot : s.wdx.freeSlot = some n) :
    s.acceptHeld.wdx.held = s.wdx.held.tail ∧ (s.acceptHeld.wdx.slot n).item.isSome = true := by
  let u : State := { s with wdx := { s.wdx with held := s.wdx.held.erase h } }
  have htake : s.acceptHeld = u.createEvt h.entry h.word 0 d none false := by
    simp only [State.acceptHeld, nextHeld_head hhead hkind htemp hroom, State.takeHeld, htemp, u]
  have harr := arrived_arrive u n { d with tag := h.word % 2 ^ 24 + min 0 255 * 2 ^ 24, deadline := (none : Option Nat).getD d.deadline } none
  have hfree : u.wdx.freeSlot = some n := hslot
  rw [htake, createEvt_placed hfree, harr.held]
  obtain ⟨l, hheld⟩ := List.head?_eq_some_iff.1 hhead
  obtain ⟨i, hi, -⟩ := harr.item
  refine ⟨?_, Option.isSome_iff_exists.2 ⟨i, hi⟩⟩
  show s.wdx.held.erase h = s.wdx.held.tail
  rw [hheld, List.erase_cons_head, List.tail_cons]

/-- The clause of O14 on held events (R94); the slot of the item is the model's choice (assumption log 26), its order log 28. -/
theorem heldEventAccept_takes (hlive : s.blockLive 0 = true) : Answers .heldEventAccept s fun t => (∀ a, t.byte a = s.byte a) ∧
    (s.coreList.all (fun c => (s.core c).stall.isNone) = true → (∀ c r, t.reg c r = s.reg c r) ∧ (s.wdx.held = [] → t = s) ∧
      ∀ h d n, s.wdx.held.head? = some h → s.evKind h.entry = 1 → s.template h.entry = some d → s.listFull d.prio = false →
        s.wdx.freeSlot = some n → t.wdx.held = s.wdx.held.tail ∧ (t.wdx.slot n).item.isSome = true) := by
  have hsame := acceptHeld_same s
  rw [answers_iff_of_exec (exec_heldEventAccept_live hlive)]
  refine ⟨fun a => (byte_settled ..).trans (hsame.byte a), fun hstall => ?_⟩
  rw [settled_eq_self_of_cores s.acceptHeld hsame.sys hsame.cores hstall]
  refine ⟨fun c r => by rw [State.reg, hsame.core]; rfl, fun hnone => ?_, fun h d n hhead hkind htemp hroom hslot => ?_⟩
  · simp only [State.acceptHeld, State.nextHeld, hnone, heldHeads, List.find?_nil]
  · exact acceptHeld_taken hhead hkind htemp hroom hslot

/-! ### Pending firings -/

theorem exec_pendQueue_live (e : Nat) (hlive : s.blockLive 0 = true) : exec (.pendQueue e) s = .next (s.queuePend e) := congrArg _ (if_pos hlive)

theorem queuePend_same (s : State) (e : Nat) : s.sameBut (s.queuePend e) := by
  unfold State.queuePend
  split
  · split_ifs
    · rfl
    · split
      · exact State.sameBut.trans (t := { s with wdx := s.wdx.setPend e .idle }) rfl (log_same ..)
      · exact ite_same rfl (createEvt_same ..)
  · rfl

theorem queuePend_otherKind {e : Nat} (h : s.evKind e ≠ 1) : s.queuePend e = s := by
  unfold State.queuePend
  split
  · exact if_pos h
  · rfl

theorem queuePend_notWaiting {e : Nat} (h : ∀ w k, s.wdx.pendOf e ≠ .waiting w k) : s.queuePend e = s := by
  unfold State.queuePend
  split
  · next w k hw => exact absurd hw (h w k)
  · rfl

section
variable {e w k : Nat} {d : Desc} (hpend : s.wdx.pendOf e = .waiting w k) (hkind : s.evKind e = 1) (htemp : s.template e = some d)
include hpend hkind htemp

theorem queuePend_full (hfull : s.listFull d.prio = true) : s.queuePend e = s := by
  simp [State.queuePend, hpend, hkind, htemp, hfull]

/-- The pending firing becomes an item with its word and count in TAG, and PEND names its slot (R95, R97). -/
theorem queuePend_queued {n : Nat} (hroom : s.listFull d.prio = false) (hslot : s.wdx.freeSlot = some n) :
    (s.queuePend e).wdx.pendOf e = .queued n ∧
      (((s.queuePend e).wdx.slot n).item.map fun i => (i.d.tag, i.evt)) = some (w % 2 ^ 24 + min k 255 * 2 ^ 24, some e) ∧
      { s.queuePend e with wdx := s.wdx } = s := by
  let d' : Desc := { d with tag := w % 2 ^ 24 + min k 255 * 2 ^ 24 }
  let t := s.arrive n d' (some e)
  have hqueue : s.queuePend e = { t with wdx := t.wdx.setPend e (.queued n) } := by
    simp [State.queuePend, hpend, hkind, htemp, hroom, State.createEvt, hslot, t, d']
  obtain ⟨i, hi, hd, hevt, -⟩ := (arrived_arrive s n d' (some e)).item
  rw [hqueue]
  refine ⟨pendOf_setPend .., ?_, arrive_rest ..⟩
  show (t.wdx.slot n).item.map _ = _
  rw [hi, Option.map_some, hd, hevt]

end

/-- The clause of O14 on pending firings (R95, R97). -/
theorem pendQueue_queues (e : Nat) (hlive : s.blockLive 0 = true) : Answers (.pendQueue e) s fun t =>
    (∀ a, t.byte a = s.byte a) ∧ t.cores = s.cores ∧ (s.evKind e ≠ 1 → t = s) ∧ ((∀ w k, s.wdx.pendOf e ≠ .waiting w k) → t = s) ∧
      ∀ w k d n, s.wdx.pendOf e = .waiting w k → s.evKind e = 1 → s.template e = some d →
        (s.listFull d.prio = true → t = s) ∧
        (s.listFull d.prio = false → s.wdx.freeSlot = some n → t.wdx.pendOf e = .queued n ∧
          ((t.wdx.slot n).item.map fun i => (i.d.tag, i.evt)) = some (w % 2 ^ 24 + min k 255 * 2 ^ 24, some e) ∧ { t with wdx := s.wdx } = s) := by
  have hsame := queuePend_same s e
  rw [answers_iff_of_exec (exec_pendQueue_live e hlive)]
  exact ⟨hsame.byte, hsame.cores, queuePend_otherKind, queuePend_notWaiting, fun w k d n hpend hkind htemp =>
    ⟨queuePend_full hpend hkind htemp, queuePend_queued hpend hkind htemp⟩⟩

end Sys2Proof.Machine
end

section
/-! SUPPORT. A slot table out of order, which lets an entry of the delay list expire twice (R99). -/

namespace Sys2Proof.Machine

/-- An item that is due at tick 1. -/
def dueAtOne : Item := { d := {}, st := .delayed 0 1, arr := 0 }

/-- Slot 5 stands before slot 4, whose item is due; a new item in slot 4 would stand before both. -/
def unsortedSlots : State where
  sys := { porst := false }
  wdx := { ticks := 1, slots := [(5, { item := some { d := {}, st := .running 0 0, arr := 0 } }), (4, { item := some dueAtOne })] }

/-- The old entry of slot 4 stays in the list behind the new one, so it is found again and arrives twice. -/
theorem two_le_arrival_expire_unsortedSlots {k : Nat} (hk : 2 ≤ k) : 2 ≤ (expire 1 k [] unsortedSlots).wdx.arrival := by
  obtain ⟨fuel, rfl⟩ := Nat.exists_eq_add_of_le' hk
  let once := unsortedSlots.arrive 4 {} none
  have hfirst : expire 1 (fuel + 2) [] unsortedSlots = expire 1 (fuel + 1) [] once := expire_first (i := dueAtOne) (by decide) (by decide)
  have hsecond : expire 1 (fuel + 1) [] once = expire 1 fuel [] (once.arrive 4 {} none) := expire_first (i := dueAtOne) (by decide) (by decide)
  rw [hfirst, hsecond]
  exact (by decide : 2 ≤ (once.arrive 4 {} none).wdx.arrival).trans (arrival_le_expire ..)

theorem two_le_arrival_expireTo_unsortedSlots : 2 ≤ (unsortedSlots.expireTo 1).wdx.arrival := by
  rw [arrival_expireTo (by decide)]
  exact two_le_arrival_expire_unsortedSlots (by decide)

/-- Refutes O14 at its clause on the delay list, which speaks of every state, also of one whose slot table is out of order: in `unsortedSlots`
the entry that is due arrives more than once. That clause holds with the slots in canonical form (`delayExpiry_moves`), and the others in every
state (`stationMove_moves`, `heldEventAccept_takes`, `pendQueue_queues`). -/
theorem not_dispatcherMoves : ¬ Obligations.DispatcherMoves := by
  intro h
  have hlive : unsortedSlots.blockLive 0 = true := by decide
  obtain ⟨⟨t, ht, -, -, -, hone⟩, -⟩ := h unsortedSlots hlive
  have hexpire : t = unsortedSlots.expireTo 1 := Host.Outcome.next.inj (ht.symm.trans (exec_delayExpiry_live hlive))
  have harrive := congrArg Wdx.arrival (hone 4 dueAtOne (by decide) (by decide) (by decide))
  have harrival : t.wdx.arrival = (unsortedSlots.arrive 4 {} none).wdx.arrival := harrive
  have htwice := two_le_arrival_expireTo_unsortedSlots
  rw [← hexpire, harrival] at htwice
  exact absurd htwice (by decide)

end Sys2Proof.Machine
end

section
/-! SUPPORT. The events at Traverse's inputs: an axis or encoder input that was replaced, a stored bit that was written, and what each
event answers once its trigger holds (R117, R134, R138, R140). -/

namespace Sys2Proof.Machine

variable {s : State} {d n : Nat}

/-! ### Axes, encoder inputs and register bits after a write -/

@[simp] theorem trvAx_setTrvAx_same (s : State) (d n : Nat) (a : TrvAx) : (s.setTrvAx d n a).trvAx d n = a := by
  simp [State.trvAx, State.setTrvAx]

@[simp] theorem encOf_setEnc_same (s : State) (n : Nat) (x : Enc) : (s.setEnc n x).encOf n = x := by
  simp [State.encOf, State.setEnc]

theorem fld_setFld_same (v lo w x : Nat) : fld (setFld v lo w x) lo w = x % 2 ^ w := by
  let q := v / 2 ^ lo
  have hsplit : setFld v lo w x = v % 2 ^ lo + 2 ^ lo * (2 ^ w * (q / 2 ^ w) + x % 2 ^ w) := by
    have hv : v = v % 2 ^ lo + 2 ^ lo * (2 ^ w * (q / 2 ^ w)) + q % 2 ^ w * 2 ^ lo :=
      calc v = v % 2 ^ lo + 2 ^ lo * (2 ^ w * (q / 2 ^ w) + q % 2 ^ w) := by rw [Nat.div_add_mod, Nat.mod_add_div]
        _ = _ := by ring
    have hcut : v - fld v lo w * 2 ^ lo = v % 2 ^ lo + 2 ^ lo * (2 ^ w * (q / 2 ^ w)) := Nat.sub_eq_of_eq_add hv
    rw [setFld, hcut]
    ring
  have hlow : v % 2 ^ lo / 2 ^ lo = 0 := Nat.div_eq_of_lt (Nat.mod_lt _ (Nat.two_pow_pos lo))
  rw [fld, hsplit, Nat.add_mul_div_left _ _ (Nat.two_pow_pos lo), hlow, Nat.zero_add, Nat.mul_add_mod, Nat.mod_mod]

theorem bitN_eq_testBit (v i : Nat) : bitN v i = v.testBit i := by
  rw [Nat.testBit_eq_decide_div_mod_eq, bitN, beq_eq_decide]

theorem bitN_eq_fld (v i : Nat) : bitN v i = (fld v i 1 == 1) := by rw [bitN, fld, pow_one]

/-- A bit reads as it was written. -/
theorem rb_setRf_same (s : State) (r x : Nat) {i : Nat} (hi : i < 32) : (s.setRf r i 1 x).rb r i = (x % 2 == 1) := by
  have hword : (s.setRf r i 1 x).rb r i = bitN (setFld (s.rd r).toNat i 1 x % 2 ^ 32) i := by
    simp [State.rb, State.setRf]
  have hmod (y : Nat) : bitN (y % 2 ^ 32) i = bitN y i := by
    simp only [bitN_eq_testBit, Nat.testBit_mod_two_pow, hi, decide_true, Bool.true_and]
  rw [hword, hmod, bitN_eq_fld, fld_setFld_same, pow_one]

/-! ### Axis events -/

theorem exec_jogTimeout_due (hlive : s.blockLive d = true) (hst : (s.trvAx d n).st = .jog)
    (hold : jogLimit s.mer.cycleLen ≤ (s.trvAx d n).jogAge + 1) :
    exec (.jogTimeout d n) s = .next (s.setTrvAx d n { s.trvAx d n with jogOut := true }) :=
  congrArg _ (if_pos (by simp [hlive, hst, hold]))

/-- R134's condition for a debounced input to change. -/
theorem expire_due {b : Debounce} {need : Nat} (hseen : b.seen = true) (hne : b.last ≠ b.level) (hneed : need ≤ b.diff) :
    b.expire need = { b with level := b.last, diff := 0 } :=
  if_pos (by simp [hseen, hne, hneed])

/-- The axis after the debounce of one of its inputs: 0 LIMP, 1 LIMN, 2 REF. -/
def TrvAx.debounced (a : TrvAx) (need : Nat) : Fin 3 → TrvAx
  | 0 => { a with limp := a.limp.expire need }
  | 1 => { a with limn := a.limn.expire need }
  | 2 => { a with ref := a.ref.expire need }

theorem exec_debounceExpiry_live (hlive : s.blockLive d = true) (hd : d ≤ 6) (hn : n < trvAxes d) (input : Fin 3) :
    exec (.debounceExpiry d n input) s =
      .next (s.setTrvAx d n ((s.trvAx d n).debounced (ceilDiv ((s.trvAx d n).num' 0x22 * 1000) s.mer.cycleLen) input)) := by
  have hcond : ¬ (!s.blockLive d || decide (6 < d) || decide (trvAxes d ≤ n)) = true := by simp [hlive, hd, hn]
  match input with
  | 0 | 1 | 2 => exact congrArg _ (if_neg hcond)

/-- R138: the axis shows the stall, and action 1 raises FLAG.STALLSEEN. -/
theorem exec_stall_due (hlive : s.blockLive d = true) (hact : fld ((s.trvAx d n).num' 0x24) 24 2 ≠ 0)
    (hcnt : fld ((s.trvAx d n).num' 0x24) 16 8 ≤ (s.trvAx d n).stallN)
    (hth : sxt 16 (fld ((s.trvAx d n).num' 0x24) 0 16) ≤ (s.trvAx d n).load) (hoff : (s.trvAx d n).stall = false) :
    exec (.stall d n) s = .next (
      if fld ((s.trvAx d n).num' 0x24) 24 2 = 1 then (s.setTrvAx d n { s.trvAx d n with stall := true }).setRf (trvReg d n 0x14) 6 1 1
      else s.setTrvAx d n { s.trvAx d n with stall := true }) :=
  congrArg _ (if_pos (by simp [hlive, hact, hcnt, hth, hoff]))

theorem stall_eq_self {a : TrvAx} {b : Bool} (h : a.stall = b) : { a with stall := b } = a := by
  subst h
  rfl

/-- Whatever the action, only the stall bit of the axis changes, besides the registers. -/
theorem stall_sets (hlive : s.blockLive d = true) (hact : fld ((s.trvAx d n).num' 0x24) 24 2 ≠ 0)
    (hcnt : fld ((s.trvAx d n).num' 0x24) 16 8 ≤ (s.trvAx d n).stallN)
    (hth : sxt 16 (fld ((s.trvAx d n).num' 0x24) 0 16) ≤ (s.trvAx d n).load) (hoff : (s.trvAx d n).stall = false) :
    Answers (.stall d n) s fun t => (t.trvAx d n).stall = true ∧ { t.trvAx d n with stall := false } = s.trvAx d n ∧
      { t with trv := s.trv, regs := s.regs } = s ∧
      (fld ((s.trvAx d n).num' 0x24) 24 2 = 1 → t.rb (trvReg d n 0x14) 6 = true) := by
  let u := s.setTrvAx d n { s.trvAx d n with stall := true }
  have haxis : (u.trvAx d n).stall = true ∧ { u.trvAx d n with stall := false } = s.trvAx d n := by
    rw [trvAx_setTrvAx_same]
    exact ⟨rfl, stall_eq_self hoff⟩
  refine ⟨_, exec_stall_due hlive hact hcnt hth hoff, ?_⟩
  by_cases h1 : fld ((s.trvAx d n).num' 0x24) 24 2 = 1
  · rw [if_pos h1]
    exact ⟨haxis.1, haxis.2, rfl, fun _ => rb_setRf_same u _ 1 (by decide)⟩
  · rw [if_neg h1]
    exact ⟨haxis.1, haxis.2, rfl, fun h => absurd h h1⟩

/-! ### Encoder events -/

variable {k : Fin 16}

theorem exec_idxArm_live (hlive : s.blockLive 0 = true) : exec (.idxArm k) s = .next (s.setRf (encCtl k.val) 3 1 1) :=
  congrArg _ (if_pos hlive)

theorem exec_indexCapture_armed (hlive : s.blockLive 0 = true) (harm : s.rb (encCtl k.val) 3 = true) :
    exec (.indexCapture k) s =
      .next ((s.setEnc k.val { s.encOf k.val with idx := (s.encOf k.val).count, idxNew := true }).setRf (encCtl k.val) 3 1 0) :=
  congrArg _ (if_pos (by simp [hlive, harm]))

section
variable {a b : Bool}

/-- One step along the sequence 00, 10, 11, 01 counts up while INV is 0 (R140). -/
theorem exec_encoderTransition_forward (hlive : s.blockLive 0 = true) (hinv : s.rb (encCtl k.val) 2 = false)
    (hstep : (quad a b + 4 - quad (s.encOf k.val).a (s.encOf k.val).b) % 4 = 1) :
    exec (.encoderTransition k a b) s =
      .next (s.setEnc k.val { s.encOf k.val with a := a, b := b, count := (s.encOf k.val).count + 1 }) := by
  show execEncoderTransition k a b s = _
  simp [execEncoderTransition, hlive, hstep, hinv]

/-- One step against the sequence counts down while INV is 0 (R140). -/
theorem exec_encoderTransition_backward (hlive : s.blockLive 0 = true) (hinv : s.rb (encCtl k.val) 2 = false)
    (hstep : (quad a b + 4 - quad (s.encOf k.val).a (s.encOf k.val).b) % 4 = 3) :
    exec (.encoderTransition k a b) s =
      .next (s.setEnc k.val { s.encOf k.val with a := a, b := b, count := (s.encOf k.val).count - 1 }) := by
  show execEncoderTransition k a b s = _
  simp [execEncoderTransition, hlive, hstep, hinv]

/-- Both inputs at once leave the count and set ERR (R140). -/
theorem exec_encoderTransition_both (hlive : s.blockLive 0 = true)
    (hstep : (quad a b + 4 - quad (s.encOf k.val).a (s.encOf k.val).b) % 4 = 2) :
    exec (.encoderTransition k a b) s = .next ((s.setEnc k.val { s.encOf k.val with a := a, b := b }).setRf (encCtl k.val) 4 1 1) := by
  show execEncoderTransition k a b s = _
  simp [execEncoderTransition, hlive, hstep]

end

/-- Settles O18: each event answers by one update of its axis or encoder input, and the bits written with it read back. -/
theorem traverseInputEvents : Obligations.TraverseInputEvents := by
  intro s d n k hd hn a x
  refine ⟨fun hlive => ?axis, fun hlive => ?encoder⟩
  case axis =>
    have hdeb := exec_debounceExpiry_live hlive hd hn
    refine ⟨fun hst hold => ⟨_, exec_jogTimeout_due hlive hst hold, rfl⟩, fun hseen hne hneed => ⟨_, hdeb 0, ?_⟩,
      fun hseen hne hneed => ⟨_, hdeb 1, ?_⟩, fun hseen hne hneed => ⟨_, hdeb 2, ?_⟩, stall_sets hlive⟩
    iterate 3 rw [TrvAx.debounced, expire_due hseen hne hneed]
  case encoder =>
    refine ⟨⟨_, exec_idxArm_live hlive, rb_setRf_same s _ 1 (by decide), rfl⟩, fun harm => ?capture, fun hinv ha hb => ?step⟩
    case capture =>
      exact ⟨_, exec_indexCapture_armed hlive harm, encOf_setEnc_same .., rb_setRf_same _ _ 0 (by decide), rfl⟩
    case step =>
      have hquad : quad x.a x.b = 0 := by rw [ha, hb]; rfl
      refine ⟨⟨_, exec_encoderTransition_forward hlive hinv (by rw [hquad]; rfl), ?_, rfl⟩,
        ⟨_, exec_encoderTransition_backward hlive hinv (by rw [hquad]; rfl), ?_, rfl⟩,
        ⟨_, exec_encoderTransition_both hlive (by rw [hquad]; rfl), encOf_setEnc_same .., rb_setRf_same _ _ 1 (by decide)⟩⟩
      · rw [encOf_setEnc_same, ← hb]
      · rw [encOf_setEnc_same, ← ha]

end Sys2Proof.Machine
end

section
/-! SUPPORT. The frame of a write by an engine: the bytes that it may touch, and beside them only what its accesses report. -/

namespace Sys2Proof.Machine

variable {s t u : State}

/-! ### The frame of a write -/

/-- `t` is `s` but for the bytes of SRAM where `p` holds, the symbols of SRAM and what the accesses report. -/
structure State.wroteIn (s t : State) (p : Nat → Prop) : Prop where
  byte : ∀ a, ¬ p a → t.byte a = s.byte a
  rest : { t with mem := s.mem, ecc := s.ecc, regs := s.regs, memDie := s.memDie, fb := s.fb, wdx := s.wdx } = s

variable {p q : Nat → Prop}

theorem State.sameBut.wroteIn (h : s.sameBut t) (p : Nat → Prop) : s.wroteIn t p where
  byte a _ := h.byte a
  rest := congrArg (fun x => { x with mem := s.mem, ecc := s.ecc }) h

theorem State.wroteIn.trans (h : s.wroteIn t p) (k : t.wroteIn u p) : s.wroteIn u p where
  byte a ha := (k.byte a ha).trans (h.byte a ha)
  rest := by
    have hs := h.rest
    rw [← k.rest] at hs
    exact hs

theorem State.wroteIn.mono (h : s.wroteIn t p) (hpq : ∀ a, p a → q a) : s.wroteIn t q where
  byte a ha := h.byte a fun hp => ha (hpq a hp)
  rest := h.rest

theorem State.wroteIn.cores (h : s.wroteIn t p) : t.cores = s.cores := by
  have k := congrArg State.cores h.rest
  exact k

theorem State.wroteIn.core (h : s.wroteIn t p) (c : CoreId) : t.core c = s.core c := by rw [State.core, h.cores, State.core]

theorem State.wroteIn.triOf (h : s.wroteIn t p) (d : Nat) : t.triOf d = s.triOf d := by
  have k := congrArg (fun x => State.triOf x d) h.rest
  exact k

theorem State.sameBut.triOf (h : s.sameBut t) (d : Nat) : t.triOf d = s.triOf d := (h.wroteIn fun _ => False).triOf d

theorem State.sameBut.mer (h : s.sameBut t) : t.mer = s.mer := by
  have k := congrArg State.mer h
  exact k

theorem State.sameBut.bytes (h : s.sameBut t) (a n : Nat) : t.bytes a n = s.bytes a n := List.map_congr_left fun _ _ => h.byte _

theorem State.sameBut.sramRange (h : s.sameBut t) (a n : Nat) : t.sramRange a n = s.sramRange a n := by
  have hfit (d : Nat) : t.dieFitted d = s.dieFitted d := by rw [State.dieFitted, State.sheetFitted, h.sys]; rfl
  simp only [State.sramRange, hfit]

/-! ### Writes -/

/-- The bytes of `l` at `a`. -/
def spans (a : Nat) (l : List Byte) (x : Nat) : Prop := a ≤ x ∧ x < a + l.length

theorem poke_wroteIn {a lo k : Nat} {l : List Byte} (hlo : a ≤ lo) (e : Table Nat) :
    s.wroteIn { s.poke lo ((l.drop (lo - a)).take k) with ecc := e } (spans a l) where
  byte x hx := by
    have hlen : ((l.drop (lo - a)).take k).length ≤ l.length - (lo - a) := by rw [List.length_take, List.length_drop]; omega
    refine (byte_poke s lo _ x).trans (if_neg fun h => hx ⟨?_, ?_⟩) <;> omega
  rest := rfl

/-- The part of a write that falls into one word lies in the write. -/
theorem writeWord_wroteIn (s : State) (w a : Nat) (l : List Byte) : s.wroteIn (s.writeWord w a l).1 (spans a l) := by
  have hnote := (noteOld_same s w).wroteIn (spans a l)
  have hlo : a ≤ max a (32 * w) := le_max_left ..
  unfold State.writeWord
  dsimp only
  split_ifs
  · exact (hnote.trans ((wakeBank_same ..).wroteIn _)).trans (poke_wroteIn hlo _)
  · exact (hnote.trans ((checkWord_same ..).wroteIn _)).trans (poke_wroteIn hlo _)
  · exact hnote.trans ((checkWord_same ..).wroteIn _)

theorem writeWords_wroteIn (a : Nat) (l : List Byte) (ws : List Nat) (s : State) : s.wroteIn (writeWords a l ws s).1 (spans a l) := by
  induction ws generalizing s with
  | nil => exact State.sameBut.wroteIn (s := s) (t := s) rfl _
  | cons w ws ih => exact (writeWord_wroteIn s w a l).trans (ih _)

/-- A write by port 1 touches its own bytes alone. -/
theorem writeMem_wroteIn (s : State) (a : Nat) (l : List Byte) : s.wroteIn (s.writeMem a l).1 (spans a l) :=
  (writeWords_wroteIn a l (wordsOf a l.length) s).trans ((noteCollisions_same (wordsOf a l.length) _).wroteIn _)

/-- A write that is left out where a die does not answer touches no more than its own bytes. -/
theorem writeAnswered_wroteIn (s : State) (a n : Nat) (l : List Byte) :
    s.wroteIn (if s.rangeAnswers a n then (s.writeMem a l).1 else s) (spans a l) := by
  split_ifs
  · exact writeMem_wroteIn ..
  · exact State.sameBut.wroteIn (s := s) (t := s) rfl _

/-- A firing that is held changes the dispatcher and the Field Book alone. -/
theorem fireHeld_same (s : State) (src : EvSrc) (e word : Nat) : s.sameBut (s.fireHeld src e word) := by
  unfold State.fireHeld
  refine (fired_same s e).trans ?_
  dsimp only
  split_ifs
  · rfl
  · exact log_same ..
  · split
    · exact log_same ..
    · exact ite_same rfl (createEvt_same ..)

end Sys2Proof.Machine
end

section
/-! SUPPORT. The items of a batch: what the start of the items that may start leaves unchanged, and what the end of an item writes
(R170, R172, R186, R187). -/

namespace Sys2Proof.Machine

variable {s t u : State} {d i : Nat} {b : TriBatch}

/-! ### Items that start -/

/-- `g` lets items of a batch start and changes nothing else of it. -/
def Grows (g : TriBatch → TriBatch) : Prop := ∀ x, ∃ l, g x = { x with started := x.started ++ l }

theorem grows_id : Grows id := fun x => ⟨[], by rw [List.append_nil]; rfl⟩

theorem Grows.comp {f g : TriBatch → TriBatch} (hf : Grows f) (hg : Grows g) : Grows (g ∘ f) := by
  intro x
  obtain ⟨l, hl⟩ := hf x
  obtain ⟨m, hm⟩ := hg (f x)
  exact ⟨l ++ m, by rw [Function.comp_apply, hm, hl, List.append_assoc]⟩

/-- `t` is `s`, of whose TRI on die `d` more items may have started; a mismatch of signatures is counted. -/
structure State.startedMore (s t : State) (d : Nat) : Prop where
  rest : { t with tri := s.tri, regs := s.regs } = s
  slots : (t.triOf d).slots = (s.triOf d).slots
  queue : ∃ g, Grows g ∧ (t.triOf d).queue = (s.triOf d).queue.map g

theorem State.startedMore.refl (s : State) (d : Nat) : s.startedMore s d := ⟨rfl, rfl, id, grows_id, (List.map_id _).symm⟩

theorem State.startedMore.trans (h : s.startedMore t d) (k : t.startedMore u d) : s.startedMore u d where
  rest := by
    have hs := h.rest
    rw [← k.rest] at hs
    exact hs
  slots := k.slots.trans h.slots
  queue := by
    obtain ⟨f, hf, hfq⟩ := h.queue
    obtain ⟨g, hg, hgq⟩ := k.queue
    exact ⟨g ∘ f, hf.comp hg, by rw [hgq, hfq, List.map_map]⟩

theorem State.startedMore.count (h : s.startedMore t d) (r lo w n : Nat) : s.startedMore (t.count r lo w n) d := ⟨h.rest, h.slots, h.queue⟩

theorem State.startedMore.cores (h : s.startedMore t d) : t.cores = s.cores := by
  have k := congrArg State.cores h.rest
  exact k

theorem State.startedMore.byte (h : s.startedMore t d) (a : Nat) : t.byte a = s.byte a := by
  have k := congrArg (fun x => State.byte x a) h.rest
  exact k

/-- What does not look at the items that have started reads the queue as before. -/
theorem State.startedMore.map_queue {α : Type} (h : s.startedMore t d) {f : TriBatch → α} (hf : ∀ x l, f { x with started := l } = f x) :
    (t.triOf d).queue.map f = (s.triOf d).queue.map f := by
  obtain ⟨g, hg, hq⟩ := h.queue
  rw [hq, List.map_map]
  refine List.map_congr_left fun x _ => ?_
  obtain ⟨l, hl⟩ := hg x
  rw [Function.comp_apply, hl, hf]

/-- A batch in which an item starts if it runs. -/
def TriBatch.withItem (p : TriStart) (y : TriBatch) : TriBatch := if y.run then { y with started := y.started ++ [p] } else y

theorem grows_withItem (p : TriStart) : Grows (TriBatch.withItem p) := by
  intro x
  unfold TriBatch.withItem
  split_ifs
  · exact ⟨[p], rfl⟩
  · exact grows_id x

/-- What item `t` starts with: τ and its slot's solution as they stand (R178, R187). -/
def State.triStarting (s : State) (d : Nat) (t : TriItem) : TriStart :=
  let w := if s.triGood t && t.isIter then ((s.triOf d).slot t.slot).warm t else ([], 0)
  { item := t, tau := (s.triOf d).tau, sol := w.1, flags := w.2 }

/-- The item starts in the running batch. -/
def State.triLaunch (s : State) (d : Nat) (p : TriStart) : State := s.updTri d fun x => { x with queue := x.queue.map (TriBatch.withItem p) }

theorem startedMore_triLaunch (s : State) (d : Nat) (p : TriStart) : s.startedMore (s.triLaunch d p) d where
  rest := updTri_rest s d _ s.tri
  slots := by rw [State.triLaunch, triOf_updTri]
  queue := ⟨_, grows_withItem p, by rw [State.triLaunch, triOf_updTri]⟩

/-- The next item of the running batch starts where it may, and a mismatch of signatures is counted (R170, R187). -/
theorem triStartNext_of_may (hb : s.triBatch d = some b) (hmay : s.triMay b (s.triItem b b.started.length) = true) :
    let p := s.triStarting d (s.triItem b b.started.length)
    s.triStartNext d = if p.flags = 0x400 then (s.triLaunch d p).count (triReg d 0x20) 0 16 else s.triLaunch d p := by
  unfold State.triStartNext
  simp only [hb, hmay, Bool.not_true, Bool.false_eq_true, if_false]
  rfl

theorem triStartNext_of_mayNot (hb : s.triBatch d = some b) (hmay : s.triMay b (s.triItem b b.started.length) = false) :
    s.triStartNext d = s := by
  unfold State.triStartNext
  simp only [hb, hmay, Bool.not_false, if_true]

theorem triStartNext_of_none (hb : s.triBatch d = none) : s.triStartNext d = s := by
  unfold State.triStartNext
  rw [hb]

theorem startedMore_triStartNext (s : State) (d : Nat) : s.startedMore (s.triStartNext d) d := by
  cases hb : s.triBatch d with
  | none =>
    rw [triStartNext_of_none hb]
    exact .refl s d
  | some b =>
    cases hmay : s.triMay b (s.triItem b b.started.length) with
    | false =>
      rw [triStartNext_of_mayNot hb hmay]
      exact .refl s d
    | true =>
      rw [triStartNext_of_may hb hmay]
      split_ifs
      · exact (startedMore_triLaunch ..).count ..
      · exact startedMore_triLaunch ..

theorem startedMore_foldl (d : Nat) (l : List Nat) (s : State) : s.startedMore (l.foldl (fun t _ => t.triStartNext d) s) d := by
  induction l generalizing s with
  | nil => exact .refl s d
  | cons _ l ih => exact (startedMore_triStartNext s d).trans (ih _)

theorem startedMore_triStartItems (s : State) (d : Nat) : s.startedMore (s.triStartItems d) d := startedMore_foldl d (List.range 4) s

/-! ### An item that ends -/

/-- A batch in which item `i` has ended with a status, if it runs. -/
def TriBatch.withEnd (i status ns : Nat) (y : TriBatch) : TriBatch :=
  if y.run then { y with ended := y.ended.put i status, last := ns } else y

/-- The bytes that the end of an item writes: its outputs and the 16 bytes of its status words (R172). -/
def itemBytes (b : TriBatch) (i : Nat) (outs : List (Nat × List Byte)) (a : Nat) : Prop :=
  (∃ o ∈ outs, spans o.1 o.2 a) ∨ (b.items + 64 * i + 48 ≤ a ∧ a < b.items + 64 * i + 64)

theorem writeOuts_wroteIn (outs : List (Nat × List Byte)) (s : State) : s.wroteIn (writeOuts outs s).1 fun a => ∃ o ∈ outs, spans o.1 o.2 a := by
  induction outs generalizing s with
  | nil => exact State.sameBut.wroteIn (s := s) (t := s) rfl _
  | cons o outs ih =>
    have hfirst := (writeMem_wroteIn s o.1 o.2).mono (q := fun a => ∃ x ∈ o :: outs, spans x.1 x.2 a) fun a h => ⟨o, List.mem_cons_self .., h⟩
    unfold writeOuts
    dsimp only
    split_ifs
    · exact State.sameBut.wroteIn (s := s) (t := s) rfl _
    · exact hfirst.trans ((ih _).mono fun a ⟨x, hx, h⟩ => ⟨x, List.mem_cons_of_mem _ hx, h⟩)
    · exact hfirst

/-- The status that an item ends with: MEMERR takes the place of its result's when an output cannot be written (R174). -/
def State.endStatus (s : State) (r : TriRes) : Nat := (if (writeOuts r.outs s).2 then r.istat else 5) + r.flags

/-- What the end of an item counts: its regularised pivots, and a missed deadline (R178, R190). -/
def State.triCounted (s : State) (d ist regs : Nat) : State :=
  let t := s.count (triReg d 0x20) 16 16 regs
  if ist = 2 then t.count (triReg d 0x24) 0 16 else t

theorem triCounted_same (s : State) (d ist regs : Nat) : s.sameBut (s.triCounted d ist regs) :=
  ite_same ((count_same ..).trans (count_same ..)) (count_same ..)

/-- The end of an item writes its outputs and status words, and tells its TRI (R170, R172, R186). -/
theorem triItemEnd_eq (s : State) (d i : Nat) (b : TriBatch) (t : TriItem) (r : TriRes) :
    ∃ u put, s.wroteIn u (itemBytes b i r.outs) ∧ (r.sol = none → put = id) ∧ s.triItemEnd d i b t r =
      u.updTri d fun x => { x with slots := put x.slots, queue := x.queue.map (TriBatch.withEnd i (s.endStatus r) u.upNs) } := by
  have houts := (writeOuts_wroteIn r.outs s).mono (q := itemBytes b i r.outs) fun _ => .inl
  unfold State.triItemEnd State.endStatus
  generalize writeOuts r.outs s = w at houts ⊢
  obtain ⟨v, ok⟩ := w
  dsimp only at houts ⊢
  refine ⟨_, fun x => if r.sol.isSome && ok then _ else x, ?_, ?_, rfl⟩
  · have hcount := (triCounted_same v d (if ok then r.istat else 5) r.regs.length).wroteIn (itemBytes b i r.outs)
    refine houts.trans (hcount.trans ((writeAnswered_wroteIn ..).mono fun a h => .inr ⟨h.1, ?_⟩))
    have hend := h.2
    simpa using hend
  · intro h
    funext x
    rw [h]
    rfl

end Sys2Proof.Machine
end

section
/-! SUPPORT. What the kernels of TRI answer, and the end of an item in its state (R172, R174, R178–R192). -/

namespace Sys2Proof.Machine

variable {s t u : State} {d i : Nat} {b : TriBatch}

/-! ### Kernels -/

/-- A result that a test chooses ends with a status where both choices do. -/
theorem istat_ite {c : Prop} [Decidable c] {x y : TriRes} (hx : x.istat ≠ 0) (hy : y.istat ≠ 0) : (if c then x else y).istat ≠ 0 := by
  split_ifs <;> assumption

theorem istat_runFact (s : State) (t : TriItem) (tau : Nat) : (s.runFact t tau).istat ≠ 0 :=
  istat_ite (Nat.succ_ne_zero _) (istat_ite (Nat.succ_ne_zero _) (Nat.succ_ne_zero _))

theorem istat_runTrs (s : State) (t : TriItem) (tau : Nat) : (s.runTrs t tau).istat ≠ 0 :=
  istat_ite (Nat.succ_ne_zero _) (istat_ite (Nat.succ_ne_zero _) (Nat.succ_ne_zero _))

theorem istat_runRefine (s : State) (t : TriItem) (x : List FV) (fl : Nat) : (s.runRefine t x fl).istat ≠ 0 :=
  istat_ite (Nat.succ_ne_zero _) (istat_ite (Nat.succ_ne_zero _) (Nat.succ_ne_zero _))

theorem istat_runBox (s : State) (t : TriItem) (tau : Nat) (x : List FV) (fl : Nat) (cut : Option Nat) (n : Nat) :
    (s.runBox t tau x fl cut n).istat ≠ 0 := by
  refine istat_ite (Nat.succ_ne_zero _) (istat_ite (Nat.succ_ne_zero _) (istat_ite (Nat.succ_ne_zero _) ?_))
  split <;> exact Nat.succ_ne_zero _

theorem istat_triCompute (s : State) (p : TriStart) (cut : Option Nat) (n : Nat) : (s.triCompute p cut n).istat ≠ 0 := by
  unfold State.triCompute
  split
  · exact istat_runTrs _ _ _
  · exact istat_runTrs _ _ _
  · exact istat_runRefine _ _ _ _
  · exact istat_runBox _ _ _ _ _ _ _
  · exact istat_runFact _ _ _

/-- The result of each kernel of R172 (R178–R185). -/
theorem triCompute_kernel {p : TriStart} (h1 : 1 ≤ p.item.kernel) (h8 : p.item.kernel ≤ 8) (cut : Option Nat) (n : Nat) :
    s.triCompute p cut n = if p.item.kernel ≤ 4 then s.runFact p.item p.tau else if p.item.kernel ≤ 6 then s.runTrs p.item p.tau
      else if p.item.kernel = 7 then s.runRefine p.item p.x p.flags else s.runBox p.item p.tau p.x p.flags cut n := by
  unfold State.triCompute
  generalize p.item.kernel = k at *
  interval_cases k <;> rfl

/-! ### What a started item ends with -/

theorem triFetch_same (s : State) (t : TriItem) : s.sameBut (s.triFetch t).1 := by
  unfold State.triFetch
  split_ifs
  · rfl
  · exact checkWords_same ..

theorem State.sameBut.triGood (h : s.sameBut t) (x : TriItem) : t.triGood x = s.triGood x := by simp only [State.triGood, h.sramRange]

/-- A cut batch ends its items with DLMISS or ABORTED (R190, R192). -/
theorem triCut_ne_zero {c : Nat} (h : s.triCut b = some c) : c ≠ 0 := by
  unfold State.triCut at h
  dsimp only at h
  split at h <;> split_ifs at h <;> cases h <;> exact Nat.succ_ne_zero _

section
variable {p : TriStart} {cut : Option Nat} {n : Nat}

/-- A started item reads memory alone, and ends with a status. -/
theorem triFinish_same (s : State) (b : TriBatch) (i : Nat) (p : TriStart) (n : Nat) :
    s.sameBut (s.triFinish b i p (s.triCut b) n).1 ∧ (s.triFinish b i p (s.triCut b) n).2.istat ≠ 0 := by
  have hread : s.sameBut (if s.rangeAnswers (b.items + 64 * i) 48 then s.readMem (b.items + 64 * i) 48 1 else (s, none)).1 := by
    split_ifs
    · exact readMem_same ..
    · rfl
  unfold State.triFinish
  generalize (if s.rangeAnswers (b.items + 64 * i) 48 then s.readMem (b.items + 64 * i) 48 1 else (s, none)) = w at hread
  obtain ⟨v, _ | l⟩ := w
  · exact ⟨hread, Nat.succ_ne_zero _⟩
  dsimp only
  split_ifs with hbad hend
  · exact ⟨hread, Nat.succ_ne_zero _⟩
  · refine ⟨hread, ?_⟩
    cases hcut : s.triCut b with
    | none => exact Nat.succ_ne_zero _
    | some c => exact triCut_ne_zero hcut
  · have hfetch := hread.trans (triFetch_same v p.item)
    generalize v.triFetch p.item = f at hfetch
    obtain ⟨u, _ | _⟩ := f
    · exact ⟨hfetch, Nat.succ_ne_zero _⟩
    · exact ⟨hfetch, istat_triCompute _ _ _ _⟩

section
variable (hread : s.readable (b.items + 64 * i) 48)
include hread

/-- An item whose fields were read goes on with the state after the read. -/
theorem triFinish_read : s.triFinish b i p cut n =
    let v := (s.readMem (b.items + 64 * i) 48 1).1
    if !s.triGood p.item then (v, { istat := 3 })
    else if cut.isSome && (p.item.kernel != 8 || n == 0) then (v, { istat := cut.getD 2, flags := p.flags })
    else if (v.triFetch p.item).2 then ((v.triFetch p.item).1, (v.triFetch p.item).1.triCompute p cut n)
    else ((v.triFetch p.item).1, { istat := 5, flags := p.flags }) := by
  have hgood := (readMem_same s (b.items + 64 * i) 48 1).triGood p.item
  have hmem : s.readMem (b.items + 64 * i) 48 1 = ((s.readMem (b.items + 64 * i) 48 1).1, some (s.bytes (b.items + 64 * i) 48)) :=
    Prod.ext rfl (readMem_readable s _ _ 1 hread)
  unfold State.triFinish
  rw [if_pos hread.1, hmem]
  dsimp only
  rw [hgood]
  generalize (s.readMem (b.items + 64 * i) 48 1).1.triFetch p.item = f
  obtain ⟨u, _ | _⟩ := f <;> rfl

theorem triFinish_bad (hbad : s.triGood p.item = false) :
    s.triFinish b i p cut n = ((s.readMem (b.items + 64 * i) 48 1).1, { istat := 3 }) := by
  rw [triFinish_read hread]
  simp only [hbad, Bool.not_false, if_true]

theorem triFinish_cut {c : Nat} (hgood : s.triGood p.item = true) (hcut : cut = some c) (hopen : p.item.kernel ≠ 8 ∨ n = 0) :
    s.triFinish b i p cut n = ((s.readMem (b.items + 64 * i) 48 1).1, { istat := c, flags := p.flags }) := by
  have hend : (cut.isSome && (p.item.kernel != 8 || n == 0)) = true := by simpa [hcut] using hopen
  rw [triFinish_read hread]
  simp only [hgood, Bool.not_true, Bool.false_eq_true, if_false, hend, if_true]
  rw [hcut, Option.getD_some]

theorem triFinish_computed (hgood : s.triGood p.item = true) (hrun : cut = none ∨ (p.item.kernel = 8 ∧ n ≠ 0)) :
    let v := (s.readMem (b.items + 64 * i) 48 1).1
    (v.triFetch p.item).2 = true →
      s.triFinish b i p cut n = ((v.triFetch p.item).1, (v.triFetch p.item).1.triCompute p cut n) := by
  intro v hfetch
  have hend : (cut.isSome && (p.item.kernel != 8 || n == 0)) = false := by
    rcases hrun with rfl | ⟨hk, hn⟩
    · rfl
    · simp [hk, hn]
  rw [triFinish_read hread]
  simp only [hgood, Bool.not_true, Bool.false_eq_true, if_false, hend]
  rw [if_pos hfetch]

end
end

/-! ### The state after the end of an item -/

/-- In `t` item `i` of the running batch has ended with status `y`; the cores are those of `s`, and so are the bytes but where `p` holds. -/
structure State.itemEnded (s t : State) (d i y : Nat) (p : Nat → Prop) : Prop where
  status : (t.triBatch d).map (TriBatch.status · i) = some y
  cores : t.cores = s.cores
  byte : ∀ a, ¬ p a → t.byte a = s.byte a

variable {y : Nat} {q : Nat → Prop}

theorem State.itemEnded.core (h : s.itemEnded t d i y q) (c : CoreId) : t.core c = s.core c := by rw [State.core, h.cores, State.core]

theorem State.sameBut.itemEnded (h : s.sameBut u) (k : u.itemEnded t d i y q) : s.itemEnded t d i y q :=
  ⟨k.status, k.cores.trans h.cores, fun a ha => (k.byte a ha).trans (h.byte a)⟩

theorem triBatch_eq_some_iff : s.triBatch d = some b ↔ ∃ rest, (s.triOf d).queue = b :: rest ∧ b.run = true := by
  unfold State.triBatch
  cases (s.triOf d).queue with
  | nil => simp
  | cons x rest =>
    cases h : x.run with
    | false =>
      refine iff_of_false (by simp [h]) ?_
      rintro ⟨_, heq, hrun⟩
      obtain ⟨rfl, -⟩ := List.cons.inj heq
      exact absurd hrun (by simp [h])
    | true =>
      constructor
      · intro hx
        obtain rfl : x = b := by simpa [h] using hx
        exact ⟨rest, rfl, h⟩
      · rintro ⟨_, heq, -⟩
        obtain ⟨rfl, -⟩ := List.cons.inj heq
        simp [h]

/-- What the running batch shows is read off the head of the queue. -/
theorem map_triBatch {α : Type} (s : State) (d : Nat) (f : TriBatch → α) : (s.triBatch d).map f =
    ((s.triOf d).queue.map fun x => (x.run, f x)).head?.bind fun x => if x.1 then some x.2 else none := by
  unfold State.triBatch
  cases (s.triOf d).queue with
  | nil => rfl
  | cons b rest => cases h : b.run <;> simp [h]

theorem State.itemEnded.triStartItems (h : s.itemEnded t d i y q) : s.itemEnded (t.triStartItems d) d i y q := by
  have hmore := startedMore_triStartItems t d
  refine ⟨?_, hmore.cores.trans h.cores, fun a ha => (hmore.byte a).trans (h.byte a ha)⟩
  rw [← h.status, map_triBatch, map_triBatch, hmore.map_queue fun _ _ => rfl]

/-- The end of an item of the running batch (R170, R172). -/
theorem triItemEnd_itemEnded {x : TriBatch} (hb : s.triBatch d = some x) (t : TriItem) (r : TriRes) :
    s.itemEnded (s.triItemEnd d i b t r) d i (s.endStatus r) (itemBytes b i r.outs) := by
  obtain ⟨rest, hq, hrun⟩ := triBatch_eq_some_iff.1 hb
  obtain ⟨u, put, hwrote, -, heq⟩ := triItemEnd_eq s d i b t r
  rw [heq]
  refine ⟨?_, hwrote.cores, hwrote.byte⟩
  rw [map_triBatch, triOf_updTri, hwrote.triOf, hq]
  simp [TriBatch.withEnd, hrun, TriBatch.status, Table.get_put]

/-- A result without a solution leaves the slots as they are (R186). -/
theorem slots_triItemEnd {r : TriRes} (h : r.sol = none) (s : State) (d i : Nat) (b : TriBatch) (t : TriItem) :
    ((s.triItemEnd d i b t r).triOf d).slots = (s.triOf d).slots := by
  obtain ⟨u, put, hwrote, hput, heq⟩ := triItemEnd_eq s d i b t r
  rw [heq, triOf_updTri, hwrote.triOf, hput h]
  rfl

/-- An item that has not ended of a running batch that was not refused. -/
structure State.itemOpen (s : State) (d i : Nat) (b : TriBatch) : Prop where
  batch : s.triBatch d = some b
  good : b.refused = false
  lt : i < b.count
  status : b.status i = 0

section
variable {k n : Nat} (ho : s.itemOpen d i b)
include ho

/-- A started item ends in the row of its kernel with what `triFinish` gives. -/
theorem triRun_started {p : TriStart} (hp : b.started[i]? = some p) (hk : p.item.kernel = k) {r : TriRes}
    (hf : s.triFinish b i p (s.triCut b) n = (u, r)) : s.triRun d i k n = (u.triItemEnd d i b p.item r).triStartItems d := by
  obtain ⟨hb, href, hi, hst⟩ := ho
  unfold State.triRun
  simp [hb, href, hi, hst, hp, hf, TriItem.fits, hk]

/-- An item that has not started ends once its batch is cut. -/
theorem triRun_cut {c : Nat} (hp : b.started[i]? = none) (hk : (s.triItem b i).kernel = k) (hcut : s.triCut b = some c) :
    s.triRun d i k n = s.triItemEnd d i b (s.triItem b i) { istat := c } := by
  obtain ⟨hb, href, hi, hst⟩ := ho
  unfold State.triRun
  simp [hb, href, hi, hst, hp, hcut, TriItem.fits, hk]

/-- The end of a started item: its status, its outputs, and its slot where it has no solution (R170, R172, R186). -/
theorem triRun_ended {p : TriStart} (hp : b.started[i]? = some p) (hk : p.item.kernel = k) {r : TriRes}
    (hf : s.triFinish b i p (s.triCut b) n = (u, r)) :
    s.itemEnded (s.triRun d i k n) d i (u.endStatus r) (itemBytes b i r.outs) ∧
      (r.sol = none → ((s.triRun d i k n).triOf d).slots = (s.triOf d).slots) := by
  have hsame : s.sameBut u := by
    have h := (triFinish_same s b i p n).1
    rwa [hf] at h
  have hb : u.triBatch d = some b := by rw [State.triBatch, hsame.triOf, ← ho.batch, State.triBatch]
  rw [triRun_started ho hp hk hf]
  refine ⟨hsame.itemEnded (triItemEnd_itemEnded hb p.item r).triStartItems, fun hsol => ?_⟩
  rw [(startedMore_triStartItems ..).slots, slots_triItemEnd hsol, hsame.triOf]

end

/-- A status is never 0, which stands for an item that has not ended. -/
theorem endStatus_ne_zero {r : TriRes} (h : r.istat ≠ 0) : s.endStatus r ≠ 0 := by
  unfold State.endStatus
  split_ifs <;> omega

/-- Settles O21: an item ends by `triItemEnd` with the result of `triFinish`, whose branches are those of the rules. -/
theorem triangulationItems : Obligations.TriangulationItems := by
  intro s d i sw b hd hlive hb href hi hst it ended x hx hkern status only
  have ho : s.itemOpen d i b := ⟨hb, href, hi, hst⟩
  have hlive' : (d != 0 && s.blockLive d) = true := by simp [hlive]; omega
  obtain ⟨n, hexec, hsweeps, hzero, h1, h8⟩ : ∃ n, exec x.1 s = .next (s.triRun d i x.2 n) ∧ (x.2 = 8 → n = sw) ∧ (x.2 ≠ 8 → n = 0) ∧
      1 ≤ x.2 ∧ x.2 ≤ 8 := by
    have hrow (k n : Nat) : s.triItemRow d i k n = s.triRun d i k n := if_pos hlive'
    simp only [List.mem_cons, List.not_mem_nil, or_false] at hx
    rcases hx with rfl | rfl | rfl | rfl | rfl | rfl | rfl | rfl
    all_goals exact ⟨_, congrArg _ (hrow _ _), by simp⟩
  have honly {t : State} {y : Nat} {outs : List (Nat × List Byte)} (h : s.itemEnded t d i y (itemBytes b i outs)) : only t outs :=
    fun a hs hout => h.byte a fun hin => hin.elim (fun ⟨o, hmem, ho⟩ => hout o hmem ho) hs
  refine ⟨fun p hp => ⟨_, hexec, ?started⟩, fun c hp hcut => ⟨_, hexec, ?unstarted⟩⟩
  case started =>
    have hit : it = p.item := by simp [it, hp]
    clear_value it
    subst hit
    have hend {u : State} {r : TriRes} := triRun_ended (u := u) (n := n) (r := r) ho hp hkern
    have hkernel := triCompute_kernel (s := (((s.readMem (b.items + 64 * i) 48 1).1.triFetch p.item).1)) (p := p) (by omega) (by omega)
    refine ⟨⟨_, (hend rfl).1.status, endStatus_ne_zero (triFinish_same s b i p n).2⟩, (hend rfl).1.core, fun hread => ?_⟩
    intro s1 s2 r
    refine ⟨fun hbad => ?_, fun c hgood hcut hopen => ?_, fun hgood hrun hfetch hwritten => ?_⟩
    · obtain ⟨h, hslots⟩ := hend (triFinish_bad hread hbad)
      exact ⟨h.status, hslots rfl, honly h⟩
    · obtain ⟨h, hslots⟩ := hend (triFinish_cut hread hgood hcut (by rw [hkern]; omega))
      exact ⟨h.status, hslots rfl, honly h⟩
    · have hrun' : s.triCut b = none ∨ (p.item.kernel = 8 ∧ n ≠ 0) := hrun.imp_right fun h => by omega
      have hr : s2.triCompute p (s.triCut b) n = r := by
        rw [hkernel]
        simp only [r]
        split_ifs
        · rfl
        · rfl
        · rfl
        · rw [hsweeps (by omega)]
      obtain ⟨h, hslots⟩ := hend (triFinish_computed hread hgood hrun' hfetch)
      rw [hr] at h hslots
      have hy : s2.endStatus r = r.istat + r.flags := by rw [State.endStatus, if_pos hwritten]
      exact ⟨h.status.trans (congrArg some hy), honly h, hslots⟩
  case unstarted =>
    have hit : it = s.triItem b i := by simp [it, hp]
    have hend := triItemEnd_itemEnded (i := i) (b := b) hb (s.triItem b i) { istat := c }
    rw [triRun_cut ho hp (hit ▸ hkern) hcut]
    exact ⟨hend.status, slots_triItemEnd rfl .., honly hend⟩

end Sys2Proof.Machine
end

section
/-! SUPPORT. The start and the end of a batch (R168, R169, R171). -/

namespace Sys2Proof.Machine

variable {s t : State} {d : Nat} {b : TriBatch} {rest : List TriBatch}

/-! ### The start of a batch -/

/-- Whether the descriptor `l` is refused (R169). -/
def State.refusesDesc (s : State) (l : List Byte) : Prop :=
  let w := leAt l 0 4
  let n := fld w 0 8
  n = 0 ∨ 128 < n ∨ fld w 8 8 ≠ 0 ∨ fld w 26 6 ≠ 0 ∨ leAt l 4 4 ≠ 0 ∨ leAt l 22 2 ≠ 0 ∨ leAt l 8 8 % 64 ≠ 0 ∨
    !s.sramRange (leAt l 8 8) (64 * n)

/-- A batch as its descriptor `l` gives it, with its mark of a deadline that had passed (R168, R169). -/
def TriBatch.described (b : TriBatch) (l : List Byte) (late : Bool) : TriBatch :=
  { b with
    late := late
    evt := if bitN (leAt l 0 4) 25 then some (fld (leAt l 0 4) 16 9) else none
    count := fld (leAt l 0 4) 0 8
    items := leAt l 8 8
    deadline := leAt l 16 6 }

/-- A batch that starts now. -/
def TriBatch.running (b : TriBatch) (ns : Nat) : TriBatch := { b with run := true, start := ns, last := ns }

/-- The batch `b` runs, before those of `rest`. -/
def State.triPut (s : State) (d : Nat) (b : TriBatch) (rest : List TriBatch) : State :=
  s.updTri d fun x => { x with queue := b.running s.upNs :: rest }

@[simp] theorem queue_triPut (s : State) (d : Nat) (b : TriBatch) (rest : List TriBatch) :
    ((s.triPut d b rest).triOf d).queue = b.running s.upNs :: rest := by rw [State.triPut, triOf_updTri]

theorem State.sameBut.triCut (h : s.sameBut t) (b : TriBatch) : t.triCut b = s.triCut b := by simp only [State.triCut, h.mer]

/-- What the start of a batch can do: it runs refused, or with the fields of a good descriptor and the items that may start (R169, R170). -/
theorem triStart_cases (hq : (s.triOf d).queue = b :: rest) (hrun : b.run = false) (hholds : s.holds (.tri d) = false) (hans : s.answers d = true) :
    ∃ t, s.sameBut t ∧
      (((s.readable b.addr 32 → s.refusesDesc (s.bytes b.addr 32)) ∧ ∃ e, s.triStart d = t.triPut d { b with evt := e, refused := true } rest) ∨
        (¬ s.refusesDesc (s.bytes b.addr 32) ∧ ∃ late, late = (s.triCut (b.described (s.bytes b.addr 32) b.late)).isSome ∧
          s.triStart d = (t.triPut d (b.described (s.bytes b.addr 32) late) rest).triStartItems d)) := by
  have hgo : (b.run || s.holds (.tri d) || !s.answers d) = false := by simp [hrun, hholds, hans]
  unfold State.triStart
  simp only [hq, hgo, Bool.false_eq_true, if_false]
  by_cases hin : s.rangeAnswers b.addr 32 = true
  · have hsame := readMem_same s b.addr 32 1
    have hread := readMem_readable s b.addr 32 1
    have hsome : (s.readMem b.addr 32 1).2 = none ∨ (s.readMem b.addr 32 1).2 = some (s.bytes b.addr 32) := ite_eq_or_eq .. |>.symm
    rw [if_pos hin]
    generalize s.readMem b.addr 32 1 = w at hsame hread hsome
    obtain ⟨t, o⟩ := w
    refine ⟨t, hsame, ?_⟩
    obtain rfl | rfl := hsome
    · exact .inl ⟨fun h => absurd (hread h) (by simp), _, rfl⟩
    · dsimp only at hsame ⊢
      rw [hsame.sramRange]
      split
      · next hbad => exact .inl ⟨fun _ => hbad, _, rfl⟩
      · next hgood => exact .inr ⟨hgood, _, congrArg _ (hsame.triCut _), rfl⟩
  · rw [if_neg hin]
    exact ⟨s, rfl, .inl ⟨fun h => absurd h.1 hin, _, rfl⟩⟩

theorem triCut_none (habort : b.abortAt = none) (hdl : b.deadline = 0 ∨ s.mer.cycle < b.deadline) : s.triCut b = none := by
  unfold State.triCut
  simp only [habort]
  exact if_neg (by simpa [or_iff_not_imp_left] using hdl)

theorem triItem_zero (s : State) (b : TriBatch) : s.triItem b 0 = TriItem.ofBytes (s.bytes b.items 48) := rfl

/-- The first item of a batch that starts whole is the first of its table (R170). -/
theorem triStartItems_first (hq : (s.triOf d).queue = b :: rest) (hrun : b.run = true) (hgood : b.refused = false) (hlate : b.late = false)
    (hnew : b.started = []) (hcount : 0 < b.count) (hcut : s.triCut b = none) :
    (((s.triStartItems d).triOf d).queue.head?.bind fun y => y.started.head?.map TriStart.item) = some (s.triItem b 0) := by
  have hb : s.triBatch d = some b := triBatch_eq_some_iff.2 ⟨rest, hq, hrun⟩
  have hmay : s.triMay b (s.triItem b b.started.length) = true := by
    simp [State.triMay, hgood, hlate, hnew, hcount, hcut, TriBatch.atWork]
  have hfirst : ∃ p : TriStart, p.item = s.triItem b 0 ∧
      ((s.triStartNext d).triOf d).queue = { b with started := [p] } :: rest.map (TriBatch.withItem p) := by
    refine ⟨s.triStarting d (s.triItem b b.started.length), by rw [hnew]; rfl, ?_⟩
    have hlaunch (p : TriStart) : ((s.triLaunch d p).triOf d).queue = { b with started := [p] } :: rest.map (TriBatch.withItem p) := by
      rw [State.triLaunch, triOf_updTri, hq]
      simp [TriBatch.withItem, hrun, hnew]
    rw [triStartNext_of_may hb hmay]
    split_ifs <;> exact hlaunch _
  obtain ⟨p, hp, hnext⟩ := hfirst
  obtain ⟨g, hg, hrest⟩ := (startedMore_foldl d [1, 2, 3] (s.triStartNext d)).queue
  have hitems : s.triStartItems d = [1, 2, 3].foldl (fun t _ => t.triStartNext d) (s.triStartNext d) := rfl
  obtain ⟨l, hl⟩ := hg { b with started := [p] }
  rw [hitems, hrest, hnext]
  simp [hl, hp]

/-! ### The end of a batch -/

/-- CLASS of a batch that has ended (R168): 3 refused, 2 with an item that is not OK, 1 with a warning flag, else 0. -/
def TriBatch.cls (b : TriBatch) : Nat :=
  let st := (List.range b.count).map b.status
  if b.refused then 3
  else if !((List.range b.count).filter fun i => st.getD i 0 % 256 != 1).isEmpty then 2
  else if 0 < (st.filter fun x => x % 256 == 1 && x / 256 % 256 &&& 0x17 != 0).length then 1 else 0

theorem cls_refused (h : b.refused = true) : b.cls = 3 := if_pos h

/-- The items that are not OK, as the class counts them. -/
theorem notOk_iff {i : Nat} : (i ∈ (List.range b.count).filter fun i => ((List.range b.count).map b.status).getD i 0 % 256 != 1) ↔
    i < b.count ∧ b.status i % 256 ≠ 1 := by
  rw [List.mem_filter, List.mem_range]
  refine and_congr_right fun hi => ?_
  simp [hi]

theorem cls_ok (hgood : b.refused = false) (h : ∀ i, i < b.count → b.status i = 1) : b.cls = 0 := by
  have hbad : ((List.range b.count).filter fun i => ((List.range b.count).map b.status).getD i 0 % 256 != 1) = [] := by
    refine List.eq_nil_iff_forall_not_mem.2 fun i hi => ?_
    obtain ⟨hlt, hne⟩ := notOk_iff.1 hi
    exact hne (by rw [h i hlt])
  have hwarn : (((List.range b.count).map b.status).filter fun x => x % 256 == 1 && x / 256 % 256 &&& 0x17 != 0) = [] := by
    refine List.filter_eq_nil_iff.2 fun x hx => ?_
    obtain ⟨i, hi, rfl⟩ := List.mem_map.1 hx
    rw [h i (List.mem_range.1 hi)]
    decide
  simp only [TriBatch.cls, hgood, hbad, hwarn]
  rfl

theorem cls_bad (hgood : b.refused = false) {i : Nat} (hi : i < b.count) (h : b.status i % 256 ≠ 1) : b.cls = 2 := by
  have hbad := List.ne_nil_of_mem (notOk_iff.2 ⟨hi, h⟩)
  simp only [TriBatch.cls, hgood, Bool.false_eq_true, if_false]
  exact if_pos (by simpa using hbad)

/-- A running batch with an item that has not ended goes on. -/
theorem triEnd_open (hb : s.triBatch d = some b) (hgood : b.refused = false) {i : Nat} (hi : i < b.count) (hst : b.status i = 0) :
    s.triEnd d = s := by
  unfold State.triEnd
  simp only [hb]
  refine if_pos ?_
  simpa [hgood] using ⟨i, hi, hst⟩

/-- A running batch that was refused or whose items have ended leaves the queue and shows in TRI_DONE (R171). -/
theorem triEnd_done (hb : s.triBatch d = some b) (hdone : b.refused = true ∨ ∀ i, i < b.count → b.status i ≠ 0) :
    (s.triEnd d).triOf d =
      { s.triOf d with queue := (s.triOf d).queue.drop 1, doneTicket := b.ticket, doneClass := b.cls, doneValid := true } := by
  have hclosed : ¬ (!b.refused && ((List.range b.count).map b.status).any (· == 0)) = true := by
    simpa [or_iff_not_imp_left] using hdone
  have hleft {v : State} (hv : v.triOf d = s.triOf d) :
      (v.updTri d fun x => { x with queue := x.queue.drop 1, doneTicket := b.ticket, doneClass := b.cls, doneValid := true }).triOf d =
        { s.triOf d with queue := (s.triOf d).queue.drop 1, doneTicket := b.ticket, doneClass := b.cls, doneValid := true } := by
    rw [triOf_updTri, hv]
  have hcount {v : State} {p : Prop} [Decidable p] (hv : v.triOf d = s.triOf d) :
      (if p then v.count (triReg d 0x24) 16 16 else v).triOf d = s.triOf d := by
    split_ifs
    · exact ((count_same v _ _ _ _).triOf d).trans hv
    · exact hv
  unfold State.triEnd
  simp only [hb]
  rw [if_neg hclosed]
  split
  · exact ((fireHeld_same ..).triOf d).trans (hleft (hcount ((writeAnswered_wroteIn ..).triOf d)))
  · exact hleft (hcount ((writeAnswered_wroteIn ..).triOf d))

/-- Settles O22: the start of a batch is one of `triStart_cases`, and its end is `triEnd_done` with the class of `TriBatch.cls`. -/
theorem triangulationBatches : Obligations.TriangulationBatches := by
  intro s d b rest hd hlive hq
  have hgo : (d != 0 && s.blockLive d) = true := by simp [hlive]; omega
  have hexec : exec (.batchStart d) s = .next (s.triStart d) ∧ exec (.batchEnd d) s = .next (s.triEnd d) :=
    ⟨congrArg _ (if_pos hgo), congrArg _ (if_pos hgo)⟩
  refine ⟨fun hrun hholds => ⟨_, hexec.1, ?start⟩, fun hrun => ?finish⟩
  case start =>
    obtain ⟨t, hsame, hcases⟩ := triStart_cases hq hrun hholds (answers_of_blockLive hlive)
    generalize s.bytes b.addr 32 = l at hcases ⊢
    obtain ⟨hbad, e, heq⟩ | ⟨hgood, late, hlate, heq⟩ := hcases
    · rw [heq, queue_triPut]
      refine ⟨rfl, ⟨hsame.byte, hsame.core⟩, fun hread => ⟨fun _ => rfl, fun h1 h128 hw0 hw0' hw1 hw22 hal hin => ?_⟩⟩
      exact absurd (hbad hread) (by simp [State.refusesDesc, Nat.one_le_iff_ne_zero.1 h1, h128, hw0, hw0', hw1, hw22, hal, hin])
    · have hmore := startedMore_triStartItems (t.triPut d (b.described l late) rest) d
      have hqueue := queue_triPut t d (b.described l late) rest
      have hmap {α : Type} {f : TriBatch → α} (hf : ∀ x l, f { x with started := l } = f x) := hmore.map_queue hf
      rw [heq]
      refine ⟨?_, ⟨fun a => (hmore.byte a).trans (hsame.byte a), fun c => ?_⟩,
        fun _ => ⟨fun h0 => absurd (.inl h0) hgood, fun h1 _ _ _ _ _ _ _ => ⟨?_, fun hok habort hnew hdl => ?_⟩⟩⟩
      · rw [hmap fun _ _ => rfl, hqueue]
        rfl
      · rw [State.core, hmore.cores]
        exact hsame.core c
      · rw [← List.head?_map, hmap fun _ _ => rfl, hqueue]
        rfl
      · have hopen : late = false := by
          rw [hlate, triCut_none (b := b.described l b.late) habort hdl]
          rfl
        have hcut : (t.triPut d (b.described l late) rest).triCut ((b.described l late).running t.upNs) = none :=
          triCut_none habort (by rw [← hsame.mer] at hdl; exact hdl)
        rw [triStartItems_first hqueue rfl hok hopen hnew h1 hcut, triItem_zero, ← hsame.bytes]
        rfl
  case finish =>
    have hb : s.triBatch d = some b := triBatch_eq_some_iff.2 ⟨rest, hq, hrun⟩
    intro ends st
    have hends (hdone : b.refused = true ∨ ∀ i, i < b.count → b.status i ≠ 0) {cls : Nat} (hcls : b.cls = cls) : ends cls := by
      refine ⟨_, hexec.2, ?_⟩
      dsimp only
      rw [triEnd_done hb hdone, hq]
      exact ⟨rfl, rfl, hcls, rfl⟩
    refine ⟨fun href => hends (.inl href) (cls_refused href), fun hgood hok => hends (.inr fun i hi => ?_) (cls_ok hgood hok),
      fun hgood hall ⟨i, hi, hne⟩ => hends (.inr hall) (cls_bad hgood hi hne),
      fun hgood ⟨i, hi, hst⟩ => ⟨_, hexec.2, triEnd_open hb hgood hi hst⟩⟩
    exact (hok i hi).trans_ne one_ne_zero

end Sys2Proof.Machine
end

section
/-! SUPPORT. Every operation that is not the Contour die's own leaves the Contour state. A few proofs switch off the implicit
definitional steps of `simp`: unfolded far enough, the terms hold nanosecond counts that the kernel would count through. -/

namespace Sys2Proof.Machine

/-! ### Conditionals, folds and pairs -/

@[simp] theorem State.ite_ctm (p : Prop) [Decidable p] (s t : State) : (if p then s else t).ctm = if p then s.ctm else t.ctm := apply_ite ..

@[simp] theorem State.foldl_ctm {α : Type} {f : State → α → State} (h : ∀ s a, (f s a).ctm = s.ctm) (l : List α) (s : State) :
    (l.foldl f s).ctm = s.ctm := by
  induction l generalizing s with
  | nil => rfl
  | cons a l ih => rw [List.foldl_cons, ih, h]

/-- The state that an instruction's body leaves. -/
def CRes.state : CRes → State
  | .ok s => s
  | .exc s _ => s

@[simp] theorem CRes.state_ok (s : State) : (CRes.ok s).state = s := rfl

@[simp] theorem CRes.state_exc (s : State) (e : Exc) : (CRes.exc s e).state = s := rfl

theorem ctm_eq_of_pair {α : Type} {x : State × α} {t : State} {a : α} (h : x = (t, a)) : t.ctm = x.1.ctm := by rw [h]

theorem State.sameBut.ctm {s t : State} (h : s.sameBut t) : t.ctm = s.ctm := by
  have k := congrArg State.ctm h
  exact k

theorem State.wroteIn.ctm {s t : State} {p : Nat → Prop} (h : s.wroteIn t p) : t.ctm = s.ctm := by
  have k := congrArg State.ctm h.rest
  exact k

@[simp] theorem ite_fst_ctm {α : Type} (p : Prop) [Decidable p] (x y : State × α) : (if p then x else y).1.ctm = if p then x.1.ctm else y.1.ctm :=
  apply_ite (fun x : State × α => x.1.ctm) ..

theorem ite_fst_ctm_eq {α : Type} {c : Ctm} {p : Prop} [Decidable p] {x y : State × α} (hx : x.1.ctm = c) (hy : y.1.ctm = c) :
    (if p then x else y).1.ctm = c := by
  rw [ite_fst_ctm, hx, hy, ite_self]

theorem State.ite_ctm_eq {c : Ctm} {p : Prop} [Decidable p] {s t : State} (hs : s.ctm = c) (ht : t.ctm = c) : (if p then s else t).ctm = c := by
  rw [State.ite_ctm, hs, ht, ite_self]

/-! ### The state -/

@[simp] theorem State.runTo_ctm (s : State) (ns : Nat) : (s.runTo ns).ctm = s.ctm := by simp -implicitDefEqProofs [State.runTo]

@[simp] theorem State.wakeBank_ctm (s : State) (die bank : Nat) : (s.wakeBank die bank).ctm = s.ctm := by simp [State.wakeBank]

/-! ### The Work Dispatcher -/

@[simp] theorem State.displace_ctm (s : State) (n : Nat) : (s.displace n).ctm = s.ctm := by
  unfold State.displace
  dsimp only
  repeat' split
  all_goals simp -implicitDefEqProofs

@[simp] theorem State.arrive_ctm (s : State) (n : Nat) (d : Desc) (evt : Option Nat) : (s.arrive n d evt).ctm = s.ctm := by simp [State.arrive]

@[simp] theorem State.fired_ctm (s : State) (e : Nat) : (s.fired e).ctm = s.ctm := by simp [State.fired]

@[simp] theorem State.evtDrop_ctm (s : State) (e word : Nat) : (s.evtDrop e word).ctm = s.ctm := by simp [State.evtDrop]

@[simp] theorem State.createEvt_ctm (s : State) (e word count : Nat) (d : Desc) (dl : Option Nat) (ofs : Bool) :
    (s.createEvt e word count d dl ofs).ctm = s.ctm := by
  unfold State.createEvt
  split <;> simp

@[simp] theorem State.fireHeld_ctm (s : State) (src : EvSrc) (e word : Nat) : (s.fireHeld src e word).ctm = s.ctm := by
  unfold State.fireHeld
  dsimp only
  repeat' split
  all_goals simp -implicitDefEqProofs

@[simp] theorem State.fireCoal_ctm (s : State) (e word : Nat) : (s.fireCoal e word).ctm = s.ctm := by
  unfold State.fireCoal
  dsimp only
  repeat' split
  all_goals simp -implicitDefEqProofs

@[simp] theorem State.fireMasked_ctm (s : State) (r c word : Nat) : (s.fireMasked r c word).ctm = s.ctm := by simp [State.fireMasked]

@[simp] theorem State.putDelay_ctm (s : State) (die n : Nat) (d : Desc) (ticks : Nat) : (s.putDelay die n d ticks).ctm = s.ctm := rfl

@[simp] theorem State.placePost_ctm (s : State) (c : CoreId) (rd : BitVec 5) (d : Desc) (delay : Option Nat) (n : Nat) :
    (s.placePost c rd d delay n).ctm = s.ctm := by
  unfold State.placePost
  split <;> simp

@[simp] theorem State.takeHeld_ctm (s : State) (h : Held) : (s.takeHeld h).ctm = s.ctm := by
  unfold State.takeHeld
  split <;> simp

@[simp] theorem State.acceptHeld_ctm (s : State) : s.acceptHeld.ctm = s.ctm := by
  unfold State.acceptHeld
  split <;> simp

@[simp] theorem acceptAt_ctm (prio fuel : Nat) (s : State) : (acceptAt prio fuel s).ctm = s.ctm := (acceptAt_same prio fuel s).ctm

@[simp] theorem State.acceptFor_ctm (s : State) (prio : Nat) : (s.acceptFor prio).ctm = s.ctm := acceptAt_ctm ..

@[simp] theorem settle_ctm (fuel : Nat) (s : State) : (settle fuel s).ctm = s.ctm := by
  induction fuel generalizing s with
  | zero => rfl
  | succ fuel ih =>
    unfold settle
    dsimp only
    repeat' split
    all_goals simp [ih]

@[simp] theorem State.settled_ctm (s : State) : s.settled.ctm = s.ctm := by simp [State.settled]

@[simp] theorem State.queuePend_ctm (s : State) (e : Nat) : (s.queuePend e).ctm = s.ctm := by
  unfold State.queuePend
  repeat' split
  all_goals simp

@[simp] theorem State.writeRecord_ctm (s : State) (l : List Byte) : (s.writeRecord l).ctm = s.ctm := by simp [State.writeRecord]

@[simp] theorem State.endItem_ctm (s : State) (n : Nat) (e : Ending) : (s.endItem n e).ctm = s.ctm := by
  unfold State.endItem
  split <;> simp

@[simp] theorem State.endOnCore_ctm (s : State) (c : CoreId) (e : Ending) : (s.endOnCore c e).ctm = s.ctm := by
  unfold State.endOnCore
  split <;> simp

@[simp] theorem State.startItem_ctm (s : State) (c : CoreId) (n : Nat) (i : Item) : (s.startItem c n i).ctm = s.ctm := by simp [State.startItem]

@[simp] theorem State.stationMove_ctm (s : State) : s.stationMove.ctm = s.ctm := by
  unfold State.stationMove
  repeat' split
  all_goals simp

@[simp] theorem expire_ctm (lim fuel : Nat) (skip : List Nat) (s : State) : (expire lim fuel skip s).ctm = s.ctm := by
  induction fuel generalizing skip s with
  | zero => rfl
  | succ fuel ih =>
    unfold expire
    repeat' split
    all_goals simp [ih]

@[simp] theorem State.expireTo_ctm (s : State) (lim : Nat) : (s.expireTo lim).ctm = s.ctm := by simp [State.expireTo]

@[simp] theorem endAll_ctm (status : Nat) (ns : List Nat) (s : State) : (endAll status ns s).ctm = s.ctm := by
  induction ns generalizing s with
  | nil => rfl
  | cons n ns ih => exact (ih _).trans (State.endItem_ctm ..)

@[simp] theorem State.strand_ctm (s : State) : s.strand.ctm = s.ctm := by simp [State.strand]

@[simp] theorem State.cancelItem_ctm (s : State) (handle : Nat) : (s.cancelItem handle).1.ctm = s.ctm := by
  unfold State.cancelItem
  split <;> simp

@[simp] theorem State.dropFirings_ctm (s : State) (e : Nat) : (s.dropFirings e).ctm = s.ctm := by
  unfold State.dropFirings
  dsimp only
  split <;> simp -implicitDefEqProofs

/-! ### Memory -/

@[simp] theorem State.reportUncorr_ctm (s : State) (w src : Nat) : (s.reportUncorr w src).ctm = s.ctm := by
  simp -implicitDefEqProofs [State.reportUncorr]

@[simp] theorem State.checkWord_ctm (s : State) (w src : Nat) : (s.checkWord w src).1.ctm = s.ctm := by
  unfold State.checkWord
  repeat' split
  all_goals simp

@[simp] theorem checkWords_ctm (src : Nat) (ws : List Nat) (s : State) : (checkWords src ws s).1.ctm = s.ctm := by
  induction ws generalizing s with
  | nil => rfl
  | cons w ws ih => simp -implicitDefEqProofs [checkWords, ih]

@[simp] theorem State.readMem_ctm (s : State) (a n src : Nat) : (s.readMem a n src).1.ctm = s.ctm := by simp [State.readMem]

@[simp] theorem State.noteOld_ctm (s : State) (w : Nat) : (s.noteOld w).ctm = s.ctm := by simp [State.noteOld]

@[simp] theorem State.asAt_ctm (s : State) (clock : Nat) : (s.asAt clock).ctm = s.ctm := by simp [State.asAt]

@[simp] theorem State.writeWord_ctm (s : State) (w a : Nat) (l : List Byte) : (s.writeWord w a l).1.ctm = s.ctm := by
  unfold State.writeWord
  dsimp only
  repeat' split
  all_goals simp -implicitDefEqProofs

@[simp] theorem writeWords_ctm (a : Nat) (l : List Byte) (ws : List Nat) (s : State) : (writeWords a l ws s).1.ctm = s.ctm :=
  (writeWords_wroteIn a l ws s).ctm

@[simp] theorem State.notePort0_ctm (s : State) (d : Nat) (ws : List Nat) : (s.notePort0 d ws).ctm = s.ctm := rfl

@[simp] theorem State.noteCollision_ctm (s : State) (w : Nat) : (s.noteCollision w).ctm = s.ctm := by simp [State.noteCollision]

@[simp] theorem State.writeMem_ctm (s : State) (a : Nat) (l : List Byte) : (s.writeMem a l).1.ctm = s.ctm := (writeMem_wroteIn s a l).ctm

@[simp] theorem State.writeMem0_ctm (s : State) (d a : Nat) (l : List Byte) : (s.writeMem0 d a l).1.ctm = s.ctm := by simp [State.writeMem0]

@[simp] theorem State.scrubVisit_ctm (s : State) (d b : Nat) : (s.scrubVisit d b).ctm = s.ctm := by simp [State.scrubVisit]

@[simp] theorem State.writeRet_ctm (s : State) (d : Nat) (v : W32) : (s.writeRet d v).ctm = s.ctm := by simp -implicitDefEqProofs [State.writeRet]

/-! ### A core -/

@[simp] theorem State.takeExc_ctm (s : State) (c : CoreId) (e : Exc) : (s.takeExc c e).ctm = s.ctm := by simp [State.takeExc]

@[simp] theorem State.reportLm_ctm (s : State) (die off src : Nat) : (s.reportLm die off src).ctm = s.ctm := by
  simp -implicitDefEqProofs [State.reportLm]

@[simp] theorem State.readLm_ctm (s : State) (c : CoreId) (off n : Nat) : (s.readLm c off n).1.ctm = s.ctm := by
  unfold State.readLm
  dsimp only
  repeat' split
  all_goals simp -implicitDefEqProofs

@[simp] theorem State.lineFill_ctm (s : State) (c : CoreId) (a : Nat) (icache : Bool) : (s.lineFill c a icache).1.ctm = s.ctm := by
  unfold State.lineFill
  dsimp only
  repeat' split
  all_goals simp -implicitDefEqProofs

@[simp] theorem State.load_ctm (s : State) (c : CoreId) (a n hint : Nat) : (s.load c a n hint).1.ctm = s.ctm := by
  unfold State.load
  dsimp only
  repeat' split
  all_goals simp -implicitDefEqProofs

@[simp] theorem State.store_ctm (s : State) (c : CoreId) (a : Nat) (b : List Byte) : (s.store c a b).ctm = s.ctm := by
  unfold State.store
  dsimp only
  repeat' split
  all_goals simp -implicitDefEqProofs

@[simp] theorem State.fetch_ctm (s : State) (c : CoreId) : (s.fetch c).1.ctm = s.ctm := by
  unfold State.fetch
  dsimp only
  repeat' split
  all_goals simp -implicitDefEqProofs

@[simp] theorem State.takeBoundary_ctm (s : State) (c : CoreId) (e : Exc) : (s.takeBoundary c e).ctm = s.ctm := by simp [State.takeBoundary]

/-- An instruction leaves the Contour state, but for what its body does when the core gets to it. -/
theorem runInstr_cases (c : CoreId) (body : State → CRes) (s : State) :
    (runInstr c body s).ctm = s.ctm ∨ ∃ t, t.ctm = s.ctm ∧ (runInstr c body s).ctm = (body t).state.ctm := by
  unfold runInstr
  split
  · exact .inl rfl
  split
  · exact .inl (State.takeBoundary_ctm ..)
  split
  next t e hf => exact .inl (by rw [State.takeExc_ctm, ctm_eq_of_pair hf, State.fetch_ctm])
  next t hf =>
    refine .inr ⟨t, (ctm_eq_of_pair hf).trans (State.fetch_ctm ..), ?_⟩
    split
    next hb => rw [hb, CRes.state_ok]
    next hb => rw [hb, CRes.state_exc, State.takeExc_ctm]

theorem runInstr_ctm {body : State → CRes} (h : ∀ t, (body t).state.ctm = t.ctm) (c : CoreId) (s : State) : (runInstr c body s).ctm = s.ctm := by
  obtain hs | ⟨t, ht, hs⟩ := runInstr_cases c body s
  · exact hs
  · rw [hs, h, ht]

/-! ### The cell instructions -/

@[simp] theorem State.readDesc_ctm (s : State) (c : CoreId) (a : Nat) : (s.readDesc c a).1.ctm = s.ctm := by grind [State.readDesc, State.load_ctm]

@[simp] theorem State.stallOr_ctm (s : State) (c : CoreId) (rd : Reg) (d : Desc) (delay : Option Nat) : (s.stallOr c rd d delay).ctm = s.ctm := by
  simp [State.stallOr]

@[simp] theorem State.post_ctm (s : State) (c : CoreId) (rd ra : Reg) : (s.post c rd ra).state.ctm = s.ctm := by
  unfold State.post
  split
  next t e hr => exact (ctm_eq_of_pair hr).trans (State.readDesc_ctm ..)
  next t l hr =>
    rw [← State.readDesc_ctm s c (s.reg c ra).toNat, ← ctm_eq_of_pair hr]
    dsimp only
    repeat' split
    all_goals simp

@[simp] theorem State.delay_ctm (s : State) (c : CoreId) (rd ra rb : Reg) : (s.delay c rd ra rb).state.ctm = s.ctm := by
  unfold State.delay
  split
  next t e hr => exact (ctm_eq_of_pair hr).trans (State.readDesc_ctm ..)
  next t l hr =>
    rw [← State.readDesc_ctm s c (s.reg c ra).toNat, ← ctm_eq_of_pair hr]
    dsimp only
    repeat' split
    all_goals simp

@[simp] theorem State.tsamp_ctm (s : State) (c : CoreId) (rd : Reg) (sel : Nat) : (s.tsamp c rd sel).state.ctm = s.ctm := by
  unfold State.tsamp
  split <;> simp

@[simp] theorem State.qop_ctm (s : State) (c : CoreId) (rd ra rb : Reg) (sh : BitVec 5) (l k mac : Bool) :
    (s.qop c rd ra rb sh l k mac).state.ctm = s.ctm := by
  unfold State.qop
  split <;> simp

@[simp] theorem readWords_ctm (c : CoreId) (ws : List Nat) (s : State) : (readWords c ws s).1.ctm = s.ctm := by
  induction ws generalizing s with
  | nil => rfl
  | cons w ws ih => grind [readWords, State.load_ctm]

@[simp] theorem State.luti_ctm (s : State) (c : CoreId) (rd ra rb : Reg) : (s.luti c rd ra rb).state.ctm = s.ctm := by
  unfold State.luti
  extract_lets a
  split
  next t e hr => exact (ctm_eq_of_pair hr).trans (readWords_ctm ..)
  next t l hr =>
    rw [← readWords_ctm c [a, a + 4] s, ← ctm_eq_of_pair hr]
    extract_lets h n e
    split
    · rfl
    split
    next u e hw => exact (ctm_eq_of_pair hw).trans (readWords_ctm ..)
    next u ws hw => exact (State.putSat_ctm ..).trans ((ctm_eq_of_pair hw).trans (readWords_ctm ..))

/-! ### Flows -/

@[simp] theorem State.commitFlow_ctm (s : State) (f : Nat) (outs : List (Nat × Nat)) : (s.commitFlow f outs).ctm = s.ctm := by
  grind [State.commitFlow, State.writeMem_ctm, State.readMem_ctm]

/-! ### The engines -/

@[simp] theorem State.engw_ctm {f : Nat → Nat → W64 → State → State × Nat}
    (h : ∀ d n v t, (f d n v t).1.ctm = t.ctm) (s : State) (c : CoreId) (eng : Nat) (rd ra rb : Reg) :
    (s.engw c eng rd ra rb f).state.ctm = s.ctm := by
  unfold State.engw
  split
  · rfl
  · exact (State.put_ctm ..).trans (h ..)

@[simp] theorem State.engr_ctm (s : State) (c : CoreId) (eng : Nat) (rd rb : Reg) (f : Nat → Nat → State → Option W64) :
    (s.engr c eng rd rb f).state.ctm = s.ctm := by
  unfold State.engr
  repeat' split
  all_goals simp

@[simp] theorem State.fireEng_ctm (s : State) (src : EvSrc) (r c word : Nat) : (s.fireEng src r c word).ctm = s.ctm := by simp [State.fireEng]

/-! ### Redundancy -/

@[simp] theorem State.rdnEvent_ctm (s : State) (c : Nat) : (s.rdnEvent c).ctm = s.ctm := by simp [State.rdnEvent]

@[simp] theorem State.rdnEnter_ctm (s : State) (x : RdnSt) : (s.rdnEnter x).ctm = s.ctm := by simp [State.rdnEnter]

@[simp] theorem State.isolate_ctm (s : State) (cause : Nat) : (s.isolate cause).ctm = s.ctm := by simp [State.isolate]

@[simp] theorem State.rdnRefresh_ctm (s : State) : s.rdnRefresh.ctm = s.ctm := by simp [State.rdnRefresh]

@[simp] theorem State.rdnSafety_ctm (s : State) (code : Nat) : (s.rdnSafety code).ctm = s.ctm := by simp [State.rdnSafety]

@[simp] theorem State.rdnYield_ctm (s : State) : s.rdnYield.ctm = s.ctm := by simp [State.rdnYield]

@[simp] theorem State.rdnConflict_ctm (s : State) : s.rdnConflict.ctm = s.ctm := by simp [State.rdnConflict]

@[simp] theorem State.setPlost_ctm (s : State) : s.setPlost.ctm = s.ctm := by simp [State.setPlost]

@[simp] theorem State.shadowCompare_ctm (s : State) (planCyc digest : Nat) : (s.shadowCompare planCyc digest).ctm = s.ctm := by
  simp [State.shadowCompare]

@[simp] theorem State.beatIn_ctm (s : State) (l : List Byte) : (s.beatIn l).ctm = s.ctm := by simp -implicitDefEqProofs [State.beatIn]

@[simp] theorem State.formDigest_ctm (s : State) : s.formDigest.ctm = s.ctm := by grind [State.formDigest, State.readMem_ctm]

/-! ### The SLE of a die -/

@[simp] theorem State.setSle_ctm (s : State) (d : Nat) (x : Sle) : (s.setSle d x).ctm = s.ctm := rfl

@[simp] theorem State.updSle_ctm (s : State) (d : Nat) (f : Sle → Sle) : (s.updSle d f).ctm = s.ctm := rfl

@[simp] theorem State.setSleAx_ctm (s : State) (d n : Nat) (a : SleAx) : (s.setSleAx d n a).ctm = s.ctm := rfl

@[simp] theorem State.updSleAx_ctm (s : State) (d n : Nat) (f : SleAx → SleAx) : (s.updSleAx d n f).ctm = s.ctm := rfl

@[simp] theorem State.setTrvAx_ctm (s : State) (d n : Nat) (a : TrvAx) : (s.setTrvAx d n a).ctm = s.ctm := rfl

@[simp] theorem State.updTrvAx_ctm (s : State) (d n : Nat) (f : TrvAx → TrvAx) : (s.updTrvAx d n f).ctm = s.ctm := rfl

@[simp] theorem State.sleEvent_ctm (s : State) (d n code : Nat) : (s.sleEvent d n code).ctm = s.ctm := by simp [State.sleEvent]

@[simp] theorem State.sleFlag_ctm (s : State) (d n bit : Nat) : (s.sleFlag d n bit).ctm = s.ctm := rfl

@[simp] theorem State.sleCommand_ctm (s : State) (d n code : Nat) (v : W64) : (s.sleCommand d n code v).1.ctm = s.ctm := by
  unfold State.sleCommand
  repeat' split
  all_goals simp

@[simp] theorem State.sleOffDone_ctm (s : State) (d n : Nat) : (s.sleOffDone d n).ctm = s.ctm := by simp [State.sleOffDone]

@[simp] theorem State.checkLoad_ctm (s : State) (d a : Nat) : (s.checkLoad d a).1.ctm = s.ctm := by grind [State.checkLoad, State.readMem_ctm]

@[simp] theorem State.sleLoad_ctm (s : State) (d : Nat) : (s.sleLoad d).ctm = s.ctm := by
  grind [State.sleLoad, State.fireHeld_ctm, State.updSle_ctm, State.checkLoad_ctm]

@[simp] theorem State.sleInputs_ctm (s : State) (d n : Nat) : (s.sleInputs d n).ctm = s.ctm := rfl

@[simp] theorem State.sleSend_ctm (s : State) (d n : Nat) (out : Table W64) : (s.sleSend d n out).ctm = s.ctm := by
  unfold State.sleSend
  exact (State.foldl_ctm (fun _ _ => State.commitFlow_ctm ..) ..).trans (State.updSleAx_ctm ..)

@[simp] theorem State.sleAxis_ctm (s : State) (d n : Nat) : (s.sleAxis d n).ctm = s.ctm := by
  unfold State.sleAxis
  extract_lets t x
  split
  next a hold _ =>
  extract_lets a'
  split
  next b out ev _ =>
  extract_lets f out' c c' t1 t2 t3 t4 t5 t6 t7
  have h1 : t1.ctm = s.ctm := (State.setSleAx_ctm ..).trans (State.sleInputs_ctm ..)
  have h5 : t5.ctm = s.ctm := by simp [t5, t4, t3, t2, h1]
  have h6 : t6.ctm = s.ctm := by
    cases ev with
    | some e => exact (State.sleEvent_ctm ..).trans h5
    | none => exact h5
  have h7 : t7.ctm = s.ctm := by simp [t7, h6]
  exact (State.sleSend_ctm ..).trans h7

@[simp] theorem State.slePass_ctm (s : State) (d start : Nat) (order : List Nat) : (s.slePass d start order).ctm = s.ctm := by
  unfold State.slePass
  extract_lets late t cnt dur t' u
  have ht : t.ctm = s.ctm := State.foldl_ctm (fun _ _ => State.sleAxis_ctm ..) ..
  split <;> simp [u, t', ht]

@[simp] theorem State.sleSample_ctm (s : State) (d at_ : Nat) (order : List Nat) : (s.sleSample d at_ order).ctm = s.ctm := by
  have key (t : State) (ht : t.ctm = s.ctm) : (if !s.blockLive d ∨ d = 0 ∨ (s.sleOf d).sampled then s
      else if t.sleStart d ≤ t.phaseNs then t.slePass d (t.sleStart d) order else s).ctm = s.ctm :=
    State.ite_ctm_eq rfl (State.ite_ctm_eq ((State.slePass_ctm ..).trans ht) rfl)
  exact key _ (State.runTo_ctm s at_)

/-! ### The Contour die, towards the axes -/

@[simp] theorem State.ctmEvent_ctm (s : State) (code arm low : Nat) : (s.ctmEvent code arm low).ctm = s.ctm := by simp [State.ctmEvent]

@[simp] theorem State.armCommand_ctm (s : State) (n code : Nat) : (s.armCommand n code).ctm = s.ctm := by
  unfold State.armCommand
  split <;> simp -implicitDefEqProofs

/-! ### Safety images -/

@[simp] theorem State.checkImage_ctm (s : State) (a : Nat) : (s.checkImage a).1.ctm = s.ctm := by
  unfold State.checkImage
  refine ite_fst_ctm_eq rfl ?_
  split
  next t hr => exact (ctm_eq_of_pair hr).trans (State.readMem_ctm ..)
  next t h hr =>
    rw [← State.readMem_ctm s a 32 1, ← ctm_eq_of_pair hr]
    refine ite_fst_ctm_eq rfl (ite_fst_ctm_eq rfl (ite_fst_ctm_eq rfl (ite_fst_ctm_eq rfl ?_)))
    split
    next u hu => exact (ctm_eq_of_pair hu).trans (State.readMem_ctm ..)
    next u l hu =>
      rw [← State.readMem_ctm t a (leAt h 8 4) 1, ← ctm_eq_of_pair hu]
      refine ite_fst_ctm_eq rfl ?_
      split
      · rfl
      next ss _ =>
      refine ite_fst_ctm_eq rfl (ite_fst_ctm_eq ?_ ?_)
      · simp only [ite_fst_ctm, ite_self]
      · split
        · rfl
        · simp only [ite_fst_ctm, ite_self]

/-! ### The DMA engines -/

@[simp] theorem State.setCh_ctm (s : State) (d ch : Nat) (x : DmaCh) : (s.setCh d ch x).ctm = s.ctm := rfl

@[simp] theorem State.updCh_ctm (s : State) (d ch : Nat) (f : DmaCh → DmaCh) : (s.updCh d ch f).ctm = s.ctm := rfl

@[simp] theorem State.dmaCommand_ctm (s : State) (d ch code val : Nat) : (s.dmaCommand d ch code val).1.ctm = s.ctm := by simp [State.dmaCommand]

@[simp] theorem State.dmaFire_ctm (s : State) (d ch code idx : Nat) : (s.dmaFire d ch code idx).ctm = s.ctm := by simp [State.dmaFire]

@[simp] theorem State.dmaHalted_ctm (s : State) (d ch : Nat) (err : Bool) (idx : Nat) : (s.dmaHalted d ch err idx).ctm = s.ctm := by
  simp [State.dmaHalted]

@[simp] theorem State.dmaLook_ctm (s : State) (d ch : Nat) : (s.dmaLook d ch).ctm = s.ctm := by
  unfold State.dmaLook
  dsimp only
  repeat' split
  all_goals simp -implicitDefEqProofs

@[simp] theorem State.dmaTake_ctm (s : State) (d ch kind : Nat) : (s.dmaTake d ch kind).ctm = s.ctm := by
  grind [State.dmaTake, State.updCh_ctm, State.readMem_ctm]

@[simp] theorem State.setHost_ctm (s : State) (b : Bool) (h : HostSt) : (s.setHost b h).ctm = s.ctm := by simp [State.setHost]

@[simp] theorem State.dmaFetch_ctm (s : State) (a n : Nat) : (s.dmaFetch a n).1.ctm = s.ctm := by grind [State.dmaFetch, State.readMem_ctm]

@[simp] theorem State.dmaLevel_ctm (s : State) (x : DmaCh) : (s.dmaLevel x).1.ctm = s.ctm := by grind [State.dmaLevel, State.dmaFetch_ctm]

@[simp] theorem readPieces_ctm (kind pat : Nat) (ps : List Seg) (s : State) : (readPieces kind pat ps s).1.ctm = s.ctm := by
  induction ps generalizing s with
  | nil => rfl
  | cons p ps ih => grind [readPieces, State.dmaFetch_ctm]

@[simp] theorem readTries_ctm (kind pat : Nat) (now : List Seg) (n : Nat) (s : State) : (readTries kind pat now n s).1.ctm = s.ctm := by
  induction n generalizing s with
  | zero => exact readPieces_ctm ..
  | succ n ih =>
    unfold readTries
    split
    next hr => exact (ih _).trans ((ctm_eq_of_pair hr).trans (readPieces_ctm ..))
    next hr => exact (ctm_eq_of_pair hr).trans (readPieces_ctm ..)

@[simp] theorem writePieces_ctm (ps : List (Nat × List Byte)) (s : State) : (writePieces ps s).1.ctm = s.ctm := by
  induction ps generalizing s with
  | nil => rfl
  | cons p ps ih => exact (ih _).trans (State.writeMem_ctm ..)

@[simp] theorem State.dmaEnds_ctm (s : State) (d ch dstat : Nat) : (s.dmaEnds d ch dstat).ctm = s.ctm := rfl

@[simp] theorem State.dmaRetried_ctm (s : State) (d ch n : Nat) : (s.dmaRetried d ch n).ctm = s.ctm := by simp -implicitDefEqProofs [State.dmaRetried]

@[simp] theorem State.dmaMoved_ctm (s : State) (d ch : Nat) (x : DmaCh) (c : DmaCur) (ps : List (Nat × List Byte)) (rest : List Seg) :
    (s.dmaMoved d ch x c ps rest).ctm = s.ctm := by simp -implicitDefEqProofs [State.dmaMoved]

@[simp] theorem State.dmaRun_ctm (s : State) (d ch linkErrs : Nat) (x : DmaCh) (c : DmaCur) (now rest : List Seg) :
    (s.dmaRun d ch linkErrs x c now rest).ctm = s.ctm := by
  unfold State.dmaRun
  extract_lets typ retry frame reads readLink writeLink t
  have ht : t.ctm = s.ctm := State.setCh_ctm ..
  split
  · simp [ht]
  split
  next u got k hr =>
    have hu : u.ctm = s.ctm := by
      rw [ctm_eq_of_pair hr]
      simp [ht]
    extract_lets v
    have hv : v.ctm = s.ctm := (State.dmaRetried_ctm ..).trans hu
    split
    · simp [hv]
    · simp [hv]
    · split
      · simp [hv]
      · split
        next w ok hw =>
          have : w.ctm = s.ctm := by
            rw [ctm_eq_of_pair hw]
            simp [hv]
          dsimp only
          split <;> simp [this]

@[simp] theorem State.dmaBurst_ctm (s : State) (d ch linkErrs : Nat) : (s.dmaBurst d ch linkErrs).ctm = s.ctm := by
  grind [State.dmaBurst, State.dmaRun_ctm, State.dmaEnds_ctm, State.dmaLevel_ctm, State.dmaRetried_ctm, State.setCh_ctm]

@[simp] theorem State.dmaWriteBack_ctm (s : State) (x : DmaCh) (c : DmaCur) : (s.dmaWriteBack x c).ctm = s.ctm := by simp [State.dmaWriteBack]

@[simp] theorem State.dmaHandBack_ctm (s : State) (d ch : Nat) : (s.dmaHandBack d ch).ctm = s.ctm := by
  unfold State.dmaHandBack
  dsimp only
  split <;> simp -implicitDefEqProofs

@[simp] theorem State.dmaPoll_ctm (s : State) (d ch : Nat) : (s.dmaPoll d ch).ctm = s.ctm := by simp [State.dmaPoll]

/-! ### The bus -/

@[simp] theorem State.updBus_ctm (s : State) (f : Bus → Bus) : (s.updBus f).ctm = s.ctm := rfl

@[simp] theorem State.busRunTo_ctm (s : State) (ns : Nat) : (s.busRunTo ns).1.ctm = s.ctm := by
  have key (off want : Nat) : (if want ≤ off then (s, true)
      else if s.mer.target ≤ s.mer.phase + (want - off) then (s, false)
      else (s.advance (ceilDiv (want - off) s.mer.inc), true)).1.ctm = s.ctm := by
    simp only [ite_fst_ctm, State.advance_ctm, ite_self]
  exact key s.busPos.2 (ns * unitNs)

@[simp] theorem State.setPort_ctm (s : State) (chB port : Bool) (p : BusPort) : (s.setPort chB port p).ctm = s.ctm := rfl

@[simp] theorem State.putWire_ctm (s : State) (chB port : Bool) (l : List Byte) (from_ : Nat) : (s.putWire chB port l from_).ctm = s.ctm := rfl

@[simp] theorem State.forwardOut_ctm (s : State) (chB port : Bool) (l : List Byte) (res16 : Nat) (dlink : Int) :
    (s.forwardOut chB port l res16 dlink).ctm = s.ctm := by simp -implicitDefEqProofs [State.forwardOut]

@[simp] theorem State.busEvent_ctm (s : State) (code mid low : Nat) : (s.busEvent code mid low).ctm = s.ctm := by simp [State.busEvent]

@[simp] theorem State.freshDma_ctm (s : State) (f : Nat) : (s.freshDma f).ctm = s.ctm := by simp [State.freshDma]

@[simp] theorem State.frameStart_ctm (s : State) (chB port : Bool) (rx : BusRx) (typ : Nat) : (s.frameStart chB port rx typ).1.ctm = s.ctm := by
  unfold State.frameStart
  repeat' split
  all_goals simp -implicitDefEqProofs

@[simp] theorem State.rxCount_ctm (s : State) (chB : Bool) : (s.rxCount chB).ctm = s.ctm := by simp [State.rxCount]

@[simp] theorem State.txRecord_ctm (s : State) (chB : Bool) (f : Nat) : (s.txRecord chB f).1.ctm = s.ctm := by
  grind [State.txRecord, State.readMem_ctm]

@[simp] theorem txBundle_ctm (chB : Bool) (fs : List Nat) (rs : List FlowRec) (s : State) : (txBundle chB fs rs s).1.ctm = s.ctm := by
  induction fs generalizing rs s with
  | nil => rfl
  | cons f fs ih =>
    unfold txBundle
    split
    next hr => exact (ctm_eq_of_pair hr).trans (State.txRecord_ctm ..)
    next hr => rw [ih, ctm_eq_of_pair hr, State.txRecord_ctm]
    next hr => rw [ih, ctm_eq_of_pair hr, State.txRecord_ctm]

@[simp] theorem State.txRecords_ctm (s : State) (chB : Bool) (f : Nat) (bundle : List Nat) : (s.txRecords chB f bundle).1.ctm = s.ctm := by
  grind [State.txRecords, txBundle_ctm, State.txRecord_ctm]

@[simp] theorem State.txRead_ctm (s : State) (chB : Bool) (start f : Nat) (bundle : List Nat) : (s.txRead chB start f bundle).1.ctm = s.ctm := by
  grind [State.txRead, State.asAt_ctm, State.txRecords_ctm]

@[simp] theorem State.slotOut_ctm (s : State) (chB : Bool) (f : BusFrame) (by_ gone len : Nat) (port : Bool) :
    (s.slotOut chB f by_ gone len port).ctm = s.ctm := by simp [State.slotOut]

/-! ### The bus protocol -/

@[simp] theorem State.updMer_ctm (s : State) (f : Mer → Mer) : (s.updMer f).ctm = s.ctm := rfl

@[simp] theorem State.setBusSt_ctm (s : State) (st : BusSt) : (s.setBusSt st).ctm = s.ctm := by simp [State.setBusSt]

@[simp] theorem State.setLeader_ctm (s : State) (lead : Bool) (id : Nat) : (s.setLeader lead id).ctm = s.ctm := by simp [State.setLeader]

@[simp] theorem State.busListen_ctm (s : State) (reason : Nat) : (s.busListen reason).ctm = s.ctm := by simp [State.busListen]

@[simp] theorem State.logStep_ctm (s : State) (ns : Nat) (back : Bool) (kind : Nat) : (s.logStep ns back kind).ctm = s.ctm := by simp [State.logStep]

@[simp] theorem State.placeDatum_ctm (s : State) (v k T : Nat) : (s.placeDatum v k T).ctm = s.ctm := rfl

@[simp] theorem State.coldStart_ctm (s : State) : s.coldStart.ctm = s.ctm := by
  unfold State.coldStart
  dsimp only
  split <;> simp -implicitDefEqProofs

@[simp] theorem State.integrate_ctm (s : State) (chB port : Bool) (rx : BusRx) (e : GEntry) (m : Nat) :
    (s.integrate chB port rx e m).ctm = s.ctm := by simp [State.integrate]

@[simp] theorem State.tryIntegrate_ctm (s : State) (chB port : Bool) (rx : BusRx) : (s.tryIntegrate chB port rx).ctm = s.ctm := by
  unfold State.tryIntegrate
  dsimp only
  split <;> simp -implicitDefEqProofs

@[simp] theorem State.roundWon_ctm (s : State) : s.roundWon.ctm = s.ctm := by simp [State.roundWon]

@[simp] theorem State.checkAcks_ctm (s : State) : s.checkAcks.ctm = s.ctm := by
  unfold State.checkAcks
  split <;> simp

@[simp] theorem State.frameKept_ctm (s : State) (chB : Bool) (f : BusFrame) : (s.frameKept chB f).ctm = s.ctm := by simp [State.frameKept]

@[simp] theorem State.requestIn_ctm (s : State) (f : BusFrame) : (s.requestIn f).ctm = s.ctm := by
  unfold State.requestIn
  dsimp only
  split <;> simp -implicitDefEqProofs

@[simp] theorem State.leaderSyncIn_ctm (s : State) (chB : Bool) (f : BusFrame) : (s.leaderSyncIn chB f).ctm = s.ctm := by simp [State.leaderSyncIn]

@[simp] theorem State.syncOffset_ctm (s : State) (chB port : Bool) (rx : BusRx) : (s.syncOffset chB port rx).ctm = s.ctm := rfl

@[simp] theorem State.clockCorrect_ctm (s : State) : s.clockCorrect.ctm = s.ctm := by simp [State.clockCorrect]

@[simp] theorem State.roundFailed_ctm (s : State) : s.roundFailed.ctm = s.ctm := by simp [State.roundFailed]

@[simp] theorem State.takeLead_ctm (s : State) (k : Nat) : (s.takeLead k).ctm = s.ctm := by simp [State.takeLead]

@[simp] theorem State.modeCancel_ctm (s : State) (r : ModeReq) : (s.modeCancel r).ctm = s.ctm := by simp [State.modeCancel]

@[simp] theorem State.modeSwitch_ctm (s : State) (r : ModeReq) (w : Nat) : (s.modeSwitch r w).ctm = s.ctm := by simp [State.modeSwitch]

/-! ### Bus images -/

@[simp] theorem State.loadGraticule_ctm (s : State) : s.loadGraticule.ctm = s.ctm := by
  unfold State.loadGraticule
  extract_lets a finish
  have hf (t : State) (r i : Nat) : (finish t r i).ctm = t.ctm := State.busEvent_ctm ..
  refine State.ite_ctm_eq (hf ..) ?_
  split
  next t hr => exact (hf ..).trans ((ctm_eq_of_pair hr).trans (State.readMem_ctm ..))
  next t h hr =>
    have ht : t.ctm = s.ctm := (ctm_eq_of_pair hr).trans (State.readMem_ctm ..)
    refine State.ite_ctm_eq ((hf ..).trans ht) (State.ite_ctm_eq ((hf ..).trans ht) ?_)
    split
    next u hu => exact (hf ..).trans ((ctm_eq_of_pair hu).trans ((State.readMem_ctm ..).trans ht))
    next u l hu =>
      have h : u.ctm = s.ctm := (ctm_eq_of_pair hu).trans ((State.readMem_ctm ..).trans ht)
      exact (hf ..).trans (State.ite_ctm_eq h h)

/-! ### The bus commands -/

@[simp] theorem State.portCfg_ctm (s : State) (chB port : Bool) (v : W32) : (s.portCfg chB port v).ctm = s.ctm := by
  simp -implicitDefEqProofs [State.portCfg]

@[simp] theorem State.busLink_ctm (s : State) (chB port up speedOk : Bool) : (s.busLink chB port up speedOk).ctm = s.ctm := rfl

@[simp] theorem State.heedLeader_ctm (s : State) (chB port : Bool) (rx : BusRx) : (s.heedLeader chB port rx).ctm = s.ctm := by simp [State.heedLeader]

@[simp] theorem State.syncKept_ctm (s : State) (chB port : Bool) (rx : BusRx) : (s.syncKept chB port rx).ctm = s.ctm := by
  unfold State.syncKept
  split <;> simp

@[simp] theorem State.markSlot_ctm (s : State) (chB : Bool) (slot : Nat) : (s.markSlot chB slot).ctm = s.ctm := rfl

@[simp] theorem sendDlyreq_ctm (chB : Bool) (slot : Nat) (ps : List Bool) (s : State) : (sendDlyreq chB slot ps s).ctm = s.ctm := by
  induction ps generalizing s with
  | nil => rfl
  | cons p ps ih => simp -implicitDefEqProofs [sendDlyreq, ih]

@[simp] theorem slotAll_ctm (chB : Bool) (f : BusFrame) (by_ gone len : Nat) (ps : List Bool) (s : State) :
    (slotAll chB f by_ gone len ps s).1.ctm = s.ctm := by
  induction ps generalizing s with
  | nil => rfl
  | cons p ps ih => exact (ih _).trans (State.slotOut_ctm ..)

@[simp] theorem State.syncBegin_ctm (s : State) : s.syncBegin.ctm = s.ctm := by simp [State.syncBegin]

@[simp] theorem State.sendSync_ctm (s : State) (chB : Bool) (e : GEntry) (by_ gone : Nat) : (s.sendSync chB e by_ gone).ctm = s.ctm := by
  simp [State.sendSync]

@[simp] theorem State.countAged_ctm (s : State) (chB : Bool) (rs : List FlowRec) : (s.countAged chB rs).ctm = s.ctm := by
  simp -implicitDefEqProofs [State.countAged]

@[simp] theorem State.sendData_ctm (s : State) (chB : Bool) (e : GEntry) (x : SlotSend) (gone : Nat) : (s.sendData chB e x gone).ctm = s.ctm := by
  grind [State.sendData, State.countAged_ctm, State.txRead_ctm, slotAll_ctm, State.count_ctm]

@[simp] theorem State.busEn_ctm (s : State) (on : Bool) : (s.busEn on).ctm = s.ctm := by simp [State.busEn]

@[simp] theorem State.busStart_ctm (s : State) : s.busStart.ctm = s.ctm := rfl

@[simp] theorem State.vbaCtl_ctm (s : State) (v : W32) : (s.vbaCtl v).ctm = s.ctm := by simp -implicitDefEqProofs [State.vbaCtl]

@[simp] theorem State.modeReq_ctm (s : State) (m : Nat) : (s.modeReq m).ctm = s.ctm := by simp [State.modeReq]

@[simp] theorem State.relGrant_ctm (s : State) (chB : Bool) (slot : Nat) : (s.relGrant chB slot).ctm = s.ctm := rfl

@[simp] theorem State.zw0_ctm (s : State) (v : W32) : (s.zw0 v).ctm = s.ctm := rfl

@[simp] theorem State.zw1_ctm (s : State) (v : W32) : (s.zw1 v).ctm = s.ctm := by simp [State.zw1]

/-! ### The commands of DMA -/

@[simp] theorem State.dmaByReg_ctm (s : State) (d ch code : Nat) : (s.dmaByReg d ch code).ctm = s.ctm := by simp [State.dmaByReg]

@[simp] theorem dmaCmd_ctm (src : EngSrc) (code : Nat) (s : State) : (dmaCmd src code s).ctm = s.ctm := by
  cases src with
  | engw c rd ra rb => exact runInstr_ctm (fun t => State.engw_ctm (fun _ _ _ _ => State.dmaCommand_ctm ..) ..) c s
  | reg d n => exact State.dmaByReg_ctm ..

@[simp] theorem dmaEngr_ctm (c : CoreId) (rd rb : Reg) (code : Nat) (s : State) : (dmaEngr c rd rb code s).ctm = s.ctm :=
  runInstr_ctm (fun _ => State.engr_ctm ..) c s

@[simp] theorem State.dmaKind_ctm (s : State) (d ch kind : Nat) : (s.dmaKind d ch kind).ctm = s.ctm := by grind [State.dmaKind, State.dmaTake_ctm]

/-! ### The commands of Meridian -/

@[simp] theorem State.stepRequest_ctm (s : State) : s.stepRequest.ctm = s.ctm := by simp [State.stepRequest]

@[simp] theorem State.bindRequest_ctm (s : State) : s.bindRequest.ctm = s.ctm := rfl

/-! ### The items of Triangulation -/

@[simp] theorem State.updTri_ctm (s : State) (d : Nat) (f : Tri → Tri) : (s.updTri d f).ctm = s.ctm := rfl

@[simp] theorem State.triFetch_ctm (s : State) (t : TriItem) : (s.triFetch t).1.ctm = s.ctm := by
  unfold State.triFetch
  split <;> simp

@[simp] theorem writeOuts_ctm (outs : List (Nat × List Byte)) (s : State) : (writeOuts outs s).1.ctm = s.ctm := (writeOuts_wroteIn outs s).ctm

@[simp] theorem State.triItemEnd_ctm (s : State) (d i : Nat) (b : TriBatch) (t : TriItem) (r : TriRes) :
    (s.triItemEnd d i b t r).ctm = s.ctm := by simp -implicitDefEqProofs [State.triItemEnd]

@[simp] theorem State.triStartNext_ctm (s : State) (d : Nat) : (s.triStartNext d).ctm = s.ctm := by
  unfold State.triStartNext
  split <;> simp

@[simp] theorem State.triStartItems_ctm (s : State) (d : Nat) : (s.triStartItems d).ctm = s.ctm := by simp [State.triStartItems]

@[simp] theorem State.triFinish_ctm (s : State) (b : TriBatch) (i : Nat) (p : TriStart) (cut : Option Nat) (sweeps : Nat) :
    (s.triFinish b i p cut sweeps).1.ctm = s.ctm := by grind [State.triFinish, State.triFetch_ctm, State.readMem_ctm]

@[simp] theorem State.triRun_ctm (s : State) (d i k sweeps : Nat) : (s.triRun d i k sweeps).ctm = s.ctm := by
  grind [State.triRun, State.triStartItems_ctm, State.triFinish_ctm, State.triItemEnd_ctm]

@[simp] theorem State.triStart_ctm (s : State) (d : Nat) : (s.triStart d).ctm = s.ctm := by
  grind [State.triStart, State.triStartItems_ctm, State.updTri_ctm, State.readMem_ctm]

@[simp] theorem State.triEnd_ctm (s : State) (d : Nat) : (s.triEnd d).ctm = s.ctm := by
  unfold State.triEnd
  repeat' split
  all_goals simp -implicitDefEqProofs

@[simp] theorem State.triCommand_ctm (s : State) (d code : Nat) (v : W64) : (s.triCommand d code v).1.ctm = s.ctm := by simp [State.triCommand]

@[simp] theorem State.triByReg_ctm (s : State) (d code : Nat) : (s.triByReg d code).ctm = s.ctm := by simp [State.triByReg]

@[simp] theorem State.triTauWrite_ctm (s : State) (d : Nat) (v : W32) : (s.triTauWrite d v).ctm = s.ctm := by simp [State.triTauWrite]

/-! ### The commands of Triangulation -/

@[simp] theorem State.triQueue_ctm (s : State) (d addr : Nat) : (s.triQueue d addr).1.ctm = s.ctm := by
  unfold State.triQueue
  dsimp only
  repeat' split
  all_goals simp -implicitDefEqProofs

@[simp] theorem State.solve_ctm (s : State) (c : CoreId) (rd ra rb : Reg) : (s.solve c rd ra rb).state.ctm = s.ctm := by
  unfold State.solve
  split
  · rfl
  next d _ =>
  extract_lets a
  split
  · rfl
  split
  next t hl => exact (ctm_eq_of_pair hl).trans (State.load_ctm ..)
  next t l hl =>
    have ht : t.ctm = s.ctm := (ctm_eq_of_pair hl).trans (State.load_ctm ..)
    exact (State.put_ctm ..).trans ((State.triQueue_ctm t d a).trans ht)

@[simp] theorem State.triItemRow_ctm (s : State) (die item k sweeps : Nat) : (s.triItemRow die item k sweeps).ctm = s.ctm := by
  grind [State.triItemRow, State.triRun_ctm]

@[simp] theorem triCmd_ctm (src : EngSrc) (code : Nat) (s : State) : (triCmd src code s).ctm = s.ctm := by
  cases src with
  | engw c rd ra rb => exact runInstr_ctm (fun t => State.engw_ctm (fun _ _ _ _ => State.triCommand_ctm ..) ..) c s
  | reg d n => simp [triCmd]

@[simp] theorem triEngr_ctm (c : CoreId) (rd rb : Reg) (code : Nat) (s : State) : (triEngr c rd rb code s).ctm = s.ctm :=
  runInstr_ctm (fun _ => State.engr_ctm ..) c s

/-! ### Traverse of a die -/

@[simp] theorem State.trvCommand_ctm (s : State) (d n code : Nat) (v : W64) : (s.trvCommand d n code v).1.ctm = s.ctm := by
  unfold State.trvCommand
  dsimp only
  repeat' split
  all_goals simp -implicitDefEqProofs

/-! ### The cell modes -/

@[simp] theorem State.updSys_ctm (s : State) (f : Sys → Sys) : (s.updSys f).ctm = s.ctm := rfl

@[simp] theorem State.freshWord_ctm (s : State) (m : Nat) : (s.freshWord m).1.ctm = s.ctm := rfl

@[simp] theorem State.sfyEvent_ctm (s : State) (code obj res : Nat) : (s.sfyEvent code obj res).ctm = s.ctm := by simp [State.sfyEvent]

@[simp] theorem State.sheetTo_ctm (s : State) (d : Nat) (st : SheetSt) : (s.sheetTo d st).ctm = s.ctm := by simp [State.sheetTo]

@[simp] theorem State.startReadmit_ctm (s : State) (d : Nat) : (s.startReadmit d).ctm = s.ctm := by simp [State.startReadmit]

@[simp] theorem State.endDrain_ctm (s : State) (d : Nat) : (s.endDrain d).ctm = s.ctm := by simp [State.endDrain]

@[simp] theorem State.wipeSheet_ctm (s : State) (d : Nat) : (s.wipeSheet d).ctm = s.ctm := rfl

@[simp] theorem State.releaseCores_ctm (s : State) (d : Nat) : (s.releaseCores d).ctm = s.ctm := by simp -implicitDefEqProofs [State.releaseCores]

@[simp] theorem State.putInService_ctm (s : State) (d : Nat) : (s.putInService d).ctm = s.ctm := by simp [State.putInService]

@[simp] theorem State.endShut_ctm (s : State) : s.endShut.ctm = s.ctm := by simp [State.endShut]

@[simp] theorem State.askShut_ctm (s : State) : s.askShut.ctm = s.ctm := by simp [State.askShut]

@[simp] theorem State.askResume_ctm (s : State) : s.askResume.ctm = s.ctm := by simp [State.askResume]

@[simp] theorem State.compatWrite_ctm (s : State) (v : Bool) : (s.compatWrite v).ctm = s.ctm := by simp [State.compatWrite]

/-! ### The boot image -/

@[simp] theorem State.updSfy_ctm (s : State) (f : Sfy → Sfy) : (s.updSfy f).ctm = s.ctm := rfl

@[simp] theorem State.flashPut_ctm (s : State) (b : Bool) (o : Nat) (l : List Byte) : (s.flashPut b o l).ctm = s.ctm := rfl

@[simp] theorem State.reportFlash_ctm (s : State) (b : Bool) (st seq : Nat) : (s.reportFlash b st seq).ctm = s.ctm := rfl

@[simp] theorem State.markBad'_ctm (s : State) (b : Bool) : (s.markBad' b).ctm = s.ctm := rfl

@[simp] theorem State.useTrial_ctm (s : State) (b : Bool) : (s.useTrial b).ctm = s.ctm := by
  unfold State.useTrial
  dsimp only
  split <;> simp -implicitDefEqProofs

@[simp] theorem State.scanFlash_ctm (s : State) (b : Bool) : (s.scanFlash b).1.ctm = s.ctm := by
  unfold State.scanFlash
  dsimp only
  split <;> simp -implicitDefEqProofs

@[simp] theorem State.runImage_ctm (s : State) (b : Bool) : (s.runImage b).ctm = s.ctm := by simp [State.runImage]

@[simp] theorem State.selectImage_ctm (s : State) : s.selectImage.ctm = s.ctm := by
  unfold State.selectImage
  dsimp only
  split <;> simp -implicitDefEqProofs

/-! ### Cartouche -/

@[simp] theorem State.updCrt_ctm (s : State) (f : Crt → Crt) : (s.updCrt f).ctm = s.ctm := rfl

@[simp] theorem State.updCh'_ctm (s : State) (c : Nat) (f : CrtCh → CrtCh) : (s.updCh' c f).ctm = s.ctm := rfl

@[simp] theorem State.massOf_ctm (s : State) (c : Nat) (v : Int) (n : Nat) : (s.massOf c v n).1.ctm = s.ctm := by
  unfold State.massOf
  split <;> simp

@[simp] theorem State.mailPut_ctm (s : State) (c code : Nat) (ws : List W32) : (s.mailPut c code ws).ctm = s.ctm := by simp [State.mailPut]

@[simp] theorem State.initialZero_ctm (s : State) (c : Nat) : (s.initialZero c).ctm = s.ctm := by
  unfold State.initialZero
  split <;> simp

@[simp] theorem State.trackZero_ctm (s : State) (c : Nat) : (s.trackZero c).ctm = s.ctm := by
  unfold State.trackZero
  split <;> simp

@[simp] theorem State.crtEffect_ctm (s : State) (k : CrtCmd) : (s.crtEffect k).ctm = s.ctm := rfl

@[simp] theorem State.crtRefuse_ctm (s : State) (k : CrtCmd) : (s.crtRefuse k).ctm = s.ctm := rfl

@[simp] theorem State.crtTake_ctm (s : State) (c : Nat) : (s.crtTake c).ctm = s.ctm := by
  unfold State.crtTake
  split <;> simp

@[simp] theorem State.staticRec_ctm (s : State) (c : Nat) : (s.staticRec c).1.ctm = s.ctm := by
  unfold State.staticRec
  dsimp only
  repeat' split
  all_goals simp -implicitDefEqProofs

@[simp] theorem State.staticMail_ctm (s : State) (c : Nat) : (s.staticMail c).ctm = s.ctm := by simp [State.staticMail]

@[simp] theorem State.noResult_ctm (s : State) (c : Nat) : (s.noResult c).1.ctm = s.ctm := rfl

@[simp] theorem State.crtEnter_ctm (s : State) (c : Nat) (st : CrtSt) : (s.crtEnter c st).ctm = s.ctm := by
  unfold State.crtEnter
  dsimp only
  split <;> simp -implicitDefEqProofs

@[simp] theorem State.emit_ctm (s : State) (c : Nat) (p : CrtSample) : (s.emit c p).ctm = s.ctm := by
  unfold State.emit
  dsimp only
  split <;> simp -implicitDefEqProofs

@[simp] theorem State.chanSet_ctm (s : State) (c : Nat) (p : CrtSample) : (s.chanSet c p).ctm = s.ctm := by
  unfold State.chanSet
  dsimp only
  repeat' split
  all_goals simp -implicitDefEqProofs

@[simp] theorem State.markBad_ctm (s : State) (c at_ : Nat) (ovr : Bool) : (s.markBad c at_ ovr).ctm = s.ctm := by
  simp -implicitDefEqProofs [State.markBad]

@[simp] theorem State.chopEdge_ctm (s : State) : s.chopEdge.ctm = s.ctm := rfl

@[simp] theorem State.crtCommand_ctm (s : State) (c code val : Nat) : (s.crtCommand c code val).ctm = s.ctm := by simp [State.crtCommand]

@[simp] theorem State.windowGo_ctm (s : State) : s.windowGo.ctm = s.ctm := by simp [State.windowGo]

@[simp] theorem State.winMass_ctm (s : State) (c : Nat) (w : CrtWin) : (s.winMass c w).1.ctm = s.ctm := by
  unfold State.winMass
  dsimp only
  split <;> simp -implicitDefEqProofs

@[simp] theorem State.windowEnd_ctm (s : State) (c : Nat) (w : CrtWin) : (s.windowEnd c w).ctm = s.ctm := by
  unfold State.windowEnd
  dsimp only
  split <;> simp -implicitDefEqProofs

/-! ### The legal side of Cartouche -/

@[simp] theorem State.updStore_ctm (s : State) (f : CrtStore → CrtStore) : (s.updStore f).ctm = s.ctm := rfl

@[simp] theorem State.chopRest_ctm (s : State) : s.chopRest.ctm = s.ctm := by simp [State.chopRest]

@[simp] theorem State.startCh_ctm (s : State) (c : Nat) (fail restart : Bool) : (s.startCh c fail restart).ctm = s.ctm := by
  simp [State.startCh]

@[simp] theorem State.trailAdd_ctm (s : State) (kind obj seq old new : Nat) : (s.trailAdd kind obj seq old new).ctm = s.ctm := by
  unfold State.trailAdd
  dsimp only
  repeat' split
  all_goals simp -implicitDefEqProofs

@[simp] theorem State.trailFree_ctm (s : State) (kind : Nat) (seq : Option Nat) : (s.trailFree kind seq).ctm = s.ctm := by
  unfold State.trailFree
  dsimp only
  split <;> simp -implicitDefEqProofs

@[simp] theorem State.sealTo_ctm (s : State) (opened : Bool) : (s.sealTo opened).ctm = s.ctm := by simp [State.sealTo]

@[simp] theorem State.crtRestart_ctm (s : State) : s.crtRestart.ctm = s.ctm := by simp [State.crtRestart]

@[simp] theorem State.lstTo_ctm (s : State) (r : Nat) : (s.lstTo r).ctm = s.ctm := rfl

@[simp] theorem State.keyRef_ctm (s : State) (seq : Nat) : (s.keyRef seq).ctm = s.ctm := by simp [State.keyRef]

@[simp] theorem State.legalRead_ctm (s : State) : s.legalRead.1.ctm = s.ctm := by grind [State.legalRead, State.readMem_ctm]

@[simp] theorem State.abortWin_ctm (s : State) (c : Nat) : (s.abortWin c).ctm = s.ctm := by
  unfold State.abortWin
  dsimp only
  split <;> simp -implicitDefEqProofs

@[simp] theorem State.putRecord_ctm (s : State) (i seq : Nat) (l : List Byte) : (s.putRecord i seq l).ctm = s.ctm := by
  unfold State.putRecord
  dsimp only
  split <;> simp -implicitDefEqProofs

@[simp] theorem State.holdProgram_ctm (s : State) (seq : Nat) (p : List Byte) : (s.holdProgram seq p).ctm = s.ctm := by simp [State.holdProgram]

@[simp] theorem State.startTimer_ctm (s : State) : s.startTimer.ctm = s.ctm := rfl

@[simp] theorem State.legalEffect_ctm (s : State) (l : List Byte) : (s.legalEffect l).ctm = s.ctm := by
  unfold State.legalEffect
  split <;> simp

@[simp] theorem State.legalGo_ctm (s : State) : s.legalGo.ctm = s.ctm := by
  grind [State.legalGo, State.updCrt_ctm, State.legalEffect_ctm, State.legalRead_ctm, State.lstTo_ctm, State.keyRef_ctm]

@[simp] theorem State.closeSession_ctm (s : State) (kind : Nat) : (s.closeSession kind).ctm = s.ctm := by
  unfold State.closeSession
  dsimp only
  split <;> simp -implicitDefEqProofs

@[simp] theorem State.reseal_ctm (s : State) : s.reseal.ctm = s.ctm := by simp [State.reseal]

/-! ### The host ports -/

@[simp] theorem State.hostEn_ctm (s : State) (b on : Bool) : (s.hostEn b on).ctm = s.ctm := by simp [State.hostEn]

@[simp] theorem State.hostLink_ctm (s : State) (b up speedOk : Bool) : (s.hostLink b up speedOk).ctm = s.ctm := by simp [State.hostLink]

@[simp] theorem State.tsCount_ctm (s : State) (b : Bool) (lo : Nat) : (s.tsCount b lo).ctm = s.ctm := rfl

@[simp] theorem State.rxStamp_ctm (s : State) (b : Bool) (l : List Byte) (ts : Nat) : (s.rxStamp b l ts).ctm = s.ctm := by
  unfold State.rxStamp
  dsimp only
  split <;> simp -implicitDefEqProofs

@[simp] theorem State.txStamp_ctm (s : State) (b : Bool) (l : List Byte) (ts : Nat) : (s.txStamp b l ts).ctm = s.ctm := by
  unfold State.txStamp
  dsimp only
  split <;> simp -implicitDefEqProofs

@[simp] theorem State.passThrough_ctm (s : State) (b : Bool) (l : List Byte) (ts : Nat) : (s.passThrough b l ts).ctm = s.ctm := by
  simp -implicitDefEqProofs [State.passThrough]

@[simp] theorem State.hostDeliver_ctm (s : State) (b : Bool) (rx : HostRx) : (s.hostDeliver b rx).ctm = s.ctm := by simp [State.hostDeliver]

@[simp] theorem State.capWords_ctm (s : State) (r : Nat) (ws : List W32) : (s.capWords r ws).ctm = s.ctm := by
  induction ws generalizing s r with
  | nil => rfl
  | cons w ws ih => exact ih ..

@[simp] theorem State.readRxTs_ctm (s : State) (b : Bool) : (s.readRxTs b).2.ctm = s.ctm := by simp [State.readRxTs]

@[simp] theorem State.readTxTs_ctm (s : State) (b : Bool) : (s.readTxTs b).2.ctm = s.ctm := by simp [State.readTxTs]

/-! ### Boot and reset -/

@[simp] theorem State.applyConfig_ctm (s : State) (l : List Byte) : (s.applyConfig l).ctm = s.ctm := by simp -implicitDefEqProofs [State.applyConfig]

@[simp] theorem State.bootAdmit_ctm (s : State) (d failed : Nat) : (s.bootAdmit d failed).ctm = s.ctm := by simp [State.bootAdmit]

@[simp] theorem State.copySect_ctm (s : State) (x : BSect) : (s.copySect x).ctm = s.ctm := by
  unfold State.copySect
  split <;> simp

@[simp] theorem State.logRefused_ctm (s : State) (x : BSect) (r : Nat) : (s.logRefused x r).ctm = s.ctm := by simp [State.logRefused]

@[simp] theorem State.bootGraticule_ctm (s : State) (x : BSect) : (s.bootGraticule x).ctm = s.ctm := by simp [State.bootGraticule]

@[simp] theorem State.bootPost_ctm (s : State) (l : List Byte) : (s.bootPost l).ctm = s.ctm := by
  unfold State.bootPost
  split <;> simp

@[simp] theorem State.warmCore_ctm (s : State) (i : Nat) : (s.warmCore i).ctm = s.ctm := rfl

@[simp] theorem State.warmHold_ctm (s : State) : s.warmHold.ctm = s.ctm := by simp -implicitDefEqProofs [State.warmHold]

@[simp] theorem State.warmRdn_ctm (s : State) : s.warmRdn.ctm = s.ctm := by simp [State.warmRdn]

@[simp] theorem State.maskedEdge_ctm (s : State) (low : Bool) : (s.maskedEdge low).ctm = s.ctm := by simp [State.maskedEdge]

/-! ### The integer instructions -/

@[simp] theorem State.jump_ctm (s : State) (c : CoreId) (target : Nat) : (s.jump c target).state.ctm = s.ctm := by
  unfold State.jump
  split <;> simp

@[simp] theorem State.branch_ctm (s : State) (c : CoreId) (op : Nat) (ra rb : Reg) (off : BitVec 16) :
    (s.branch c op ra rb off).state.ctm = s.ctm := by
  unfold State.branch
  split <;> simp

@[simp] theorem State.link_ctm (s : State) (c : CoreId) (r : Reg) : (s.link c r).ctm = s.ctm := rfl

@[simp] theorem State.jumpLink_ctm (s : State) (c : CoreId) (r : Reg) (target : Nat) : (s.jumpLink c r target).state.ctm = s.ctm := by
  unfold State.jumpLink
  split <;> simp

/-! ### Surveyor -/

@[simp] theorem State.sfyEnd_ctm (s : State) (r : Nat) : (s.sfyEnd r).ctm = s.ctm := by simp [State.sfyEnd]

@[simp] theorem State.sheetReq_ctm (s : State) (code : Nat) : (s.sheetReq code).ctm = s.ctm := by simp [State.sheetReq]

@[simp] theorem State.sfyRetire_ctm (s : State) : s.sfyRetire.ctm = s.ctm := by simp [State.sfyRetire]

@[simp] theorem State.sfyReadmit_ctm (s : State) : s.sfyReadmit.ctm = s.ctm := by simp [State.sfyReadmit]

@[simp] theorem State.sfySurvey_ctm (s : State) : s.sfySurvey.ctm = s.ctm := by simp [State.sfySurvey]

@[simp] theorem State.sfyConfirm_ctm (s : State) : s.sfyConfirm.ctm = s.ctm := by simp [State.sfyConfirm]

@[simp] theorem State.sfyRestartTo_ctm (s : State) (b rollback : Bool) : (s.sfyRestartTo b rollback).ctm = s.ctm := rfl

@[simp] theorem State.sfySwitch_ctm (s : State) : s.sfySwitch.ctm = s.ctm := by
  grind [State.sfySwitch, State.sfyRestartTo_ctm, State.scanFlash_ctm, State.sfyEnd_ctm, State.useTrial_ctm]

@[simp] theorem State.freeBytes_ctm (s : State) (n : Nat) : (s.freeBytes n).1.ctm = s.ctm := rfl

@[simp] theorem State.flashProgram_ctm (s : State) (b : Bool) (o : Nat) (l : List Byte) (good : Bool) :
    (s.flashProgram b o l good).ctm = s.ctm := by grind [State.flashProgram, State.freeBytes_ctm, State.flashPut_ctm, State.reportFlash_ctm]

@[simp] theorem State.sfyFlashwr_ctm (s : State) (good : Bool) : (s.sfyFlashwr good).ctm = s.ctm := by
  grind [State.sfyFlashwr, State.flashProgram_ctm, State.sfyEnd_ctm, State.readMem_ctm]

@[simp] theorem State.sfyRun_ctm {f : State → State} (h : ∀ t, (f t).ctm = t.ctm) (s : State) (rom : Bool) : (s.sfyRun rom f).ctm = s.ctm := by
  simp [State.sfyRun, h]

@[simp] theorem State.signedBytes_ctm (s : State) (src : SignedSrc) : (s.signedBytes src).1.ctm = s.ctm := by
  unfold State.signedBytes
  grind [State.readMem_ctm]

@[simp] theorem State.authFail_ctm (s : State) (kind r seq : Nat) : (s.authFail kind r seq).ctm = s.ctm := by simp [State.authFail]

/-- A signed command leaves the Contour state, but for what the command does once it is accepted. -/
theorem State.signed_cases (s : State) (src : SignedSrc) (kind : Nat) (f : List Byte → Bool → State → State) :
    (s.signed src kind f).ctm = s.ctm ∨ ∃ l b t, t.ctm = s.ctm ∧ s.signed src kind f = f l b t := by
  unfold State.signed
  split
  next t hr => exact .inl ((State.authFail_ctm ..).trans ((ctm_eq_of_pair hr).trans (State.signedBytes_ctm ..)))
  next t l hr =>
    have ht : t.ctm = s.ctm := (ctm_eq_of_pair hr).trans (State.signedBytes_ctm ..)
    have hfail (seq reason : Nat) : (t.authFail kind reason seq).ctm = s.ctm := (State.authFail_ctm ..).trans ht
    extract_lets l' seq role sig
    split
    · exact .inl (hfail ..)
    split
    · exact .inl (hfail ..)
    split
    · split
      · exact .inr ⟨l', false, t, ht, rfl⟩
      · exact .inl (hfail ..)
    · split
      · exact .inl (hfail ..)
      split
      · exact .inl (hfail ..)
      · exact .inr ⟨l', true, t, ht, rfl⟩

theorem State.signed_ctm {f : List Byte → Bool → State → State} (h : ∀ l b t, (f l b t).ctm = t.ctm) (s : State) (src : SignedSrc) (kind : Nat) :
    (s.signed src kind f).ctm = s.ctm := by
  obtain hs | ⟨l, b, t, ht, hs⟩ := s.signed_cases src kind f
  · exact hs
  · rw [hs, h, ht]

@[simp] theorem State.tookSeq_ctm (s : State) (role seq : Nat) : (s.tookSeq role seq).ctm = s.ctm := rfl

@[simp] theorem State.enrol_ctm (l : List Byte) (signed : Bool) (s : State) : (State.enrol l signed s).ctm = s.ctm := by simp [State.enrol]

@[simp] theorem State.keyenrol_ctm (s : State) (src : SignedSrc) : (s.keyenrol src).ctm = s.ctm := State.signed_ctm State.enrol_ctm s src 2

@[simp] theorem State.sfyAnswer_ctm (s : State) (src : SignedSrc) : (s.sfyAnswer src).ctm = s.ctm := by simp [State.sfyAnswer]

@[simp] theorem State.sfySigned_ctm {f : State → State} (h : ∀ t, (f t).ctm = t.ctm) (s : State) (src : SignedSrc) (rom : Bool) :
    (s.sfySigned src rom f).ctm = s.ctm := by
  simp [State.sfySigned, h]

@[simp] theorem State.freeFails_ctm (s : State) : s.freeFails.1.ctm = s.ctm := rfl

@[simp] theorem State.logSensor_ctm (s : State) (sev n : Nat) (v : Int) (lim : Nat) : (s.logSensor sev n v lim).ctm = s.ctm := by
  simp [State.logSensor]

@[simp] theorem State.tempSample_ctm (s : State) (n : Nat) (t : Int) : (s.tempSample n t).ctm = s.ctm := by
  simp -implicitDefEqProofs [State.tempSample]

@[simp] theorem State.railSample_ctm (s : State) (n mv : Nat) : (s.railSample n mv).ctm = s.ctm := by simp -implicitDefEqProofs [State.railSample]

/-! ### The power supply -/

@[simp] theorem State.updFeed_ctm (s : State) (b : Bool) (f : Feed → Feed) : (s.updFeed b f).ctm = s.ctm := by simp [State.updFeed]

@[simp] theorem State.feedFault_ctm (s : State) (b : Bool) (cls : Nat) : (s.feedFault b cls).ctm = s.ctm := by simp [State.feedFault]

@[simp] theorem State.unblock_ctm (s : State) (b : Bool) : (s.unblock b).ctm = s.ctm := by simp [State.unblock]

@[simp] theorem State.blockRelease_ctm (s : State) (b : Bool) : (s.blockRelease b).ctm = s.ctm := by simp -implicitDefEqProofs [State.blockRelease]

@[simp] theorem State.feedSampled_ctm (s : State) (b : Bool) (mv ma : Nat) : (s.feedSampled b mv ma).ctm = s.ctm := by simp [State.feedSampled]

@[simp] theorem State.checkBlocks_ctm (s : State) : s.checkBlocks.ctm = s.ctm := by simp [State.checkBlocks]

@[simp] theorem State.orSample_ctm (s : State) (mvOr : Nat) : (s.orSample mvOr).ctm = s.ctm := by simp [State.orSample]

@[simp] theorem State.blockFeed_ctm (s : State) (b on : Bool) : (s.blockFeed b on).ctm = s.ctm := by simp [State.blockFeed]

/-! ### The commands of SLE -/

@[simp] theorem State.sleByReg_ctm (s : State) (d n code : Nat) : (s.sleByReg d n code).ctm = s.ctm := by simp [State.sleByReg]

@[simp] theorem sleCmd_ctm (src : EngSrc) (code : Nat) (s : State) : (sleCmd src code s).ctm = s.ctm := by
  cases src with
  | engw c rd ra rb => exact runInstr_ctm (fun t => State.engw_ctm (fun _ _ _ _ => State.sleCommand_ctm ..) ..) c s
  | reg d n => exact State.sleByReg_ctm ..

@[simp] theorem State.sleTarget_ctm (s : State) (d n : Nat) (b : Bool) : (s.sleTarget d n b).ctm = s.ctm := by simp [State.sleTarget]

@[simp] theorem sleEngr_ctm (c : CoreId) (rd rb : Reg) (code : Nat) (s : State) : (sleEngr c rd rb code s).ctm = s.ctm :=
  runInstr_ctm (fun _ => State.engr_ctm ..) c s

/-! ### The commands of Traverse -/

@[simp] theorem State.trvByReg_ctm (s : State) (d n code : Nat) : (s.trvByReg d n code).ctm = s.ctm := by simp [State.trvByReg]

@[simp] theorem trvCmd_ctm (src : TrvSrc) (code : Nat) (s : State) : (trvCmd src code s).ctm = s.ctm := by
  cases src with
  | engw c hub rd ra rb => exact runInstr_ctm (fun t => State.engw_ctm (fun _ _ _ _ => State.trvCommand_ctm ..) ..) c s
  | reg d n => exact State.trvByReg_ctm ..

@[simp] theorem trvEngr_ctm (c : CoreId) (hub : Bool) (rd rb : Reg) (code : Nat) (s : State) : (trvEngr c hub rd rb code s).ctm = s.ctm :=
  runInstr_ctm (fun _ => State.engr_ctm ..) c s

@[simp] theorem State.setEnc_ctm (s : State) (n : Nat) (x : Enc) : (s.setEnc n x).ctm = s.ctm := rfl

/-! ### The commands of the Work Dispatcher -/

@[simp] theorem State.evtCtl_ctm (s : State) (e : Nat) (v : W32) : (s.evtCtl e v).ctm = s.ctm := by simp [State.evtCtl]

@[simp] theorem State.wdxCancel_ctm (s : State) (m : Master) (handle : Nat) : (s.wdxCancel m handle).ctm = s.ctm := by
  unfold State.wdxCancel
  dsimp only
  split <;> simp -implicitDefEqProofs

@[simp] theorem State.wdxQuery_ctm (s : State) (m : Master) (handle : Nat) : (s.wdxQuery m handle).ctm = s.ctm := by
  unfold State.wdxQuery
  split <;> simp

@[simp] theorem State.crSize_ctm (s : State) (v : W32) : (s.crSize v).ctm = s.ctm := by simp [State.crSize]

@[simp] theorem State.wdxWrite_ctm (s : State) (m : Master) (off : Nat) (v : W32) : (s.wdxWrite m off v).ctm = s.ctm := by
  unfold State.wdxWrite
  repeat' split
  all_goals simp

/-! ### The register path -/

@[simp] theorem State.plain_ctm (s : State) (r : Nat) (v : W32) : (s.plain r v).ctm = s.ctm := rfl

@[simp] theorem State.sysWrite_ctm (s : State) (off : Nat) (v : W32) : (s.sysWrite off v).ctm = s.ctm := by
  unfold State.sysWrite
  split <;> simp

@[simp] theorem State.merWrite_ctm (s : State) (off : Nat) (v : W32) : (s.merWrite off v).ctm = s.ctm := by
  unfold State.merWrite
  split <;> simp

@[simp] theorem State.vbWrite_ctm (s : State) (chB : Bool) (off : Nat) (v : W32) : (s.vbWrite chB off v).ctm = s.ctm := by
  unfold State.vbWrite
  split <;> simp -implicitDefEqProofs

@[simp] theorem State.hnWrite_ctm (s : State) (b : Bool) (off : Nat) (v : W32) : (s.hnWrite b off v).ctm = s.ctm := by
  simp -implicitDefEqProofs [State.hnWrite]

@[simp] theorem State.dmaWrite_ctm (s : State) (d off : Nat) (v : W32) : (s.dmaWrite d off v).ctm = s.ctm := by
  simp -implicitDefEqProofs [State.dmaWrite]

@[simp] theorem State.memWrite_ctm (s : State) (d off : Nat) (v : W32) : (s.memWrite d off v).ctm = s.ctm := by
  simp -implicitDefEqProofs [State.memWrite]

@[simp] theorem State.crtWrite_ctm (s : State) (off : Nat) (v : W32) : (s.crtWrite off v).ctm = s.ctm := by
  unfold State.crtWrite
  grind [State.windowGo_ctm, State.legalGo_ctm, State.reseal_ctm, State.crtCommand_ctm, State.plain_ctm]

@[simp] theorem State.pwrWrite_ctm (s : State) (off : Nat) (v : W32) : (s.pwrWrite off v).ctm = s.ctm := by simp [State.pwrWrite]

@[simp] theorem State.rdnWrite_ctm (s : State) (off : Nat) (v : W32) : (s.rdnWrite off v).ctm = s.ctm := by simp [State.rdnWrite]

@[simp] theorem State.trvWrite_ctm (s : State) (d off : Nat) (v : W32) : (s.trvWrite d off v).ctm = s.ctm := by
  simp -implicitDefEqProofs [State.trvWrite]

@[simp] theorem State.sleWrite_ctm (s : State) (d off : Nat) (v : W32) : (s.sleWrite d off v).ctm = s.ctm := by
  unfold State.sleWrite
  repeat' split
  all_goals simp -implicitDefEqProofs

@[simp] theorem State.triWrite_ctm (s : State) (d off : Nat) (v : W32) : (s.triWrite d off v).ctm = s.ctm := by
  unfold State.triWrite
  split <;> simp -implicitDefEqProofs

@[simp] theorem State.regRead_ctm (s : State) (m : Master) (r : Nat) : (s.regRead m r).2.ctm = s.ctm := by
  unfold State.regRead
  dsimp only
  repeat' split
  all_goals simp -implicitDefEqProofs

/-! ### Loads -/

@[simp] theorem State.loadOp_ctm (s : State) (c : CoreId) (n : Nat) (signed word : Bool) (hint : BitVec 2) (rt ra : Reg) (disp : BitVec 14) :
    (s.loadOp c n signed word hint rt ra disp).state.ctm = s.ctm := by
  unfold State.loadOp
  extract_lets a
  split
  · rfl
  split
  · rfl
  split
  · exact (State.put_ctm ..).trans (State.regRead_ctm ..)
  split
  next t hl => exact (ctm_eq_of_pair hl).trans (State.load_ctm ..)
  next t l hl => exact (State.put_ctm ..).trans ((ctm_eq_of_pair hl).trans (State.load_ctm ..))

/-! ### The system instructions -/

@[simp] theorem State.dropLine_ctm (s : State) (c : CoreId) (a : Nat) : (s.dropLine c a).ctm = s.ctm := rfl

@[simp] theorem State.atomic_ctm (s : State) (c : CoreId) (size : BitVec 2) (rd : Reg) (a : Nat) (f : Nat → Option Nat) :
    (s.atomic c size rd a f).state.ctm = s.ctm := by
  unfold State.atomic
  split
  · rfl
  extract_lets n
  split
  · rfl
  have hread (src : Nat) : ((s.dropLine c a).readMem a n src).1.ctm = s.ctm := State.readMem_ctm ..
  split
  next t hr => exact (ctm_eq_of_pair hr).trans (hread _)
  next t l hr =>
    have ht : t.ctm = s.ctm := (ctm_eq_of_pair hr).trans (hread _)
    extract_lets old u
    have hu : u.ctm = s.ctm := by
      unfold u
      split
      · exact (writeWords_ctm ..).trans ht
      · exact ht
    exact (State.put_ctm ..).trans hu

end Sys2Proof.Machine
end

section
/-! SUPPORT. What the Contour die's own work may write outside the Contour state: no byte of memory, no core, not Meridian. -/
namespace Sys2Proof.Machine

/-! ### What the work of the Contour die may write -/

/-- `t` is `s` but for the Contour state and what its events, reports and stop commands write. -/
def State.contourOnly (s t : State) : Prop :=
  { t with regs := s.regs, memDie := s.memDie, fb := s.fb, wdx := s.wdx, trv := s.trv, bus := s.bus, ctm := s.ctm, rdn := s.rdn } = s

variable {s t u : State}

theorem State.contourOnly.refl (s : State) : s.contourOnly s := rfl

theorem State.contourOnly.trans (h : s.contourOnly t) (k : t.contourOnly u) : s.contourOnly u := by
  unfold State.contourOnly at *
  rw [← h]; rw [← k]

theorem State.sameBut.contourOnly (h : s.sameBut t) : s.contourOnly t := by
  have k := congrArg (fun x : State => { x with trv := s.trv, bus := s.bus, ctm := s.ctm, rdn := s.rdn }) h
  exact k

/-- The same, the second part given first. -/
theorem State.contourOnly.after (k : t.contourOnly u) (h : s.contourOnly t) : s.contourOnly u := h.trans k

theorem State.contourOnly.sys (h : s.contourOnly t) : t.sys = s.sys := by
  have k := congrArg State.sys h
  exact k

theorem State.contourOnly.mer (h : s.contourOnly t) : t.mer = s.mer := by
  have k := congrArg State.mer h
  exact k

theorem State.contourOnly.spares (h : s.contourOnly t) : s.spares t := by
  have hmem := congrArg State.mem h
  have hcores := congrArg State.cores h
  exact ⟨fun a => congrArg (fun m => Table.get memDefault m a) hmem, fun c => by rw [State.core, State.core]; exact congrArg (fun x => Table.get _ x _) hcores⟩

theorem State.contourOnly.armList (h : s.contourOnly t) : t.armList = s.armList := by rw [State.armList, h.sys, State.armList]

theorem State.contourOnly.upNs (h : s.contourOnly t) : t.upNs = s.upNs := by rw [State.upNs, h.mer, State.upNs]

theorem State.contourOnly.foldl {α : Type} {f : State → α → State} (h : ∀ (s : State) a, s.contourOnly (f s a)) (l : List α) (s : State) :
    s.contourOnly (l.foldl f s) := by
  induction l generalizing s with
  | nil => exact .refl s
  | cons a l ih => exact (h s a).trans (ih _)

theorem State.contourOnly.ite {p : Prop} [Decidable p] (ht : s.contourOnly t) (hu : s.contourOnly u) : s.contourOnly (if p then t else u) := by
  split_ifs <;> assumption

theorem updCtm_contourOnly (s : State) (f : Ctm → Ctm) : s.contourOnly (s.updCtm f) := rfl

theorem ctmEvent_same (s : State) (code arm low : Nat) : s.sameBut (s.ctmEvent code arm low) := ite_same (fireHeld_same ..) rfl

theorem rdnEvent_same (s : State) (code : Nat) : s.sameBut (s.rdnEvent code) := ite_same (fireCoal_same ..) rfl

theorem rdnEnter_contourOnly (s : State) (x : RdnSt) : s.contourOnly (s.rdnEnter x) := by
  unfold State.rdnEnter
  split
  · exact .refl s
  · exact ((log_same ..).trans (rdnEvent_same ..)).contourOnly.after rfl

theorem isolate_contourOnly (s : State) (cause : Nat) : s.contourOnly (s.isolate cause) := (rdnEnter_contourOnly ..).after rfl

theorem rdnRefresh_contourOnly (s : State) : s.contourOnly s.rdnRefresh := .ite ((isolate_contourOnly ..).after rfl) rfl

theorem rdnSafety_contourOnly (s : State) (code : Nat) : s.contourOnly (s.rdnSafety code) := by
  have hbad : s.contourOnly { s with rdn := { s.rdn with safetyBad := true } }.rdnRefresh := (rdnRefresh_contourOnly _).after rfl
  exact .ite (.ite (hbad.trans (isolate_contourOnly ..)) hbad) (.refl s)

theorem ctmDiag_contourOnly (s : State) (code arm obj : Nat) : s.contourOnly (s.ctmDiag code arm obj) :=
  (((log_same ..).trans (ctmEvent_same ..)).contourOnly.trans (rdnSafety_contourOnly ..)).after rfl

theorem reportFound_contourOnly (l : List (Nat × Nat × Nat)) (s : State) : s.contourOnly (reportFound l s) := by
  induction l generalizing s with
  | nil => exact .refl s
  | cons x l ih => exact (ctmDiag_contourOnly ..).trans (ih _)

theorem ctmReport_contourOnly (s : State) : s.contourOnly s.ctmReport := (reportFound_contourOnly ..).after rfl

theorem ctmSettle_contourOnly (s : State) (dev : Option Nat) : s.contourOnly (s.ctmSettle dev) := (ctmReport_contourOnly _).after rfl

theorem driveOuts_contourOnly (s : State) : s.contourOnly s.driveOuts := by
  unfold State.driveOuts
  extract_lets t arms
  exact (ctmSettle_contourOnly s none).trans ((ctmReport_contourOnly _).after (updCtm_contourOnly _ _))

theorem armCommand_contourOnly (s : State) (n code : Nat) : s.contourOnly (s.armCommand n code) := by
  unfold State.armCommand
  split
  · exact .refl s
  · refine .ite (.refl s) (.foldl (fun s j => ?_) _ s)
    rfl

theorem armEnter_contourOnly (s : State) (n : Nat) (a : CtmArm) (sst : Nat) : s.contourOnly (s.armEnter n a sst) := by
  unfold State.armEnter
  refine .ite rfl (.trans (t := (s.updCtm fun c => c.setArm n { a with sst := sst }).ctmEvent 1 (n + 1) 0) ?_ ?_)
  · exact (ctmEvent_same ..).contourOnly.after rfl
  · exact .ite (armCommand_contourOnly ..) (.ite (armCommand_contourOnly ..) (.refl _))

theorem armSto_contourOnly (s : State) (n cause : Nat) : s.contourOnly (s.armSto n cause) :=
  .ite (.refl s) (.ite rfl (armEnter_contourOnly ..))

theorem allSto_contourOnly (s : State) (cause : Nat) : s.contourOnly (s.allSto cause) :=
  (State.contourOnly.foldl (fun _ _ => armSto_contourOnly ..) _ s).trans (driveOuts_contourOnly _)

theorem armDecide_contourOnly (s : State) (n : Nat) (d : Demand) (others pdem : Bool) : s.contourOnly (s.armDecide n d others pdem) := by
  unfold State.armDecide
  dsimp only
  split
  · exact .refl s
  · repeat' split
    all_goals exact armEnter_contourOnly ..

theorem hwRelease_contourOnly (s : State) (n : Nat) : s.contourOnly (s.hwRelease n) := .ite rfl (.refl s)

theorem decideArm_contourOnly (s : State) (lost : Bool) (proc : Option (List ProcArm)) (n : Nat) : s.contourOnly (s.decideArm lost proc n) := by
  unfold State.decideArm
  extract_lets a
  split
  · extract_lets disc a' own hw others a'' s1 s2
    have h2 : s.contourOnly s2 := .ite rfl rfl
    refine h2.trans (.trans ?_ (hwRelease_contourOnly ..))
    split_ifs
    · exact armDecide_contourOnly ..
    · exact armDecide_contourOnly ..
  · exact .refl s

theorem reportDiags_contourOnly (l : List (Nat × Nat × Nat)) (s : State) : s.contourOnly (reportDiags l s) := by
  induction l generalizing s with
  | nil => exact .refl s
  | cons x l ih => exact (State.contourOnly.ite (.refl s) (ctmDiag_contourOnly ..)).trans (ih _)

theorem ctmDecide_contourOnly (s : State) : s.contourOnly s.ctmDecide := by
  unfold State.ctmDecide
  split_ifs
  · exact .refl s
  · extract_lets c proc missing lost s1 s2 ds s3
    have h2 : s.contourOnly s2 := (State.contourOnly.foldl (fun _ _ => decideArm_contourOnly ..) _ s1).after (updCtm_contourOnly _ _)
    exact (h2.trans (reportDiags_contourOnly ..)).trans ((driveOuts_contourOnly _).after (updCtm_contourOnly _ _))

theorem loadEnd_contourOnly (s : State) (arm result word : Nat) : s.contourOnly (s.loadEnd arm result word) := (ctmEvent_same ..).contourOnly.after rfl

theorem imageEffect_contourOnly (s : State) : s.contourOnly s.imageEffect := by
  unfold State.imageEffect
  split
  · exact .refl s
  · extract_lets rest
    split
    · exact .ite ((loadEnd_contourOnly ..).after rfl) (.refl s)
    · exact .ite ((loadEnd_contourOnly ..).after rfl) (.refl s)
    · exact .refl s

end Sys2Proof.Machine
end

section
/-! SUPPORT. The Contour state under samples, outputs and reports (R221–R226). -/
namespace Sys2Proof.Machine

/-! ### The Contour state's tables, read after a write -/

@[simp] theorem Ctm.arm_setArm (c : Ctm) (n m : Nat) (a : CtmArm) : (c.setArm n a).arm m = if m = n then a else c.arm m := Table.get_set ..

@[simp] theorem Ctm.pair_setPair (c : Ctm) (i j : Nat) (x : SinPair) : (c.setPair i x).pair j = if j = i then x else c.pair j := Table.get_set ..

@[simp] theorem Ctm.out_setOut (c : Ctm) (i j : Nat) (x : SafeOut) : (c.setOut i x).out j = if j = i then x else c.out j := Table.get_set ..

@[simp] theorem Ctm.mask_setMask (c : Ctm) (i j : Nat) (x : Option TpMask) : (c.setMask i x).mask j = if j = i then x else c.mask j := Table.get_set ..

/-! ### What the samples and the outputs write -/

/-- `d` is `c` but for the samples taken, masks, safe inputs and outputs, diagnostics, and the demands that failing outputs raise in arms. -/
structure Ctm.sampled (c d : Ctm) : Prop where
  rest : { d with arms := c.arms, samp := c.samp, sin := c.sin, sampV := c.sampV, masks := c.masks, pairs := c.pairs, outs := c.outs,
                  outFail := c.outFail, found := c.found, lastDiag := c.lastDiag, diagCnt := c.diagCnt, hwDiag := c.hwDiag } = c
  arm : ∀ n, { d.arm n with raised := (c.arm n).raised } = c.arm n

/-- The same within one sample. -/
structure Ctm.worked (c d : Ctm) : Prop extends c.sampled d where
  samp : d.samp = c.samp

variable {c d e : Ctm}

theorem Ctm.sampled.trans (h : c.sampled d) (k : d.sampled e) : c.sampled e := by
  constructor
  · conv_rhs => rw [← h.rest, ← k.rest]
  · intro n
    rw [← h.arm n, ← k.arm n]

theorem Ctm.sampled.sst (h : c.sampled d) (n : Nat) : (d.arm n).sst = (c.arm n).sst := (congrArg CtmArm.sst (h.arm n) :)

theorem Ctm.sampled.cell (h : c.sampled d) : d.cell = c.cell := (congrArg Ctm.cell h.rest :)

theorem Ctm.sampled.clkFail (h : c.sampled d) : d.clkFail = c.clkFail := (congrArg Ctm.clkFail h.rest :)

theorem Ctm.sampled.soutRec (h : c.sampled d) (i : Nat) : d.soutRec i = c.soutRec i := by rw [Ctm.soutRec, h.cell, Ctm.soutRec]

theorem Ctm.worked.refl (c : Ctm) : c.worked c := ⟨⟨rfl, fun _ => rfl⟩, rfl⟩

theorem Ctm.worked.trans (h : c.worked d) (k : d.worked e) : c.worked e := ⟨h.tosampled.trans k.tosampled, k.samp.trans h.samp⟩

theorem Ctm.worked.ite {p : Prop} [Decidable p] (hd : c.worked d) (he : c.worked e) : c.worked (if p then d else e) := by
  split_ifs <;> assumption

theorem Ctm.worked.foldl {α : Type} {f : Ctm → α → Ctm} (h : ∀ (c : Ctm) a, c.worked (f c a)) (l : List α) (c : Ctm) : c.worked (l.foldl f c) := by
  induction l generalizing c with
  | nil => exact .refl c
  | cons a l ih => exact (h c a).trans (ih _)

theorem Ctm.setMask_worked (c : Ctm) (i : Nat) (m : Option TpMask) : c.worked (c.setMask i m) := ⟨⟨rfl, fun _ => rfl⟩, rfl⟩
theorem Ctm.setPair_worked (c : Ctm) (i : Nat) (x : SinPair) : c.worked (c.setPair i x) := ⟨⟨rfl, fun _ => rfl⟩, rfl⟩
theorem Ctm.setOut_worked (c : Ctm) (i : Nat) (x : SafeOut) : c.worked (c.setOut i x) := ⟨⟨rfl, fun _ => rfl⟩, rfl⟩
theorem Ctm.note_worked (c : Ctm) (code obj : Nat) : c.worked (c.note code obj) := ⟨⟨rfl, fun _ => rfl⟩, rfl⟩

theorem Ctm.raise_worked (c : Ctm) (n : Nat) (x : Demand) : c.worked (c.setArm n { c.arm n with raised := x }) := by
  refine ⟨⟨rfl, fun m => ?_⟩, rfl⟩
  rw [Ctm.arm_setArm]
  split_ifs with h
  · rw [h]
  · rfl

theorem Ctm.pulse_worked (c : Ctm) (k : Nat) (src : Bool) : c.worked (c.pulse k src) :=
  Ctm.worked.foldl (fun c _ => .ite (c.setMask_worked ..) (.refl c)) _ c

theorem Ctm.maskTick_worked (c : Ctm) (k i : Nat) : c.worked (c.maskTick k i) := by
  unfold Ctm.maskTick
  split
  · exact .refl c
  · have h := c.setMask_worked i none
    have h' := h.trans (Ctm.setPair_worked _ (i / 2) { Ctm.pair (c.setMask i none) (i / 2) with test := true, both := false })
    exact .ite (c.setMask_worked ..) (.ite h (.ite h' (h'.trans (Ctm.note_worked ..))))

theorem Ctm.pairTick_worked (c : Ctm) (k i : Nat) : c.worked (c.pairTick k i) :=
  .ite (.ite ((c.setPair_worked ..).trans (Ctm.note_worked ..)) (c.setPair_worked ..)) (c.setPair_worked ..)

theorem Ctm.skipTest_worked (c : Ctm) (k : Nat) : c.worked (c.skipTest k) :=
  .ite ((c.setOut_worked ..).trans (Ctm.note_worked ..)) (c.setOut_worked ..)

theorem Ctm.drive_worked (c : Ctm) (now i : Nat) (on : Bool) : c.worked (c.drive now i on) :=
  Ctm.worked.foldl (fun c k => .ite (.refl c) ((Ctm.worked.ite (c.skipTest_worked k) (.refl c)).trans (Ctm.setOut_worked ..))) _ c

theorem Ctm.failPair_worked (c : Ctm) (arms : List Nat) (now i : Nat) : c.worked (c.failPair arms now i) := by
  have h0 : c.worked { c with outFail := setFld c.outFail i 1 1 } := ⟨⟨rfl, fun _ => rfl⟩, rfl⟩
  have h1 := h0.trans (Ctm.drive_worked _ now i false)
  exact (h1.trans (Ctm.worked.foldl (fun c n => c.raise_worked n ⟨3, 16⟩) _ _)).trans (Ctm.note_worked ..)

theorem Ctm.outTick_worked (c : Ctm) (arms : List Nat) (dev : Option Nat) (k now j : Nat) : c.worked (c.outTick arms dev k now j) := by
  unfold Ctm.outTick
  dsimp only
  split
  · exact .ite (c.failPair_worked ..) (.ite (c.setOut_worked ..) (.refl c))
  · exact .ite (.refl c) (.ite (c.skipTest_worked ..) (c.setOut_worked ..))

/-- The state of a sample when its level has been taken. -/
theorem Ctm.tick_worked (c : Ctm) (arms : List Nat) (dev : Option Nat) (k : Nat) :
    ({ c with samp := k }.sample).worked (c.tick arms dev k) := by
  unfold Ctm.tick
  extract_lets c0 c1 c2 c3
  refine .ite (.refl c0) ?_
  have h1 : c0.worked c1 := by
    unfold c1
    split
    · exact c0.pulse_worked ..
    · exact .refl c0
  have h2 := h1.trans (Ctm.worked.foldl (fun c i => c.maskTick_worked k i) (List.range 16) c1)
  have h3 := h2.trans (Ctm.worked.foldl (fun c i => c.pairTick_worked k i) (List.range 8) c2)
  exact h3.trans (Ctm.worked.foldl (fun c j => c.outTick_worked ..) _ c3)

theorem Ctm.tick_samp (c : Ctm) (arms : List Nat) (dev : Option Nat) (k : Nat) : (c.tick arms dev k).samp = k := (c.tick_worked arms dev k).samp

theorem Ctm.tick_sampled (c : Ctm) (arms : List Nat) (dev : Option Nat) (k : Nat) : c.sampled (c.tick arms dev k) := by
  have h : c.sampled ({ c with samp := k } : Ctm).sample := ⟨rfl, fun _ => rfl⟩
  exact h.trans (c.tick_worked arms dev k).tosampled

theorem Ctm.ticks_sampled (arms : List Nat) (dev : Option Nat) (n : Nat) (c : Ctm) :
    c.sampled (Ctm.ticks arms dev n c) ∧ (Ctm.ticks arms dev n c).samp = c.samp + n := by
  induction n generalizing c with
  | zero => exact ⟨(Ctm.worked.refl c).tosampled, rfl⟩
  | succ n ih =>
    cases n with
    | zero => exact ⟨c.tick_sampled .., c.tick_samp ..⟩
    | succ n =>
      obtain ⟨hrest, hsamp⟩ := ih (c.tick arms none (c.samp + 1))
      refine ⟨(c.tick_sampled ..).trans hrest, hsamp.trans ?_⟩
      rw [c.tick_samp]
      omega

/-! ### What reports write -/

/-- The Contour state after a diagnostic. -/
def Ctm.diagnosed (c : Ctm) (code : Nat) : Ctm :=
  { c with lastDiag := code, diagCnt := min (c.diagCnt + 1) 65535, hwDiag := if code = 15 then c.hwDiag else code }

theorem ctmDiag_ctm (s : State) (code arm obj : Nat) : (s.ctmDiag code arm obj).ctm = s.ctm.diagnosed code :=
  (State.rdnSafety_ctm ..).trans ((State.ctmEvent_ctm ..).trans ((State.log_ctm ..).trans (State.setRf_ctm ..)))

/-- `d` is `c` but for the record of the last diagnostic and its counters. -/
def Ctm.told (c d : Ctm) : Prop := { d with lastDiag := c.lastDiag, diagCnt := c.diagCnt, hwDiag := c.hwDiag } = c

theorem Ctm.told.refl (c : Ctm) : c.told c := rfl

theorem Ctm.told.trans (h : c.told d) (k : d.told e) : c.told e := by
  unfold Ctm.told at *
  conv_rhs => rw [← h, ← k]

theorem Ctm.told.worked (h : c.told d) : c.worked d := by
  have ha := congrArg (fun x : Ctm => x.arms) h
  refine ⟨⟨?_, fun n => ?_⟩, (congrArg Ctm.samp h :)⟩
  · exact congrArg (fun x : Ctm => { x with
      arms := c.arms, samp := c.samp, sin := c.sin, sampV := c.sampV, masks := c.masks, pairs := c.pairs, outs := c.outs,
      outFail := c.outFail, found := c.found }) h
  · rw [show d.arm n = c.arm n by rw [Ctm.arm, show d.arms = c.arms from ha, Ctm.arm]]

theorem Ctm.told.arm (h : c.told d) (n : Nat) : d.arm n = c.arm n := (congrArg (fun x : Ctm => x.arm n) h :)

theorem Ctm.told.out (h : c.told d) (k : Nat) : d.out k = c.out k := (congrArg (fun x : Ctm => x.out k) h :)

theorem Ctm.told.ite {p : Prop} [Decidable p] (hd : c.told d) (he : c.told e) : c.told (if p then d else e) := by
  split_ifs <;> assumption

theorem ctmDiag_told (s : State) (code arm obj : Nat) : s.ctm.told (s.ctmDiag code arm obj).ctm := by
  rw [ctmDiag_ctm]
  rfl

theorem reportFound_told (l : List (Nat × Nat × Nat)) (s : State) : s.ctm.told (reportFound l s).ctm := by
  induction l generalizing s with
  | nil => exact .refl _
  | cons x l ih => exact (ctmDiag_told ..).trans (ih _)

theorem reportDiags_told (l : List (Nat × Nat × Nat)) (s : State) : s.ctm.told (reportDiags l s).ctm := by
  induction l generalizing s with
  | nil => exact .refl _
  | cons x l ih =>
    refine .trans ?_ (ih _)
    rw [State.ite_ctm]
    exact .ite (.refl _) (ctmDiag_told ..)

/-- Nothing waits to be reported any more. -/
def Ctm.reported (c : Ctm) : Ctm := { c with found := [] }

@[simp] theorem Ctm.reported_out (c : Ctm) (k : Nat) : c.reported.out k = c.out k := rfl

theorem Ctm.reported_worked (c : Ctm) : c.worked c.reported := ⟨⟨rfl, fun _ => rfl⟩, rfl⟩

theorem ctmReport_told (s : State) : s.ctm.reported.told s.ctmReport.ctm := reportFound_told ..

theorem ctmReport_upd_told (s : State) (f : Ctm → Ctm) : (f s.ctm).reported.told (s.updCtm f).ctmReport.ctm := ctmReport_told (s.updCtm f)

theorem ctmReport_worked (s : State) : s.ctm.worked s.ctmReport.ctm := s.ctm.reported_worked.trans (ctmReport_told s).worked

theorem ctmSettle_sampled (s : State) (dev : Option Nat) : s.ctm.sampled (s.ctmSettle dev).ctm :=
  (Ctm.ticks_sampled s.armList dev (s.sampNow - s.ctm.samp) s.ctm).1.trans (ctmReport_worked (s.updCtm _)).tosampled

/-! ### The outputs, switched by their sources -/

@[simp] theorem Ctm.note_out (c : Ctm) (code obj j : Nat) : (c.note code obj).out j = c.out j := rfl

theorem Ctm.skipTest_out (c : Ctm) (k j : Nat) :
    (c.skipTest k).out j = if j = k then { c.out k with skips := (c.out k).skips + 1, warn := (c.out k).warn || decide (8 < (c.out k).skips + 1), dark := none }
      else c.out j := by
  unfold Ctm.skipTest
  dsimp only
  split <;> simp

/-- A command to one output. -/
def Ctm.driveOne (c : Ctm) (now k : Nat) (on : Bool) : Ctm :=
  if (c.out k).cmd = on then c
  else
    let d := if (c.out k).dark.isSome then c.skipTest k else c
    d.setOut k { d.out k with cmd := on, since := now, stuck := none }

theorem Ctm.drive_eq (c : Ctm) (now i : Nat) (on : Bool) : c.drive now i on = (c.driveOne now (2 * i) on).driveOne now (2 * i + 1) on := rfl

theorem Ctm.driveOne_same (c : Ctm) (now k : Nat) (on : Bool) : ((c.driveOne now k on).out k).cmd = on := by
  unfold Ctm.driveOne
  split
  · assumption
  · simp

theorem Ctm.driveOne_other (c : Ctm) (now : Nat) {k j : Nat} (on : Bool) (h : j ≠ k) : (c.driveOne now k on).out j = c.out j := by
  unfold Ctm.driveOne
  split
  · rfl
  · split <;> simp [Ctm.skipTest_out, h]

theorem Ctm.drive_cmd (c : Ctm) (now i : Nat) (on : Bool) (k : Nat) : ((c.drive now i on).out k).cmd = if k / 2 = i then on else (c.out k).cmd := by
  rw [Ctm.drive_eq]
  obtain rfl | h1 := eq_or_ne k (2 * i + 1)
  · rw [Ctm.driveOne_same, if_pos (by omega)]
  · rw [Ctm.driveOne_other _ _ _ h1]
    obtain rfl | h0 := eq_or_ne k (2 * i)
    · rw [Ctm.driveOne_same, if_pos (by omega)]
    · rw [Ctm.driveOne_other _ _ _ h0, if_neg (by omega)]

theorem Ctm.driveList_off (now : Nat) (arms : List Nat) {k : Nat} (l : List Nat) (c : Ctm) (hp : ∀ d, c.worked d → d.outPermit arms (k / 2) = false)
    (hk : k / 2 ∈ l ∨ (c.out k).cmd = false) :
    ((l.foldl (fun c i => c.drive now i (c.outPermit arms i)) c).out k).cmd = false := by
  induction l generalizing c with
  | nil => simpa using hk
  | cons i l ih =>
    have hw := c.drive_worked now i (c.outPermit arms i)
    refine ih _ (fun d hd => hp d (hw.trans hd)) ?_
    rw [Ctm.drive_cmd]
    obtain rfl | hi := eq_or_ne (k / 2) i
    · right
      rw [if_pos rfl, hp c (.refl c)]
    · rw [if_neg hi]
      simpa [hi] using hk

/-- The output failures of pairs whose arms all run are forgotten (R223). -/
def Ctm.clearFails (c : Ctm) : Ctm :=
  (List.range 8).foldl (fun c i =>
    if bitN c.outFail i && ((List.range 18).filter fun n => bitN (c.soutRec i).arms n).all (fun n => (c.arm n).sst == 0) then
      { c with outFail := setFld c.outFail i 1 0 } else c) c

/-- Every output pair switched by its source. -/
def Ctm.driveAll (c : Ctm) (now : Nat) : Ctm := (List.range 8).foldl (fun c i => c.drive now i (c.outPermit (List.range 18) i)) c

theorem driveOuts_eq (s : State) : s.driveOuts = (s.ctmSettle.updCtm fun c => c.clearFails.driveAll s.ctmSettle.upNs).ctmReport := by
  unfold State.driveOuts
  rfl

theorem driveOuts_told (s : State) : (s.ctmSettle.ctm.clearFails.driveAll s.ctmSettle.upNs).reported.told s.driveOuts.ctm := by
  rw [driveOuts_eq]
  generalize s.ctmSettle = t
  exact ctmReport_upd_told t (fun c => c.clearFails.driveAll t.upNs)

theorem Ctm.clearFails_worked (c : Ctm) : c.worked c.clearFails := by
  unfold Ctm.clearFails
  refine .foldl (fun c i => ?_) _ _
  split
  · exact ⟨⟨rfl, fun _ => rfl⟩, rfl⟩
  · exact .refl c

theorem Ctm.driveAll_worked (c : Ctm) (now : Nat) : c.worked (c.driveAll now) := .foldl (fun c _ => c.drive_worked ..) _ _

/-- Outputs of pairs that may not be energised are off after all pairs have been switched. -/
theorem Ctm.driveAll_off (c : Ctm) (now : Nat) {k : Nat} (hk : k < 16) (hp : ∀ d, c.worked d → d.outPermit (List.range 18) (k / 2) = false) :
    ((c.driveAll now).out k).cmd = false :=
  driveList_off now _ _ c hp (.inl (List.mem_range.2 (by omega)))

theorem driveOuts_sampled (s : State) : s.ctm.sampled s.driveOuts.ctm := by
  have hd := (Ctm.clearFails_worked s.ctmSettle.ctm).trans (Ctm.driveAll_worked _ s.ctmSettle.upNs)
  exact (ctmSettle_sampled s none).trans (hd.trans ((Ctm.reported_worked _).trans (driveOuts_told s).worked)).tosampled

theorem driveOuts_off (s : State) {k : Nat} (hk : k < 16) (hp : ∀ d, s.ctm.sampled d → d.outPermit (List.range 18) (k / 2) = false) :
    (s.driveOuts.ctm.out k).cmd = false := by
  rw [(driveOuts_told s).out, Ctm.reported_out]
  exact Ctm.driveAll_off _ _ hk fun d hd => hp d ((ctmSettle_sampled s none).trans ((Ctm.clearFails_worked _).trans hd).tosampled)

theorem Ctm.outPermit_of_clkFail (arms : List Nat) (i : Nat) (h : c.clkFail = true) : c.outPermit arms i = false := by
  simp [Ctm.outPermit, h]

theorem Ctm.outPermit_of_sto {arms : List Nat} {i n : Nat} (hr : (c.soutRec i).src = 1 ∨ (c.soutRec i).src = 2) (hn : n ∈ arms)
    (hb : bitN (c.soutRec i).arms n = true) (hs : (c.arm n).sst = 4) : c.outPermit arms i = false := by
  have hmem : n ∈ arms.filter fun n => bitN (c.soutRec i).arms n := List.mem_filter.2 ⟨hn, hb⟩
  have hrun : ((arms.filter fun n => bitN (c.soutRec i).arms n).all fun n => (c.arm n).sst == 0) = false :=
    List.all_eq_false.2 ⟨n, hmem, by rw [hs]; decide⟩
  have hlive : ((arms.filter fun n => bitN (c.soutRec i).arms n).all fun n => (c.arm n).sst != 4) = false :=
    List.all_eq_false.2 ⟨n, hmem, by rw [hs]; decide⟩
  unfold Ctm.outPermit
  dsimp only
  rcases hr with h | h
  · simp [h, hrun]
  · simp [h, hlive]

end Sys2Proof.Machine
end

section
/-! SUPPORT. Safety states, images and resets: an arm that is stopped stays stopped (R208, R212). -/
namespace Sys2Proof.Machine

/-! ### What safety states and images write -/

theorem armEnter_ctm (s : State) (n : Nat) (a : CtmArm) (sst : Nat) : (s.armEnter n a sst).ctm = s.ctm.setArm n { a with sst := sst } := by
  simp -implicitDefEqProofs [State.armEnter, State.updCtm]

theorem loadEnd_ctm (s : State) (arm result word : Nat) :
    (s.loadEnd arm result word).ctm = { s.ctm with load := none, checking := false, result := result, ldArm := arm, ldWord := word } :=
  State.ctmEvent_ctm ..

/-- An arm under a new image. -/
def CtmArm.imaged (a : CtmArm) (i : ArmImg) : CtmArm :=
  { a with
    img := some i, imgBad := false, latch := true, ssmOnly := false, rstSeen := false, view := {}, vel := [],
    last := [], tcpAt := none, tcpV := 0, ends := [], vr := 0, sdiRef := [], disc := 0, clear := 0 }

theorem Ctm.foldl_arms {α : Type} {f : Ctm → α → Ctm} (h : ∀ (c : Ctm) a, (f c a).arms = c.arms) (l : List α) (c : Ctm) : (l.foldl f c).arms = c.arms := by
  induction l generalizing c with
  | nil => rfl
  | cons a l ih => exact (ih _).trans (h c a)

theorem Ctm.arm_of_arms {c d : Ctm} (h : d.arms = c.arms) (n : Nat) : d.arm n = c.arm n := by rw [Ctm.arm, h, Ctm.arm]

theorem Ctm.putArm_arm (c : Ctm) (n : Nat) (i : ArmImg) (m : Nat) : (c.putArm n i).arm m = if m = n then (c.arm n).imaged i else c.arm m := by
  rw [← Ctm.arm_setArm]
  unfold Ctm.putArm
  extract_lets a used d
  refine Ctm.arm_of_arms (c := d) ((Ctm.foldl_arms (fun c k => ?_) _ _).trans ?_) m
  · rfl
  · rfl


/-! ### Arms that are stopped stay stopped -/

/-- No arm that is stopped in `c` is in RUN in `d`. -/
structure Ctm.holds (c d : Ctm) : Prop where
  stopped : ∀ n, (c.arm n).sst ≠ 0 → (d.arm n).sst ≠ 0

variable {c d e : Ctm} {s t : State}

theorem Ctm.holds.refl (c : Ctm) : c.holds c := ⟨fun _ h => h⟩

theorem Ctm.holds.trans (h : c.holds d) (k : d.holds e) : c.holds e := ⟨fun n hn => k.stopped n (h.stopped n hn)⟩

/-- The same, the second part given first. -/
theorem Ctm.holds.after (k : d.holds e) (h : c.holds d) : c.holds e := h.trans k

theorem Ctm.holds_of_arms (h : d.arms = c.arms) : c.holds d := ⟨fun n hn => by rwa [Ctm.arm_of_arms h]⟩

theorem Ctm.holds_of_eq (h : t.ctm = s.ctm) : s.ctm.holds t.ctm := Ctm.holds_of_arms (by rw [h])

theorem Ctm.sampled.holds (h : c.sampled d) : c.holds d := ⟨fun n hn => by rwa [h.sst]⟩

theorem Ctm.holds_setArm {n : Nat} {a : CtmArm} (h : a.sst ≠ 0 ∨ a.sst = (c.arm n).sst) : c.holds (c.setArm n a) := by
  refine ⟨fun m hm => ?_⟩
  rw [Ctm.arm_setArm]
  split_ifs with hmn
  · subst hmn
    exact h.elim id fun h => by rwa [h]
  · exact hm

theorem State.ite_holds {p : Prop} [Decidable p] {u : State} (ht : c.holds t.ctm) (hu : c.holds u.ctm) : c.holds (if p then t else u).ctm := by
  split_ifs <;> assumption

theorem State.foldl_holds {α : Type} {f : State → α → State} (h : ∀ (s : State) a, s.ctm.holds (f s a).ctm)
    (l : List α) (s : State) : s.ctm.holds (l.foldl f s).ctm := by
  induction l generalizing s with
  | nil => exact .refl _
  | cons a l ih => exact (h s a).trans (ih _)

theorem ctmDiag_holds (s : State) (code arm obj : Nat) : s.ctm.holds (s.ctmDiag code arm obj).ctm := (ctmDiag_told ..).worked.holds

theorem ctmReport_holds (s : State) : s.ctm.holds s.ctmReport.ctm := (ctmReport_worked s).holds

theorem ctmSettle_holds (s : State) (dev : Option Nat) : s.ctm.holds (s.ctmSettle dev).ctm := (ctmSettle_sampled s dev).holds

theorem driveOuts_holds (s : State) : s.ctm.holds s.driveOuts.ctm := (driveOuts_sampled s).holds

theorem armSto_holds (s : State) (n cause : Nat) : s.ctm.holds (s.armSto n cause).ctm := by
  refine State.ite_holds (.refl _) (State.ite_holds (Ctm.holds_setArm (.inr rfl)) ?_)
  rw [armEnter_ctm]
  exact Ctm.holds_setArm (.inl (Nat.succ_ne_zero 3))

theorem allSto_holds (s : State) (cause : Nat) : s.ctm.holds (s.allSto cause).ctm :=
  (State.foldl_holds (fun _ _ => armSto_holds ..) _ s).trans (driveOuts_holds _)

theorem loadEnd_holds (s : State) (arm result word : Nat) : s.ctm.holds (s.loadEnd arm result word).ctm :=
  Ctm.holds_of_arms (by rw [loadEnd_ctm])

theorem putArm_holds (c : Ctm) (n : Nat) (i : ArmImg) : c.holds (c.putArm n i) := by
  refine ⟨fun m hm => ?_⟩
  rw [Ctm.putArm_arm]
  split_ifs with h
  · rwa [← h]
  · exact hm

theorem imageEffect_holds (s : State) : s.ctm.holds s.imageEffect.ctm := by
  unfold State.imageEffect
  split
  · exact .refl _
  next l _ =>
  extract_lets rest
  split
  next g _ => exact State.ite_holds ((loadEnd_holds (s.updCtm fun c => c.putCell g) ..).after (Ctm.holds_of_arms rfl)) (.refl _)
  next i _ _ => exact State.ite_holds ((loadEnd_holds (s.updCtm fun c => c.putArm (l.arm - 1) i) ..).after (putArm_holds ..)) (.refl _)
  next => exact .refl _

theorem loadCheck_holds (s : State) (agree : Bool) : s.ctm.holds (s.loadCheck agree).ctm := by
  rw [← State.checkImage_ctm s s.ctm.ldAddr]
  exact State.ite_holds (loadEnd_holds ..) (State.ite_holds (loadEnd_holds ..) (Ctm.holds_of_arms rfl))

theorem ctmLoadGo_holds (s : State) : s.ctm.holds s.ctmLoadGo.ctm :=
  State.ite_holds (.refl _) (State.ite_holds (Ctm.holds_of_arms rfl) (Ctm.holds_of_arms rfl))

theorem runSample_holds (s : State) (k : Nat) (dev : Option Nat) : s.ctm.holds (s.runSample k dev).ctm := by
  have h1 := ctmSettle_holds s none
  refine State.ite_holds ?_ h1
  refine h1.trans (.trans (Ctm.holds_of_eq (State.advance_ctm ..)) (ctmSettle_holds ..))

/-! ### The start and the resets -/

theorem powerReset_holds (s : State) (porst internal : Bool) (cause : Nat) : s.ctm.holds (s.powerReset porst internal cause).ctm :=
  ⟨fun _ _ => Nat.succ_ne_zero 3⟩

theorem internalReset_holds (s : State) : s.ctm.holds s.internalReset.ctm :=
  State.ite_holds (Ctm.holds_of_arms rfl) (powerReset_holds s s.sys.porst true 3)

theorem bootSafety_holds (s : State) (x : BSect) : s.ctm.holds (s.bootSafety x).ctm := by
  unfold State.bootSafety
  extract_lets s1 s2
  have h1 : s.ctm.holds s1.ctm := Ctm.holds_of_eq (State.writeMem_ctm s x.dest x.data)
  have h2 : s1.ctm.holds s2.ctm := ((loadCheck_holds _ true).trans (imageEffect_holds _)).after (Ctm.holds_of_arms rfl)
  exact State.ite_holds (h1.trans h2) ((h1.trans h2).trans (Ctm.holds_of_eq (State.logRefused_ctm ..)))

theorem bootSteps_holds (s : State) (fails : List (Nat × Nat)) (safety : Bool) : s.ctm.holds (s.bootSteps fails safety).ctm := by
  unfold State.bootSteps
  extract_lets ss of
  split
  · exact .refl _
  · extract_lets s1 w ds s2 s3 s4 s5 s6 s7
    have h4 : s4.ctm = s.ctm := by simp -implicitDefEqProofs [s4, s3, s2, s1]
    have h5 : s4.ctm.holds s5.ctm := State.ite_holds (State.foldl_holds bootSafety_holds _ s4) (.refl _)
    have h7 : s7.ctm = s5.ctm := by simp -implicitDefEqProofs [s7, s6, State.updSfy]
    have h : s.ctm.holds s7.ctm := (Ctm.holds_of_eq h4).trans (h5.trans (Ctm.holds_of_eq h7))
    exact State.ite_holds (h.trans (Ctm.holds_of_eq (State.busEn_ctm ..))) h

theorem warmContour_holds (s : State) : s.ctm.holds s.warmContour.ctm := by
  unfold State.warmContour
  extract_lets s1
  have h1 : s.ctm.holds s1.ctm := State.ite_holds (Ctm.holds_of_arms rfl) (.refl _)
  exact h1.trans ((allSto_holds _ 21).after (Ctm.holds_of_arms rfl))

theorem procResume_holds (s : State) : s.ctm.holds s.procResume.ctm := Ctm.holds_of_arms rfl

theorem warmRelease_holds (s : State) (fails : List (Nat × Nat)) : s.ctm.holds (s.warmRelease fails).ctm := by
  unfold State.warmRelease
  extract_lets s1 s2 a b s3
  have h1 : s.ctm.holds s1.ctm := (procResume_holds _).after (Ctm.holds_of_arms rfl)
  have h2 : s2.ctm = s1.ctm := by simp -implicitDefEqProofs [s2]
  have h3 : s1.ctm.holds s3.ctm := Ctm.holds_of_eq h2
  exact h1.trans (h3.trans (bootSteps_holds ..))

theorem maskReset_holds (fails : List (Nat × Nat)) (l : List Byte) (s : State) : s.ctm.holds (s.maskReset fails l).ctm := by
  unfold State.maskReset
  extract_lets seq s1 s2
  have h2 : s2.ctm = s.ctm := by simp -implicitDefEqProofs [s2, s1]
  exact State.ite_holds ((Ctm.holds_of_eq h2).trans (warmRelease_holds ..)) (Ctm.holds_of_eq h2)

end Sys2Proof.Machine
end

section
/-! SUPPORT. Registers, Surveyor commands and bus frames that reach the Contour die: an arm that is stopped stays stopped. -/
namespace Sys2Proof.Machine

variable {s t : State} {c : Ctm}

/-! ### Commands, registers and frames that reach the Contour die -/

theorem resetMask_holds (s : State) (src : SignedSrc) (fails : List (Nat × Nat)) : s.ctm.holds (s.resetMask src fails).ctm := by
  obtain hs | ⟨l, b, t, ht, hs⟩ := s.signed_cases src 1 fun l _ s => State.maskReset fails l s
  · exact Ctm.holds_of_eq hs
  · rw [State.resetMask, hs, ← ht]
    exact maskReset_holds fails l t

theorem sfyRun_holds {f : State → State} (h : ∀ t : State, t.ctm.holds (f t).ctm) (s : State) (rom : Bool) : s.ctm.holds (s.sfyRun rom f).ctm :=
  State.ite_holds (.refl _) (State.ite_holds (Ctm.holds_of_eq (State.sfyEnd_ctm ..)) (h s))

theorem sfyCommand_holds (s : State) (code : Nat) : s.ctm.holds (s.sfyCommand code).ctm := by
  refine sfyRun_holds (fun t => ?_) s false
  split
  · exact Ctm.holds_of_eq (State.sfyRetire_ctm t)
  · exact Ctm.holds_of_eq (State.sfySurvey_ctm t)
  · exact Ctm.holds_of_eq (State.sfyReadmit_ctm t)
  · exact Ctm.holds_of_eq (State.sfyConfirm_ctm t)
  · exact Ctm.holds_of_eq (State.sfySwitch_ctm t)
  · exact Ctm.holds_of_eq (State.sfyFlashwr_ctm ..)
  · exact State.ite_holds ((resetMask_holds t.freeFails.1 .mailbox t.freeFails.2).after (Ctm.holds_of_eq (State.freeFails_ctm t)))
      (Ctm.holds_of_eq (State.keyenrol_ctm ..))
  · exact Ctm.holds_of_eq (State.sfyEnd_ctm ..)

theorem sfyWrite_holds (s : State) (off : Nat) (v : W32) : s.ctm.holds (s.sfyWrite off v).ctm := by
  unfold State.sfyWrite
  split
  · exact sfyCommand_holds ..
  · exact Ctm.holds_of_arms rfl
  · refine Ctm.holds_of_eq ?_
    simp
  · exact Ctm.holds_of_eq (State.plain_ctm ..)

theorem ctmWrite_holds (s : State) (off : Nat) (v : W32) : s.ctm.holds (s.ctmWrite off v).ctm :=
  State.ite_holds (State.ite_holds (ctmLoadGo_holds s) (.refl _)) (Ctm.holds_of_eq (State.plain_ctm ..))

theorem regWrite_holds (s : State) (m : Master) (r : Nat) (v : W32) : s.ctm.holds (s.regWrite m r v).ctm := by
  unfold State.regWrite
  extract_lets d o
  split
  · split
    case h_11 => exact sfyWrite_holds ..
    case h_15 => exact ctmWrite_holds ..
    all_goals exact Ctm.holds_of_eq (by simp)
  split
  · split
    all_goals exact Ctm.holds_of_eq (by simp)
  · exact .refl _

theorem storeOp_holds (s : State) (c : CoreId) (n : Nat) (word : Bool) (hint : BitVec 2) (rt ra : Reg) (disp : BitVec 14) :
    s.ctm.holds (s.storeOp c n word hint rt ra disp).state.ctm := by
  unfold State.storeOp
  extract_lets a v
  split
  · exact .refl _
  split
  · exact .refl _
  split
  · split
    · exact .refl _
    · exact (Ctm.holds_of_eq (State.pc4_ctm ..)).after (regWrite_holds ..)
  · exact Ctm.holds_of_eq (by simp)

theorem pduIn_holds (s : State) (chB : Bool) (r : ConnRec) (l : List Byte) : s.ctm.holds (s.pduIn chB r l).ctm := by
  unfold State.pduIn
  extract_lets ok4 x y z s'
  have h : s.ctm.holds s'.ctm := Ctm.holds_of_arms rfl
  exact State.ite_holds (h.trans (ctmDiag_holds ..)) h

theorem safeIn_holds (s : State) (chB : Bool) (f : Nat) (l : List Byte) : s.ctm.holds (s.safeIn chB f l).ctm := by
  unfold State.safeIn
  split
  · exact pduIn_holds ..
  · exact .refl _

theorem recordIn_holds (s : State) (chB : Bool) (fr : BusFrame) (r : FlowRec) : s.ctm.holds (s.recordIn chB fr r).ctm := by
  unfold State.recordIn
  extract_lets g k x first take y y' s1 bytes s2 s3 s4
  refine State.ite_holds (Ctm.holds_of_eq (State.count_ctm ..)) (State.ite_holds (.refl _) ?_)
  have h2 : s2.ctm = s.ctm := by simp [s2, s1]
  have h3 : s2.ctm.holds s3.ctm := State.ite_holds (safeIn_holds ..) (.refl _)
  have h4 : s4.ctm = s3.ctm := by simp [s4]
  have h : s.ctm.holds s3.ctm := (Ctm.holds_of_eq h2).trans h3
  exact State.ite_holds (h.trans (State.ite_holds ((Ctm.holds_of_eq (State.fireCoal_ctm ..)).after (Ctm.holds_of_eq h4)) (Ctm.holds_of_eq h4))) h

theorem recordsIn_holds (s : State) (chB : Bool) (fr : BusFrame) : s.ctm.holds (s.recordsIn chB fr).ctm :=
  State.foldl_holds (fun _ _ => recordIn_holds ..) _ s

end Sys2Proof.Machine
end

section
/-! SUPPORT. The commands that write the Contour state, or that end in more than one way, one by one: an arm that is stopped stays stopped. -/
namespace Sys2Proof.Machine

variable {s t : State} {c : Ctm}

/-! ### Every command but a decision holds the arms that are stopped -/

@[simp] theorem CRes.ite_state_ctm (p : Prop) [Decidable p] (x y : CRes) : (if p then x else y).state.ctm = if p then x.state.ctm else y.state.ctm :=
  apply_ite (fun x : CRes => x.state.ctm) ..

@[simp] theorem ite_snd_ctm (p : Prop) [Decidable p] (x y : W32 × State) : (if p then x else y).2.ctm = if p then x.2.ctm else y.2.ctm :=
  apply_ite (fun x : W32 × State => x.2.ctm) ..

@[simp] theorem answerRead_ctm (x : W32 × State) : (answerRead x).ctm = x.2.ctm := rfl

/-- If the outcome is a next state, no arm that is stopped in `c` is in RUN in it. -/
structure holdsIn (c : Ctm) (o : Out) : Prop where
  next : ∀ t, o = .next t → c.holds t.ctm

theorem holdsIn_next (h : c.holds t.ctm) : holdsIn c (.next t) := ⟨fun u hu => by cases hu; exact h⟩

theorem holdsIn_of_eq (h : t.ctm = s.ctm) : holdsIn s.ctm (.next t) := holdsIn_next (Ctm.holds_of_eq h)

theorem holdsIn_instr {k : CoreId} {body : State → CRes} (h : ∀ t, (body t).state.ctm = t.ctm) : holdsIn s.ctm (.next (runInstr k body s)) :=
  holdsIn_of_eq (runInstr_ctm h k s)

theorem runInstr_holds {body : State → CRes} (h : ∀ t : State, t.ctm.holds (body t).state.ctm) (k : CoreId) (s : State) : s.ctm.holds (runInstr k body s).ctm := by
  obtain hs | ⟨t, ht, hs⟩ := runInstr_cases k body s
  · exact Ctm.holds_of_eq hs
  · rw [hs, ← ht]
    exact h t

theorem execMfc_holds (k : CoreId) (rd : Reg) (creg : BitVec 6) (s : State) : holdsIn s.ctm (execMfc k rd creg s) :=
  holdsIn_instr fun t => by split <;> simp

theorem execMtc_holds (k : CoreId) (creg : BitVec 6) (ra : Reg) (s : State) : holdsIn s.ctm (execMtc k creg ra s) :=
  holdsIn_instr fun t => by split <;> simp

theorem execConversion_holds (input : Fin 8) (reading : Int) (ovr senseLow : Bool) (lag : Nat) (s : State) :
    holdsIn s.ctm (execConversion input reading ovr senseLow lag s) := by
  unfold execConversion
  extract_lets i y low bad at_ s1 put
  refine holdsIn_of_eq (State.ite_ctm_eq rfl ?_)
  split
  · rfl
  · extract_lets t1 t2 mine got t3
    have h2 : t2.ctm = s.ctm := State.ite_ctm_eq (State.markBad_ctm ..) rfl
    exact State.ite_ctm_eq ((State.chanSet_ctm ..).trans h2) h2

theorem execLinkWindow_holds (chB : Bool) (s : State) : holdsIn s.ctm (execLinkWindow chB s) := by
  refine holdsIn_of_eq ?_
  split
  · rfl
  refine State.ite_ctm_eq rfl ?_
  split
  · rfl
  next t hb => exact (sendDlyreq_ctm ..).trans ((ctm_eq_of_pair hb).trans (State.busRunTo_ctm ..))

theorem execSlotTransmit_holds (chB : Bool) (slot : Nat) (startsBy : SlotSend) (s : State) : holdsIn s.ctm (execSlotTransmit chB slot startsBy s) := by
  refine holdsIn_of_eq ?_
  split
  · rfl
  refine State.ite_ctm_eq rfl ?_
  split
  · rfl
  next t hb =>
    have ht : t.ctm = s.ctm := (ctm_eq_of_pair hb).trans (State.busRunTo_ctm ..)
    exact State.ite_ctm_eq ((State.sendSync_ctm ..).trans ht) ((State.sendData_ctm ..).trans ht)

theorem execClockCorrection_holds (s : State) : holdsIn s.ctm (execClockCorrection s) := by
  refine holdsIn_of_eq (State.ite_ctm_eq rfl ?_)
  split
  · rfl
  next t hb => exact (State.clockCorrect_ctm ..).trans ((ctm_eq_of_pair hb).trans (State.busRunTo_ctm ..))

theorem execDataReceive_holds (chB port : Bool) (rx : BusRx) (s : State) : holdsIn s.ctm (execDataReceive chB port rx s) := by
  unfold execDataReceive
  refine holdsIn_next ?_
  rw [← State.frameStart_ctm s chB port rx 1]
  generalize s.frameStart chB port rx 1 = x
  obtain ⟨t, go⟩ := x
  refine State.ite_holds (.refl _) ?_
  split
  · exact Ctm.holds_of_eq (State.count_ctm ..)
  · exact (Ctm.holds_of_eq (State.frameKept_ctm ..)).after (recordsIn_holds t chB rx.frame)

theorem execWrstNLow_holds (s : State) : holdsIn s.ctm (execWrstNLow s) := by
  unfold execWrstNLow
  refine holdsIn_next (State.ite_holds (.refl _) (State.ite_holds (Ctm.holds_of_eq (State.maskedEdge_ctm ..)) ?_))
  extract_lets s1 s2
  have h1 : s.ctm.holds s1.warmHold.ctm := Ctm.holds_of_eq (State.warmHold_ctm s1)
  have h2 : s.ctm.holds s2.ctm := (Ctm.holds_of_eq (State.warmRdn_ctm _)).after (h1.trans (warmContour_holds _))
  clear_value s2
  exact h2

theorem execWrstNRelease_holds (fails : List (Nat × Nat)) (s : State) : holdsIn s.ctm (execWrstNRelease fails s) := by
  unfold execWrstNRelease
  refine holdsIn_next (State.ite_holds (.refl _) (State.ite_holds (Ctm.holds_of_eq (State.maskedEdge_ctm ..)) ?_))
  extract_lets ms
  exact warmRelease_holds (s.updSfy _) fails

theorem execBoot_holds (compat priSel : Bool) (fails : List (Nat × Nat)) (s : State) : holdsIn s.ctm (execBoot compat priSel fails s) := by
  unfold execBoot
  refine holdsIn_next (State.ite_holds (.refl _) ?_)
  extract_lets s1 m s2 s3
  have h3 : s3.ctm = s2.ctm := State.foldl_ctm (fun t d => State.setMd_ctm ..) _ s2
  have h : (s3.releaseCores 0).selectImage.ctm = s.ctm := (State.selectImage_ctm _).trans ((State.releaseCores_ctm ..).trans h3)
  generalize (s3.releaseCores 0).selectImage = t at h ⊢
  exact (Ctm.holds_of_eq h).trans (bootSteps_holds ..)

theorem execResetMask_holds (src : SignedSrc) (fails : List (Nat × Nat)) (s : State) : holdsIn s.ctm (execResetMask src fails s) := by
  have h : s.ctm.holds (s.sfyRun false fun s => s.resetMask src fails).ctm := sfyRun_holds (fun t => resetMask_holds t src fails) s false
  exact holdsIn_next (State.ite_holds (.refl _) (h.trans (Ctm.holds_of_eq (State.sfyAnswer_ctm ..))))

theorem execRegisterWrite_holds (m : Master) (addr : BitVec 40) (v : W32) (s : State) : holdsIn s.ctm (execRegisterWrite m addr v s) := by
  refine holdsIn_next ?_
  split
  · exact State.ite_holds (regWrite_holds ..) (.refl _)
  · exact .refl _

theorem execBadcmd_holds (src : BadSrc) (s : State) : holdsIn s.ctm (execBadcmd src s) := by
  unfold execBadcmd
  refine holdsIn_next ?_
  cases src with
  | engw c eng cmd rd ra rb =>
    dsimp only
    split
    case h_6 => exact .refl _
    all_goals refine State.ite_holds (.refl _) (Ctm.holds_of_eq (runInstr_ctm (fun t => State.engw_ctm (fun d n v u => ?_) ..) c s))
    · exact State.trvCommand_ctm ..
    · exact State.trvCommand_ctm ..
    · exact State.sleCommand_ctm ..
    · exact State.triCommand_ctm ..
    · exact State.dmaCommand_ctm ..
  | engr c eng code rd rb => exact State.ite_holds (.refl _) (Ctm.holds_of_eq (runInstr_ctm (fun t => State.engr_ctm ..) c s))
  | trv d n code => exact State.ite_holds (.refl _) (Ctm.holds_of_eq (State.trvByReg_ctm ..))
  | sle d n code => exact State.ite_holds (.refl _) (Ctm.holds_of_eq (State.sleByReg_ctm ..))
  | tri d code => exact State.ite_holds (.refl _) (Ctm.holds_of_eq (State.triByReg_ctm ..))
  | dma d ch code => exact State.ite_holds (.refl _) (Ctm.holds_of_eq (State.dmaByReg_ctm ..))
  | sfy code => exact State.ite_holds (.refl _) (sfyCommand_holds ..)

theorem execFeedSample_holds (mvA maA mvB maB mvOr : Nat) (s : State) : holdsIn s.ctm (execFeedSample mvA maA mvB maB mvOr s) := by
  refine holdsIn_next (State.ite_holds (Ctm.holds_of_eq (State.orSample_ctm ..)) (State.ite_holds (internalReset_holds s) (Ctm.holds_of_eq ?_)))
  simp

theorem execProcessorResult_holds (dev : List ProcArm) (s : State) : holdsIn s.ctm (execProcessorResult dev s) :=
  holdsIn_next (State.ite_holds (.refl _) (Ctm.holds_of_arms rfl))

theorem execLockstep_holds (s : State) : holdsIn s.ctm (execLockstep s) :=
  holdsIn_next (State.ite_holds (.refl _) ((ctmDiag_holds _ 15 0 0).after (Ctm.holds_of_arms rfl)))

theorem execClkFail_holds (s : State) : holdsIn s.ctm (execClkFail s) := by
  refine holdsIn_next (State.ite_holds (.refl _) ?_)
  exact (allSto_holds _ 13).after ((ctmDiag_holds _ 7 0 0).after (Ctm.holds_of_arms rfl))

theorem execTss1Expiry_holds (arm : Nat) (s : State) : holdsIn s.ctm (execTss1Expiry arm s) := by
  refine holdsIn_next ?_
  split
  · exact .refl _
  · exact State.ite_holds ((driveOuts_holds _).after ((ctmDiag_holds _ 16 arm arm).after (armSto_holds s (arm - 1) 17))) (.refl _)

theorem execSafeInputChange_holds (n : Fin 16) (level : Bool) (s : State) : holdsIn s.ctm (execSafeInputChange n level s) := by
  have h : s.ctm.holds (if s.ctmUp then s.ctmSettle else s).ctm := State.ite_holds (ctmSettle_holds s none) (.refl _)
  exact holdsIn_next (h.trans (Ctm.holds_of_arms rfl))

theorem execInDisc_holds (pair : Fin 8) (s : State) : holdsIn s.ctm (execInDisc pair s) := by
  unfold execInDisc
  refine holdsIn_next (State.ite_holds (.refl _) ?_)
  extract_lets t
  split
  · exact (runSample_holds ..).after (ctmSettle_holds s none)
  · exact ctmSettle_holds s none

theorem execTestPulse_holds (src : Bool) (s : State) : holdsIn s.ctm (execTestPulse src s) :=
  holdsIn_next (State.ite_holds (runSample_holds ..) (.refl _))

theorem execInTest_holds (pair : Fin 8) (s : State) : holdsIn s.ctm (execInTest pair s) := by
  unfold execInTest
  refine holdsIn_next (State.ite_holds (.refl _) ?_)
  extract_lets t
  split
  · exact (runSample_holds ..).after (ctmSettle_holds s none)
  · exact ctmSettle_holds s none

theorem execOutFail_holds (pair : OutReadback) (s : State) : holdsIn s.ctm (execOutFail pair s) := by
  unfold execOutFail
  refine holdsIn_next (State.ite_holds (.refl _) ?_)
  extract_lets t i
  have ht : s.ctm.holds t.ctm := ctmSettle_holds s none
  refine State.ite_holds ((ctmReport_holds _).after (ht.trans ?_)) ht
  have hw := (t.ctm.failPair_worked t.armList t.upNs i).trans
    (Ctm.worked.foldl (fun c k => c.setOut_worked (2 * i + k) { c.out (2 * i + k) with stuck := some (pair.srb.getLsbD k) }) (List.range 2) _)
  exact hw.holds

theorem execOutputTestPulse_holds (output : Fin 16) (follows : Bool) (s : State) : holdsIn s.ctm (execOutputTestPulse output follows s) :=
  holdsIn_next (State.ite_holds (.refl _) (runSample_holds ..))

theorem execImgCrc_holds (scope : Nat) (hardwired bad : Bool) (s : State) : holdsIn s.ctm (execImgCrc scope hardwired bad s) := by
  unfold execImgCrc
  refine holdsIn_next (State.ite_holds (.refl _) (State.ite_holds (State.ite_holds (.refl _) ?_) ?_))
  · extract_lets t
    have ht : s.ctm.holds t.ctm := (ctmDiag_holds _ 14 0 0).after (Ctm.holds_of_arms rfl)
    exact State.ite_holds ht (ht.trans (Ctm.holds_of_arms rfl))
  · extract_lets a t
    have ht : s.ctm.holds t.ctm := (ctmDiag_holds _ 14 scope scope).after (Ctm.holds_setArm (.inr rfl))
    exact State.ite_holds (.refl _) (State.ite_holds ht (ht.trans (Ctm.holds_of_arms rfl)))

theorem execImageCheckDone_holds (agree : Bool) (s : State) : holdsIn s.ctm (execImageCheckDone agree s) :=
  holdsIn_next (State.ite_holds (loadCheck_holds ..) (.refl _))

theorem execImageTakesEffect_holds (s : State) : holdsIn s.ctm (execImageTakesEffect s) :=
  holdsIn_next (State.ite_holds ((imageEffect_holds _).after (ctmSettle_holds s none)) (.refl _))

end Sys2Proof.Machine
end

section
/-! SUPPORT. No command but a decision of the Contour die takes an arm back to RUN (R208, R212): the claim. -/

namespace Sys2Proof.Machine

/-- The three commands aside, the Contour state that a command leaves has no stopped arm in RUN: most commands leave the Contour state as it
was, an instruction through what its body does, and the rest hold the arms. -/
theorem exec_holds (i : Instr) (s : State) (hdec : i ≠ .decision) (hauto : ∀ a, i ≠ .ssmAutoresume a) (hdatum : ∀ g k, i ≠ .datum g k) :
    holdsIn s.ctm (exec i s) := by
  cases i
  case decision => exact absurd rfl hdec
  case ssmAutoresume a => exact absurd rfl (hauto a)
  case datum g k => exact absurd rfl (hdatum g k)
  case boot => exact execBoot_holds ..
  case porstNLow => exact holdsIn_next (powerReset_holds ..)
  case internalReset => exact holdsIn_next (internalReset_holds s)
  case wrstNLow => exact execWrstNLow_holds s
  case wrstNRelease => exact execWrstNRelease_holds ..
  case registerWrite => exact execRegisterWrite_holds ..
  case badcmd => exact execBadcmd_holds ..
  case resetMask => exact execResetMask_holds ..
  case feedSample => exact execFeedSample_holds ..
  case dataReceive => exact execDataReceive_holds ..
  case sb | sh | sw | sd => exact holdsIn_next (runInstr_holds (fun _ => storeOp_holds ..) _ s)
  case processorResult => exact execProcessorResult_holds ..
  case lockstep => exact execLockstep_holds s
  case clkFail => exact execClkFail_holds s
  case tss1Expiry => exact execTss1Expiry_holds ..
  case safeInputChange => exact execSafeInputChange_holds ..
  case inDisc => exact execInDisc_holds ..
  case testPulse => exact execTestPulse_holds ..
  case inTest => exact execInTest_holds ..
  case outFail => exact execOutFail_holds ..
  case outputTestPulse => exact execOutputTestPulse_holds ..
  case imgCrc => exact execImgCrc_holds ..
  case safetyImageLoad => exact holdsIn_next (ctmLoadGo_holds s)
  case imageCheckDone => exact execImageCheckDone_holds ..
  case imageTakesEffect => exact execImageTakesEffect_holds s
  case illegal => exact holdsIn_of_eq (State.ite_ctm_eq (runInstr_ctm (fun _ => rfl) ..) rfl)
  case looponly => exact holdsIn_of_eq (State.ite_ctm_eq rfl (runInstr_ctm (fun _ => rfl) ..))
  case bank src =>
    cases src with
    | cmd e => exact holdsIn_of_eq (sleCmd_ctm ..)
    | target d n b => exact holdsIn_of_eq (State.sleTarget_ctm ..)
  case mfc => exact execMfc_holds ..
  case mtc => exact execMtc_holds ..
  case conversion => exact execConversion_holds ..
  case slotTransmit => exact execSlotTransmit_holds ..
  case linkWindow => exact execLinkWindow_holds ..
  case clockCorrection => exact execClockCorrection_holds s
  case add | sub | and | or | xor | nor | slt | sltu | sll | srl | sra | slli | srli | srai | adds | subs | min | max | minu | maxu | clz | popc |
      mul | mulh | mulhu | muls | div | divu | rem | remu | addi | andi | ori | xori | slti | sltiu | lui | orh | ort | lb | lbu | lh | lhu | lw |
      lwu | ld | beq | bne | blt | bge | bltu | bgeu | j | jal | jr | jalr | trap | eret | iinv | cinv | cinva | aadd | acas | fence | post |
      delay | done | solve | tsamp | qmul | qmac | luti =>
    refine holdsIn_instr fun t => ?_
    simp -implicitDefEqProofs
  case captureRead | dispatch | eccUncorr | notstable | windowEnd | heldFrameSend |
      modeSwitch | modeCancel | surveyEnd | sfyRestart | rollback =>
    refine holdsIn_of_eq ?_
    repeat' split
    all_goals simp -implicitDefEqProofs
  case syncReceive | coldstartReceive | claimReceive | dlyreqReceive | dlyrespReceive | hostFrameTransmit =>
    refine holdsIn_of_eq ?_
    dsimp only
    repeat' split
    all_goals simp -implicitDefEqProofs
  all_goals
    refine holdsIn_of_eq ?_
    simp -implicitDefEqProofs

theorem idle_ctm (s : State) : s.idle.ctm = s.ctm := State.ite_ctm_eq rfl (State.advance_ctm ..)

/-- Settles O60: every command but the three that form a decision holds the arms that are stopped, and the idle step does not touch them. -/
theorem onlyDecisionsReleaseArms : Obligations.OnlyDecisionsReleaseArms := by
  unfold Obligations.OnlyDecisionsReleaseArms
  intro s t n hstep hs ht
  unfold step at hstep
  split at hstep
  next h =>
    cases hstep
    rw [idle_ctm] at ht
    exact absurd ht hs
  next i rest h =>
    rw [h, List.head?_cons]
    by_contra hno
    simp only [Option.some.injEq, not_or, not_exists] at hno
    obtain ⟨hdec, hdatum, hauto⟩ := hno
    exact ((exec_holds i _ hdec hauto hdatum).next t hstep).stopped n hs ht

end Sys2Proof.Machine
end

section
/-! SUPPORT. Safety images: the check of a copy, GO, the end of the check and the datum at which an image takes effect (R226, R229). -/

namespace Sys2Proof.Machine

variable {s : State}

/-! ### Samples that have reached the present time -/

theorem State.updCtm_self {f : Ctm → Ctm} (h : f s.ctm = s.ctm) : s.updCtm f = s := by rw [State.updCtm, h]

theorem Ctm.reported_self {c : Ctm} (h : c.found = []) : c.reported = c := by rw [Ctm.reported, ← h]

theorem ctmReport_of_found (h : s.ctm.found = []) : s.ctmReport = s := by
  unfold State.ctmReport
  rw [h]
  exact State.updCtm_self (Ctm.reported_self h)

theorem ctmSettle_of_caughtUp (h : s.caughtUp) : s.ctmSettle = s := by
  obtain ⟨hsamp, hfound⟩ := h
  have hupd : (s.updCtm fun c => Ctm.ticks s.armList none (s.sampNow - c.samp) c) = s :=
    State.updCtm_self (by rw [hsamp, Nat.sub_self, Ctm.ticks])
  rw [State.ctmSettle, hupd, ctmReport_of_found hfound]

theorem Ctm.told.cellBad {c d : Ctm} (h : c.told d) : d.cellBad = c.cellBad := (congrArg Ctm.cellBad h :)

/-! ### The re-check of an image's copy (R226) -/

theorem ctmDiag_lastDiag (s : State) (code arm obj : Nat) : (s.ctmDiag code arm obj).ctm.lastDiag = code := by rw [ctmDiag_ctm]; rfl

/-- A diagnostic on a copy of an image: the hard-wired channel notes it only for its own copy. -/
def State.crcDiag (s : State) (f : Ctm → Ctm) (hardwired : Bool) (scope : Nat) : State :=
  let t := (s.updCtm f).ctmDiag 14 scope scope
  if hardwired then t else t.updCtm fun c => { c with hwDiag := s.ctm.hwDiag }

theorem crcDiag_told (s : State) (f : Ctm → Ctm) (hardwired : Bool) (scope : Nat) :
    (f s.ctm).told (s.crcDiag f hardwired scope).ctm ∧ (s.crcDiag f hardwired scope).ctm.lastDiag = 14 := by
  have ht : (f s.ctm).told ((s.updCtm f).ctmDiag 14 scope scope).ctm := ctmDiag_told (s.updCtm f) 14 scope scope
  have hl := ctmDiag_lastDiag (s.updCtm f) 14 scope scope
  cases hardwired
  · exact ⟨ht.trans rfl, hl⟩
  · exact ⟨ht, hl⟩

theorem crcDiag_spares (s : State) (f : Ctm → Ctm) (hardwired : Bool) (scope : Nat) : s.spares (s.crcDiag f hardwired scope) := by
  have h : s.contourOnly ((s.updCtm f).ctmDiag 14 scope scope) := (ctmDiag_contourOnly ..).after rfl
  exact State.contourOnly.spares (.ite h (h.trans rfl))

theorem execImgCrc_arm {n : Nat} (h : Bool) (hup : s.ctmUp = true) (himg : (s.ctm.arm n).img.isSome = true) (hbad : (s.ctm.arm n).imgBad = false) :
    exec (.imgCrc (n + 1) h true) s = .next (s.crcDiag (fun c => c.setArm n { s.ctm.arm n with imgBad := true }) h (n + 1)) := by
  have himg' : (s.ctm.arm n).img.isNone = false := by simpa using himg
  show execImgCrc (n + 1) h true s = _
  simp [execImgCrc, hup, himg', hbad, State.crcDiag]

theorem execImgCrc_cell (h : Bool) (hup : s.ctmUp = true) (hcell : s.ctm.cell.isSome = true) (hbad : s.ctm.cellBad = false) :
    exec (.imgCrc 0 h true) s = .next (s.crcDiag (fun c => { c with cellBad := true }) h 0) := by
  have hcell' : s.ctm.cell.isNone = false := by simpa using hcell
  show execImgCrc 0 h true s = _
  simp [execImgCrc, hup, hcell', hbad, State.crcDiag]

/-- A re-check that finds an arm's copy bad marks it and keeps the arm's state. -/
theorem imgCrc_arm {n : Nat} (h : Bool) (hup : s.ctmUp = true) (himg : (s.ctm.arm n).img.isSome = true) (hbad : (s.ctm.arm n).imgBad = false) :
    Answers (.imgCrc (n + 1) h true) s fun t =>
      (t.ctm.arm n).imgBad = true ∧ (t.ctm.arm n).sst = (s.ctm.arm n).sst ∧ t.ctm.lastDiag = 14 ∧ s.spares t := by
  obtain ⟨htold, hlast⟩ := crcDiag_told s (fun c => c.setArm n { s.ctm.arm n with imgBad := true }) h (n + 1)
  refine ⟨_, execImgCrc_arm h hup himg hbad, ?_, ?_, hlast, crcDiag_spares ..⟩
  · rw [htold.arm, Ctm.arm_setArm, if_pos rfl]
  · rw [htold.arm, Ctm.arm_setArm, if_pos rfl]

/-- A re-check that finds a copy of the cell image bad marks it. -/
theorem imgCrc_cell (h : Bool) (hup : s.ctmUp = true) (hcell : s.ctm.cell.isSome = true) (hbad : s.ctm.cellBad = false) :
    Answers (.imgCrc 0 h true) s fun t => t.ctm.cellBad = true ∧ t.ctm.lastDiag = 14 ∧ s.spares t := by
  obtain ⟨htold, hlast⟩ := crcDiag_told s (fun c => { c with cellBad := true }) h 0
  exact ⟨_, execImgCrc_cell h hup hcell hbad, htold.cellBad, hlast, crcDiag_spares ..⟩

theorem imgCrc_good (n : Nat) (h : Bool) : Answers (.imgCrc n h false) s fun t => t = s :=
  ⟨s, congrArg Host.Outcome.next (if_pos (by simp)), rfl⟩

/-! ### GO and the end of the check (R229) -/

theorem safetyImageLoad_busy (hup : s.ctmUp = true) (hw : s.ctm.wrst = false) (hl : s.ctm.load.isSome = true) :
    Answers .safetyImageLoad s fun t => t = { s with ctm := { s.ctm with result := 2 } } := by
  refine ⟨_, rfl, ?_⟩
  simp [State.ctmLoadGo, hup, hw, hl, State.updCtm]

theorem safetyImageLoad_starts (hup : s.ctmUp = true) (hw : s.ctm.wrst = false) (hl : s.ctm.load = none) :
    Answers .safetyImageLoad s fun t => t.ctm.checking = true ∧ t.ctm.load.isSome = true ∧
      t.ctm.ldAddr = (s.rd (ctmReg 0x04)).toNat * 256 ∧ { t with ctm := s.ctm } = s := by
  refine ⟨_, rfl, ?_⟩
  simp [State.ctmLoadGo, hup, hw, hl, State.updCtm]

theorem loadCheck_eq (s : State) (agree : Bool) :
    s.loadCheck agree =
      if (s.checkImage s.ctm.ldAddr).2.result ≠ 1 then
        (s.checkImage s.ctm.ldAddr).1.loadEnd (s.checkImage s.ctm.ldAddr).2.arm (s.checkImage s.ctm.ldAddr).2.result (s.checkImage s.ctm.ldAddr).2.word
      else if !agree then (s.checkImage s.ctm.ldAddr).1.loadEnd (s.checkImage s.ctm.ldAddr).2.arm 10 0
      else (s.checkImage s.ctm.ldAddr).1.updCtm fun c =>
        { c with load := some ⟨(s.checkImage s.ctm.ldAddr).2.arm, (s.checkImage s.ctm.ldAddr).2.cell, (s.checkImage s.ctm.ldAddr).2.armImg⟩
                 checking := false, ldArm := (s.checkImage s.ctm.ldAddr).2.arm } := rfl

/-- The check ends: the load with the result of the first rule that fails, or with 10 where the channels disagree; else it waits. -/
theorem imageCheckDone_ends (b : Bool) (hup : s.ctmUp = true) (hw : s.ctm.wrst = false) (hc : s.ctm.checking = true) :
    Answers (.imageCheckDone b) s fun t => t.ctm.checking = false ∧
      let k := (s.checkImage s.ctm.ldAddr).2
      (k.result ≠ 1 → t.ctm.result = k.result ∧ t.ctm.load = none) ∧
      (k.result = 1 → b = false → t.ctm.result = 10 ∧ t.ctm.load = none) ∧
      (k.result = 1 → b = true → t.ctm.load = some ⟨k.arm, k.cell, k.armImg⟩) ∧ t.ctm.cell = s.ctm.cell ∧ (∀ m, t.ctm.arm m = s.ctm.arm m) := by
  refine ⟨s.loadCheck b, congrArg Host.Outcome.next (if_pos (by rw [hup, hw, hc]; rfl)), ?_⟩
  rw [loadCheck_eq]
  generalize hx : s.checkImage s.ctm.ldAddr = x
  obtain ⟨t, k⟩ := x
  have ht : t.ctm = s.ctm := (ctm_eq_of_pair hx).trans (State.checkImage_ctm ..)
  dsimp only
  split_ifs with hr hb
  · rw [loadEnd_ctm, ht]
    exact ⟨rfl, fun _ => ⟨rfl, rfl⟩, fun h => absurd h hr, fun h => absurd h hr, rfl, fun _ => rfl⟩
  · rw [loadEnd_ctm, ht]
    exact ⟨rfl, fun h => absurd h hr, fun _ _ => ⟨rfl, rfl⟩, fun _ h => absurd hb (by rw [h]; decide), rfl, fun _ => rfl⟩
  · rw [State.updCtm, ht]
    exact ⟨rfl, fun h => absurd h hr, fun _ h => absurd hb (by rw [h]; decide), fun _ _ => rfl, rfl, fun _ => rfl⟩

/-! ### An image takes effect (R229) -/

theorem execImageTakesEffect_of_caughtUp (hup : s.ctmUp = true) (hw : s.ctm.wrst = false) (hover : s.cycleOver = true) (hc : s.caughtUp) :
    exec .imageTakesEffect s = .next s.imageEffect := by
  show execImageTakesEffect s = _
  rw [execImageTakesEffect, hup, hw, hover, ctmSettle_of_caughtUp hc]
  rfl

theorem imageEffect_cell {l : CtmLoad} {g : CellImg} (hl : s.ctm.load = some l) (hg : l.cell = some g) (hrest : ∀ m, m ∈ s.armList → 3 ≤ (s.ctm.arm m).sst) :
    s.imageEffect = (s.updCtm fun c => c.putCell g).loadEnd 0 1 0 := by
  unfold State.imageEffect
  simp only [hl, hg]
  rw [if_pos (List.all_eq_true.2 fun m hm => decide_eq_true (hrest m hm))]

theorem imageEffect_arm {l : CtmLoad} {i : ArmImg} (hl : s.ctm.load = some l) (hg : l.cell = none) (hi : l.armImg = some i)
    (hrest : 3 ≤ (s.ctm.arm (l.arm - 1)).sst) : s.imageEffect = (s.updCtm fun c => c.putArm (l.arm - 1) i).loadEnd l.arm 1 0 := by
  unfold State.imageEffect
  simp only [hl, hg, hi]
  rw [if_pos (decide_eq_true hrest)]

theorem imageTakesEffect_cell {l : CtmLoad} {g : CellImg} (hexec : exec .imageTakesEffect s = .next s.imageEffect) (hl : s.ctm.load = some l)
    (hg : l.cell = some g) (hrest : ∀ m, m ∈ s.armList → 3 ≤ (s.ctm.arm m).sst) :
    Answers .imageTakesEffect s fun t =>
      t.ctm.cell = some g ∧ t.ctm.load = none ∧ t.ctm.result = 1 ∧ (∀ m, t.ctm.arm m = s.ctm.arm m) ∧ s.spares t := by
  refine ⟨_, hexec, ?_⟩
  have hspares := (imageEffect_contourOnly s).spares
  rw [imageEffect_cell hl hg hrest] at hspares ⊢
  beta_reduce
  rw [loadEnd_ctm]
  exact ⟨rfl, rfl, rfl, fun _ => rfl, hspares⟩

theorem imageTakesEffect_arm {l : CtmLoad} {i : ArmImg} (hexec : exec .imageTakesEffect s = .next s.imageEffect) (hl : s.ctm.load = some l)
    (hg : l.cell = none) (hi : l.armImg = some i) (hrest : 3 ≤ (s.ctm.arm (l.arm - 1)).sst) :
    Answers .imageTakesEffect s fun t =>
      (t.ctm.arm (l.arm - 1)).img = some i ∧ (t.ctm.arm (l.arm - 1)).latch = true ∧
      (t.ctm.arm (l.arm - 1)).sst = (s.ctm.arm (l.arm - 1)).sst ∧ t.ctm.load = none ∧ t.ctm.result = 1 ∧
      (∀ m, m ≠ l.arm - 1 → t.ctm.arm m = s.ctm.arm m) ∧ s.spares t := by
  refine ⟨_, hexec, ?_⟩
  have hspares := (imageEffect_contourOnly s).spares
  rw [imageEffect_arm hl hg hi hrest] at hspares ⊢
  have harm (m : Nat) : ((s.updCtm fun c => c.putArm (l.arm - 1) i).loadEnd l.arm 1 0).ctm.arm m =
      if m = l.arm - 1 then (s.ctm.arm (l.arm - 1)).imaged i else s.ctm.arm m := by
    rw [loadEnd_ctm]
    exact Ctm.putArm_arm ..
  have hend := loadEnd_ctm (s.updCtm fun c => c.putArm (l.arm - 1) i) l.arm 1 0
  have hown := (harm (l.arm - 1)).trans (if_pos rfl)
  beta_reduce
  rw [hown]
  exact ⟨rfl, rfl, rfl, by rw [hend], by rw [hend], fun m hm => (harm m).trans (if_neg hm), hspares⟩

/-- Settles O27: each command's outcome from the lemma about its own rule. -/
theorem contourImages : Obligations.ContourImages := by
  unfold Obligations.ContourImages
  intro s n b h hup
  refine ⟨imgCrc_arm h hup, imgCrc_cell h hup, imgCrc_good n h, safetyImageLoad_busy hup, safetyImageLoad_starts hup, imageCheckDone_ends b hup, ?_⟩
  intro l hw hl hover hc
  have hexec := execImageTakesEffect_of_caughtUp hup hw hover hc
  exact ⟨fun g hg hrest => imageTakesEffect_cell hexec hl hg hrest, fun i hg hi hrest => imageTakesEffect_arm hexec hl hg hi hrest⟩

end Sys2Proof.Machine
end

section
/-! SUPPORT. The decision for one arm, and a decision or a stop for each arm of the cell in turn (R198, R206, R208, R212). -/

namespace Sys2Proof.Machine

variable {s t : State} {c d : Ctm}

/-! ### The worst of several demands -/

theorem Demand.le_join_left (a b : Demand) : a.lvl ≤ (a.join b).lvl := by
  unfold Demand.join
  split_ifs <;> omega

theorem Demand.le_join_right (a b : Demand) : b.lvl ≤ (a.join b).lvl := by
  unfold Demand.join
  split_ifs <;> omega

/-- The worse of a demand found so far and one more. -/
def Demand.worse (a d : Demand) : Demand := if a.lvl = 0 then d else a.join d

theorem worst_eq (l : List Demand) : worst l = (l.filter fun d => d.lvl != 0).foldl Demand.worse {} := rfl

theorem Demand.le_worse (a d : Demand) : a.lvl ≤ (a.worse d).lvl ∧ d.lvl ≤ (a.worse d).lvl := by
  unfold Demand.worse
  split_ifs with h
  · omega
  · exact ⟨a.le_join_left d, a.le_join_right d⟩

theorem le_foldl_worse (l : List Demand) (a : Demand) : a.lvl ≤ (l.foldl Demand.worse a).lvl ∧ ∀ d ∈ l, d.lvl ≤ (l.foldl Demand.worse a).lvl := by
  induction l generalizing a with
  | nil => exact ⟨le_rfl, by simp⟩
  | cons b l ih =>
    obtain ⟨hstart, hl⟩ := ih (a.worse b)
    refine ⟨(a.le_worse b).1.trans hstart, fun d hd => ?_⟩
    obtain rfl | hd := List.mem_cons.1 hd
    · exact (a.le_worse d).2.trans hstart
    · exact hl d hd

theorem le_worst {l : List Demand} {d : Demand} (hd : d ∈ l) : d.lvl ≤ (worst l).lvl := by
  obtain h | h := eq_or_ne d.lvl 0
  · omega
  · rw [worst_eq]
    exact (le_foldl_worse ..).2 d (List.mem_filter.2 ⟨hd, by simpa using h⟩)

theorem worst_of_zero {l : List Demand} (h : ∀ d ∈ l, d.lvl = 0) : worst l = {} := by
  have hl : (l.filter fun d => d.lvl != 0) = [] := List.filter_eq_nil_iff.2 fun d hd => by simp [h d hd]
  rw [worst_eq, hl, List.foldl_nil]

/-! ### The safety state that a demand brings -/

/-- A state that is entered as `x` is `y` after the check for standstill: SS1 passes to STO and SS2 to SOS (R206). -/
def settledAs (x y : Nat) : Prop := y = x ∨ x = 1 ∧ y = 4 ∨ x = 2 ∧ y = 3

/-- A demand of level `l` takes an arm from state `x` to state `y`. -/
def takenTo (l x y : Nat) : Prop :=
  sstLvl x < l ∧ settledAs (lvlSst l) y ∨ l ≤ sstLvl x ∧ (l = 0 ∧ y = 0 ∨ settledAs x y)

theorem sstLvl_lvlSst (l : Nat) : sstLvl (lvlSst l) = min l 3 := by
  match l with
  | 0 | 1 | 2 => rfl
  | n + 3 => simp [lvlSst, sstLvl]

theorem sstLvl_le_of_settledAs {x y : Nat} (h : settledAs x y) : sstLvl x ≤ sstLvl y := by
  obtain rfl | ⟨rfl, rfl⟩ | ⟨rfl, rfl⟩ := h
  · exact le_rfl
  · decide
  · decide

/-- The arm is left at the level of the demand or above. -/
theorem le_sstLvl_of_takenTo {l x y : Nat} (h : takenTo l x y) : min l 3 ≤ sstLvl y := by
  obtain ⟨-, hy⟩ | ⟨hl, ⟨rfl, -⟩ | hy⟩ := h
  · exact (sstLvl_lvlSst l).ge.trans (sstLvl_le_of_settledAs hy)
  · omega
  · have := sstLvl_le_of_settledAs hy
    omega

theorem sstLvl_eq_three {x : Nat} : 3 ≤ sstLvl x ↔ 4 ≤ x := by
  match x with
  | 0 | 1 | 2 | 3 => decide
  | n + 4 => simp [sstLvl]

theorem two_le_sstLvl {x : Nat} : 2 ≤ sstLvl x ↔ x = 1 ∨ 4 ≤ x := by
  match x with
  | 0 | 1 | 2 | 3 => decide
  | n + 4 => simp [sstLvl]

theorem le_four_of_takenTo {l x y : Nat} (h : takenTo l x y) (hx : x ≤ 4) : y ≤ 4 := by
  have hl : lvlSst l ≤ 4 := by unfold lvlSst; split <;> omega
  unfold takenTo settledAs at h
  omega

/-- An arm is in STO after a demand of level 3. -/
theorem sto_of_takenTo {l x y : Nat} (h : takenTo l x y) (hl : 3 ≤ l) (hx : x ≤ 4) : y = 4 := by
  have h3 : 3 ≤ sstLvl y := (le_sstLvl_of_takenTo h).trans' (by omega)
  exact le_antisymm (le_four_of_takenTo h hx) (sstLvl_eq_three.1 h3)

/-- An arm is in SS1 or STO after a demand of level 2 or more. -/
theorem stopped_of_takenTo {l x y : Nat} (h : takenTo l x y) (hl : 2 ≤ l) (hx : x ≤ 4) : y = 1 ∨ y = 4 := by
  have h2 : 2 ≤ sstLvl y := (le_sstLvl_of_takenTo h).trans' (by omega)
  have h4 := le_four_of_takenTo h hx
  have := two_le_sstLvl.1 h2
  omega

/-! ### The demand on an arm, latched, released or carried on -/

/-- What a demand leaves of an arm with an image. -/
theorem armDecide_takes {n : Nat} {i : ArmImg} (himg : (s.ctm.arm n).img = some i) (x : Demand) (others pdem : Bool) :
    ∃ a, (s.armDecide n x others pdem).ctm = s.ctm.setArm n a ∧ takenTo x.lvl (s.ctm.arm n).sst a.sst := by
  unfold State.armDecide
  extract_lets a v loading change clear a1 a2
  have ha2 : a2.sst = a.sst := by
    unfold a2
    split_ifs <;> rfl
  split
  next h => exact absurd (h.symm.trans himg) (by simp)
  next j _ =>
  extract_lets still settle only
  have hsettle (b : CtmArm) (y : Nat) : ∃ b', (settle b y).ctm = s.ctm.setArm n b' ∧ settledAs y b'.sst := by
    unfold settle
    split_ifs with h1 h2
    · exact ⟨_, armEnter_ctm .., .inr (.inl ⟨by simp_all, rfl⟩)⟩
    · exact ⟨_, armEnter_ctm .., .inr (.inr ⟨by simp_all, rfl⟩)⟩
    · exact ⟨_, armEnter_ctm .., .inl rfl⟩
  split_ifs with hraise hrun hrelease
  · obtain ⟨b, hb, hy⟩ := hsettle { a1 with
      cause := x.cause, pdem := pdem, ssmOnly := decide only, latch := !decide only,
      k0 := s.ctm.openUp, v0 := a1.vel.map fun x => (x.natAbs : Int) } (lvlSst x.lvl)
    exact ⟨b, hb, .inl ⟨hraise, hy⟩⟩
  · have hlow : x.lvl ≤ sstLvl a.sst := Nat.le_of_not_lt hraise
    have hzero : a.sst = 0 := hrun
    refine ⟨_, armEnter_ctm .., .inr ⟨hlow, .inl ⟨?_, rfl⟩⟩⟩
    rw [hzero] at hlow
    exact Nat.le_zero.1 hlow
  · exact ⟨_, armEnter_ctm .., .inr ⟨Nat.le_of_not_lt hraise, .inl ⟨hrelease.1, rfl⟩⟩⟩
  · obtain ⟨b, hb, hy⟩ := hsettle a2 a2.sst
    exact ⟨b, hb, .inr ⟨Nat.le_of_not_lt hraise, .inr (ha2 ▸ hy)⟩⟩

/-- With no demand left, the demand of SSM that AUTORESUME covers is released after RESUMECYC clear datums (R212). -/
theorem armDecide_resumes {n : Nat} {i : ArmImg} (himg : (s.ctm.arm n).img = some i) {x : Demand} (hx : x.lvl = 0) (pdem : Bool)
    (hstop : (s.ctm.arm n).sst ≠ 0) (honly : (s.ctm.arm n).ssmOnly = true) (hmode : (s.ctm.arm n).amode = 3) (hauto : i.auto = true)
    (hclear : (s.ctm.arm n).view.clear = true) (hcyc : i.resumeCyc ≤ min 255 ((s.ctm.arm n).clear + 1)) :
    ∃ a, (s.armDecide n x false pdem).ctm = s.ctm.setArm n a ∧ a.sst = 0 ∧ a.latch = false ∧ a.cause = 0 := by
  unfold State.armDecide
  extract_lets a v loading change clear a1 a2
  split
  next h => exact absurd (h.symm.trans himg) (by simp)
  next j hj =>
  obtain rfl : j = i := Option.some.inj (hj.symm.trans himg)
  extract_lets still settle only
  have hlow : ¬ sstLvl a1.sst < x.lvl := by omega
  have hrun : ¬ a1.sst = 0 := hstop
  have hrelease : x.lvl = 0 ∧ ((a2.rstSeen ∧ !loading) ∨ (a2.ssmOnly ∧ a2.amode = 3 ∧ j.auto ∧ j.resumeCyc ≤ a2.clear)) := by
    refine ⟨hx, .inr ⟨honly, hmode, hauto, ?_⟩⟩
    show j.resumeCyc ≤ clear
    rwa [show clear = min 255 (a.clear + 1) from if_pos hclear]
  rw [if_neg hlow, if_neg hrun, if_pos hrelease]
  exact ⟨_, armEnter_ctm .., rfl, rfl, rfl⟩

/-! ### The demand that a cycle forms for an arm -/

/-- The processor channel's part for an arm. -/
def procPart (proc : Option (List ProcArm)) (n : Nat) : Option ProcArm := proc.bind fun l => l.find? fun x => x.arm == n + 1

/-- An arm after the comparison of the channels. -/
def CtmArm.compared (a : CtmArm) (g : CellImg) (p : Option ProcArm) : CtmArm :=
  { a with disc := p.elim 0 fun x => if disagree g a.view ⟨a.view.lvl, a.view.cause⟩ x then min 3 (a.disc + 1) else 0 }

/-- What the hard-wired channel and the Contour die itself demand of an arm. -/
def Ctm.hwDemand (c : Ctm) (a : CtmArm) (lost : Bool) : Demand := worst (⟨a.view.lvl, a.view.cause⟩ :: c.ownDemands a lost)

/-- Whether a demand of another cause than SSM is present. -/
def Ctm.othersFor (c : Ctm) (a : CtmArm) (lost : Bool) (p : Option ProcArm) : Bool :=
  a.view.others || (c.ownDemands a lost).any (fun d => d.lvl != 0 && d.cause != 7) || p.any fun x => x.demand != 0 && x.cause != 7

/-- The level that the processor channel demands. -/
def procLvl (p : Option ProcArm) : Nat := (p.map (·.demand)).getD 0

/-- The demand on an arm: the processor channel's where it is the higher. -/
def Demand.withProc (hw : Demand) (pl : Nat) : Demand := if hw.lvl < pl then ⟨min pl 3, 20⟩ else hw

/-- The state in which the demand on an arm is decided: the hard-wired channel's own state and the comparison are noted. -/
def State.noteArm (s : State) (n : Nat) (a : CtmArm) : State :=
  let s := s.updCtm fun c => c.setArm n a
  if a.disc = 3 then s.updCtm fun c => { c with diags := c.diags ++ [(5, n + 1, n + 1)] } else s

theorem decideArm_eq {n : Nat} {i : ArmImg} {g : CellImg} (himg : (s.ctm.arm n).img = some i) (hcell : s.ctm.cell = some g) (lost : Bool)
    (proc : Option (List ProcArm)) :
    let p := procPart proc n
    let a := (s.ctm.arm n).compared g p
    let hw := s.ctm.hwDemand a lost
    s.decideArm lost proc n =
      ((s.noteArm n (a.hwDecide i hw)).armDecide n (hw.withProc (procLvl p)) (s.ctm.othersFor a lost p) (decide (hw.lvl < procLvl p))).hwRelease n := by
  intro p a hw
  unfold State.decideArm
  extract_lets b q v pl
  split
  next j e hj he =>
    obtain rfl : j = i := Option.some.inj (hj.symm.trans himg)
    obtain rfl : e = g := Option.some.inj (he.symm.trans hcell)
    extract_lets disc a1 own hw' others a2 s1 s2
    have hmatch (r : Option ProcArm) (f : ProcArm → Nat) : (match r with | some x => f x | none => 0) = r.elim 0 f := by cases r <;> rfl
    have hdisc : disc = a.disc := hmatch q _
    have ha : a1 = a := congrArg (fun k => { b with disc := k }) hdisc
    have hown : own = s.ctm.ownDemands a lost := congrArg (fun x => s.ctm.ownDemands x lost) ha
    have hhw : hw' = hw := congrArg (fun l => worst (⟨v.lvl, v.cause⟩ :: l)) hown
    have ha2 : a2 = a.hwDecide j hw := by
      unfold a2
      rw [ha, hhw]
    have hs2 : s2 = s.noteArm n (a.hwDecide j hw) := by
      have hd : (a.hwDecide j hw).disc = disc := by
        rw [hdisc]
        unfold CtmArm.hwDecide
        split_ifs <;> rfl
      unfold s2 s1 State.noteArm
      simp only [ha2, hd]
    have hothers : others = s.ctm.othersFor a lost p := by
      unfold others
      rw [hown]
      rfl
    have hpl : pl = procLvl p := rfl
    rw [hs2, hhw, hothers, hpl]
    unfold Demand.withProc
    split_ifs with h
    · rw [decide_eq_true h]
    · rw [decide_eq_false h]
  next h => exact absurd hcell (h _ _ himg)

theorem decideArm_of_no_image {n : Nat} (himg : (s.ctm.arm n).img = none) (lost : Bool) (proc : Option (List ProcArm)) :
    s.decideArm lost proc n = s := by
  unfold State.decideArm
  extract_lets b q v pl
  split
  next j e hj he => exact absurd (hj.symm.trans himg) (by simp)
  next => rfl

theorem decideArm_of_no_cell (hcell : s.ctm.cell = none) (lost : Bool) (proc : Option (List ProcArm)) (n : Nat) : s.decideArm lost proc n = s := by
  unfold State.decideArm
  extract_lets b q v pl
  split
  next j e hj he => exact absurd (he.symm.trans hcell) (by simp)
  next => rfl

/-! ### What a decision or a stop of one arm may write -/

/-- `d` is `c` but for arm `n` and the diagnostics that wait for the decision. -/
structure Ctm.armOnly (n : Nat) (c d : Ctm) : Prop where
  rest : { d with arms := c.arms, diags := c.diags } = c
  arm : ∀ m, m ≠ n → d.arm m = c.arm m

variable {n : Nat} {e : Ctm}

theorem Ctm.armOnly.refl (n : Nat) (c : Ctm) : c.armOnly n c := ⟨rfl, fun _ _ => rfl⟩

theorem Ctm.armOnly.trans (h : c.armOnly n d) (k : d.armOnly n e) : c.armOnly n e := by
  constructor
  · conv_rhs => rw [← h.rest, ← k.rest]
  · intro m hm
    rw [k.arm m hm, h.arm m hm]

theorem Ctm.setArm_armOnly (c : Ctm) (n : Nat) (a : CtmArm) : c.armOnly n (c.setArm n a) :=
  ⟨rfl, fun m hm => by rw [Ctm.arm_setArm, if_neg hm]⟩

theorem noteArm_arm (s : State) (n : Nat) (a : CtmArm) : (s.noteArm n a).ctm.arm n = a := by
  have h : (s.ctm.setArm n a).arm n = a := by rw [Ctm.arm_setArm, if_pos rfl]
  unfold State.noteArm
  extract_lets t
  split_ifs
  · exact h
  · exact h

theorem noteArm_armOnly (s : State) (n : Nat) (a : CtmArm) : s.ctm.armOnly n (s.noteArm n a).ctm := by
  have h := s.ctm.setArm_armOnly n a
  unfold State.noteArm
  extract_lets t
  split_ifs
  · exact h.trans ⟨rfl, fun _ _ => rfl⟩
  · exact h

theorem armDecide_armOnly (s : State) (n : Nat) (x : Demand) (others pdem : Bool) : s.ctm.armOnly n (s.armDecide n x others pdem).ctm := by
  cases himg : (s.ctm.arm n).img with
  | none =>
    unfold State.armDecide
    simp only [himg]
    exact .refl ..
  | some i =>
    obtain ⟨a, ha, -⟩ := armDecide_takes himg x others pdem
    rw [ha]
    exact Ctm.setArm_armOnly ..

theorem hwRelease_armOnly (s : State) (n : Nat) : s.ctm.armOnly n (s.hwRelease n).ctm := by
  unfold State.hwRelease
  extract_lets a
  split_ifs
  · exact Ctm.setArm_armOnly ..
  · exact .refl ..

/-- `b` is `a` but for the hard-wired channel's own state. -/
def CtmArm.hwOnly (a b : CtmArm) : Prop := { b with hwSst := a.hwSst, hwCause := a.hwCause, hwPerson := a.hwPerson } = a

theorem hwRelease_hwOnly (s : State) (n : Nat) : (s.ctm.arm n).hwOnly ((s.hwRelease n).ctm.arm n) := by
  have h : (s.ctm.setArm n { s.ctm.arm n with hwSst := 0, hwCause := 0 }).arm n = { s.ctm.arm n with hwSst := 0, hwCause := 0 } := by
    rw [Ctm.arm_setArm, if_pos rfl]
  unfold State.hwRelease
  extract_lets a
  split_ifs
  · exact (congrArg (a.hwOnly ·) h).mpr rfl
  · rfl

theorem hwDecide_hwOnly (a : CtmArm) (i : ArmImg) (hw : Demand) : a.hwOnly (a.hwDecide i hw) := by
  unfold CtmArm.hwDecide
  dsimp only
  split_ifs <;> rfl

theorem decideArm_armOnly (s : State) (lost : Bool) (proc : Option (List ProcArm)) (n : Nat) : s.ctm.armOnly n (s.decideArm lost proc n).ctm := by
  cases himg : (s.ctm.arm n).img with
  | none => rw [decideArm_of_no_image himg]; exact .refl ..
  | some i =>
    cases hcell : s.ctm.cell with
    | none => rw [decideArm_of_no_cell hcell]; exact .refl ..
    | some g =>
      rw [decideArm_eq himg hcell]
      exact (noteArm_armOnly ..).trans ((armDecide_armOnly ..).trans (hwRelease_armOnly ..))

theorem armSto_armOnly (s : State) (n cause : Nat) : s.ctm.armOnly n (s.armSto n cause).ctm := by
  unfold State.armSto
  extract_lets a
  split_ifs
  · exact .refl ..
  · exact Ctm.setArm_armOnly ..
  · rw [armEnter_ctm]
    exact Ctm.setArm_armOnly ..

/-! ### The arms of the cell in turn -/

/-- `d` is `c` but for its arms and the diagnostics that wait for the decision. -/
def Ctm.armsOnly (c d : Ctm) : Prop := { d with arms := c.arms, diags := c.diags } = c

theorem Ctm.armsOnly.trans (h : c.armsOnly d) (k : d.armsOnly e) : c.armsOnly e := by
  unfold Ctm.armsOnly at *
  conv_rhs => rw [← h, ← k]

theorem Ctm.armOnly.armsOnly (h : c.armOnly n d) : c.armsOnly d := h.rest

/-- Work on each arm in turn: an arm of the list is worked on once, in a state in which it and all but the arms are still as they were. -/
theorem arms_in_turn {f : State → Nat → State} (hf : ∀ (s : State) n, s.ctm.armOnly n (f s n).ctm) (l : List Nat) (hl : l.Nodup) (s : State) :
    s.ctm.armsOnly (l.foldl f s).ctm ∧ (∀ m, m ∉ l → (l.foldl f s).ctm.arm m = s.ctm.arm m) ∧
      ∀ m, m ∈ l → ∃ u, s.ctm.armsOnly u.ctm ∧ u.ctm.arm m = s.ctm.arm m ∧ (l.foldl f s).ctm.arm m = (f u m).ctm.arm m := by
  induction l generalizing s with
  | nil => exact ⟨rfl, fun _ _ => rfl, by simp⟩
  | cons n l ih =>
    obtain ⟨hn, hl⟩ := List.nodup_cons.1 hl
    obtain ⟨hrest, hout, hin⟩ := ih hl (f s n)
    have hstep := hf s n
    refine ⟨hstep.armsOnly.trans hrest, fun m hm => ?_, fun m hm => ?_⟩
    · rw [List.mem_cons, not_or] at hm
      exact (hout m hm.2).trans (hstep.arm m hm.1)
    · obtain rfl | hml := List.mem_cons.1 hm
      · exact ⟨s, rfl, rfl, hout m hn⟩
      · obtain ⟨u, hu, hum, hres⟩ := hin m hml
        have hmn : m ≠ n := fun h => hn (h ▸ hml)
        exact ⟨u, hstep.armsOnly.trans hu, hum.trans (hstep.arm m hmn), hres⟩

theorem armList_nodup (s : State) : s.armList.Nodup := List.nodup_range

/-! ### The decision of a cycle -/

/-- The processor channel's result that enters a cycle's decision. -/
def Ctm.procEntered (c : Ctm) : Option (List ProcArm) := if c.procUsed then c.proc else none

/-- How many results are missing in a row at a decision. -/
def Ctm.missingNow (c : Ctm) : Nat := if c.procEntered.isSome then 0 else min 31 (c.missing + 1)

/-- The Contour state when a cycle's decision begins. -/
def Ctm.deciding (c : Ctm) : Ctm :=
  { c with decided := true, procOk := c.procEntered.isSome, missing := c.missingNow, diags := c.diags ++ if c.procLost c.missingNow then [(6, 0, 0)] else [] }

/-- The decision for each arm of the cell. -/
def State.decideArms (s : State) : State :=
  s.armList.foldl (fun t n => t.decideArm (s.ctm.procLost s.ctm.missingNow) s.ctm.procEntered n) (s.updCtm Ctm.deciding)

theorem ctmDecide_eq (hd : s.ctm.decided = false) : s.ctmDecide =
    ((reportDiags s.decideArms.ctm.diags s.decideArms).updCtm fun c =>
      { c with standing := s.decideArms.ctm.diags.map fun d => d.1 * 512 + d.2.2, diags := [] }).driveOuts := by
  unfold State.ctmDecide
  rw [if_neg (by rw [hd]; decide)]
  rfl

end Sys2Proof.Machine
end

section
/-! SUPPORT. The decision of a cycle: the demand it enters for each arm, the outputs, and the claims about it (R197–R202). -/

namespace Sys2Proof.Machine

variable {s t : State} {c d : Ctm} {n : Nat} {i : ArmImg} {g : CellImg}

/-! ### The demand on an arm -/

theorem Demand.le_withProc (hw : Demand) (pl : Nat) : min hw.lvl 3 ≤ (hw.withProc pl).lvl ∧ min pl 3 ≤ (hw.withProc pl).lvl := by
  unfold Demand.withProc
  split_ifs with h
  · exact ⟨by show _ ≤ min pl 3; omega, le_rfl⟩
  · exact ⟨min_le_left .., by omega⟩

theorem Ctm.view_le_hwDemand (c : Ctm) (a : CtmArm) (lost : Bool) : a.view.lvl ≤ (c.hwDemand a lost).lvl := le_worst (d := ⟨a.view.lvl, a.view.cause⟩) (by simp)

theorem Ctm.own_le_hwDemand {a : CtmArm} {lost : Bool} {x : Demand} (hx : x ∈ c.ownDemands a lost) : x.lvl ≤ (c.hwDemand a lost).lvl :=
  le_worst (List.mem_cons_of_mem _ hx)

theorem Ctm.clkFail_mem_own {a : CtmArm} (lost : Bool) (h : c.clkFail = true) : ⟨3, 13⟩ ∈ c.ownDemands a lost := by
  simp [Ctm.ownDemands, h]

theorem Ctm.lost_mem_own {a : CtmArm} : ⟨2, 12⟩ ∈ c.ownDemands a true := by
  simp [Ctm.ownDemands]

/-- An arm at the decision, its channels compared. -/
def Ctm.compared (c : Ctm) (n : Nat) (g : CellImg) : CtmArm := (c.arm n).compared g (procPart c.procEntered n)

/-- The demand that a decision enters for an arm. -/
def Ctm.demandOn (c : Ctm) (n : Nat) (g : CellImg) : Demand :=
  (c.hwDemand (c.compared n g) (c.procLost c.missingNow)).withProc (procLvl (procPart c.procEntered n))

theorem Ctm.hw_le_demandOn (c : Ctm) (n : Nat) (g : CellImg) : min (c.hwDemand (c.compared n g) (c.procLost c.missingNow)).lvl 3 ≤ (c.demandOn n g).lvl :=
  (Demand.le_withProc ..).1

theorem Ctm.view_le_demandOn (c : Ctm) (n : Nat) (g : CellImg) : min (c.arm n).view.lvl 3 ≤ (c.demandOn n g).lvl :=
  (min_le_min_right 3 (c.view_le_hwDemand (c.compared n g) _)).trans (c.hw_le_demandOn n g)

theorem Ctm.proc_le_demandOn {l : List ProcArm} {x : ProcArm} (g : CellImg) (hu : c.procUsed = true) (hp : c.proc = some l)
    (hx : (l.find? fun y => y.arm == n + 1) = some x) : min x.demand 3 ≤ (c.demandOn n g).lvl := by
  have hpart : procPart c.procEntered n = some x := by
    rw [procPart, Ctm.procEntered, if_pos hu, hp]
    exact hx
  have hlvl : procLvl (procPart c.procEntered n) = x.demand := by
    rw [hpart]
    rfl
  rw [← hlvl]
  exact (Demand.le_withProc ..).2

theorem Ctm.three_le_demandOn (n : Nat) (g : CellImg) (h : c.clkFail = true) : 3 ≤ (c.demandOn n g).lvl := by
  have h3 : 3 ≤ (c.hwDemand (c.compared n g) (c.procLost c.missingNow)).lvl := Ctm.own_le_hwDemand (Ctm.clkFail_mem_own _ h)
  have := c.hw_le_demandOn n g
  omega

theorem Ctm.two_le_demandOn (n : Nat) (g : CellImg) (h : c.procLost c.missingNow = true) : 2 ≤ (c.demandOn n g).lvl := by
  have h2 : 2 ≤ (c.hwDemand (c.compared n g) (c.procLost c.missingNow)).lvl := Ctm.own_le_hwDemand (x := ⟨2, 12⟩) (h ▸ Ctm.lost_mem_own)
  have := c.hw_le_demandOn n g
  omega

/-! ### The arms after the decision -/

theorem Ctm.armsOnly.ownDemands (h : c.armsOnly d) (a : CtmArm) (lost : Bool) : d.ownDemands a lost = c.ownDemands a lost :=
  (congrArg (fun x : Ctm => x.ownDemands a lost) h :)

theorem Ctm.armsOnly.cell (h : c.armsOnly d) : d.cell = c.cell := (congrArg Ctm.cell h :)

theorem Ctm.armsOnly.clkFail (h : c.armsOnly d) : d.clkFail = c.clkFail := (congrArg Ctm.clkFail h :)

/-- Each arm of the cell is decided once, in a state in which it and all that the demands rest on are as the cycle left them. -/
theorem decideArms_arm (hn : n ∈ s.armList) : ∃ u : State, s.ctm.deciding.armsOnly u.ctm ∧ u.ctm.arm n = s.ctm.arm n ∧
    s.decideArms.ctm.arm n = (u.decideArm (s.ctm.procLost s.ctm.missingNow) s.ctm.procEntered n).ctm.arm n :=
  (arms_in_turn (fun _ _ => decideArm_armOnly ..) s.armList (armList_nodup s) (s.updCtm Ctm.deciding)).2.2 n hn

theorem decideArms_armsOnly (s : State) : s.ctm.deciding.armsOnly s.decideArms.ctm :=
  (arms_in_turn (fun _ _ => decideArm_armOnly ..) s.armList (armList_nodup s) (s.updCtm Ctm.deciding)).1

theorem CtmArm.hwOnly.sst {a b : CtmArm} (h : a.hwOnly b) : b.sst = a.sst := (congrArg CtmArm.sst h :)

theorem CtmArm.hwOnly.img {a b : CtmArm} (h : a.hwOnly b) : b.img = a.img := (congrArg CtmArm.img h :)

/-- The demand on an arm at a decision takes it from its state to its next. -/
theorem decideArms_takes (hn : n ∈ s.armList) (himg : (s.ctm.arm n).img = some i) (hcell : s.ctm.cell = some g) :
    takenTo (s.ctm.demandOn n g).lvl (s.ctm.arm n).sst (s.decideArms.ctm.arm n).sst := by
  obtain ⟨u, hu, harm, hres⟩ := decideArms_arm hn
  rw [hres, decideArm_eq (harm ▸ himg) (hu.cell.trans hcell), (hwRelease_hwOnly ..).sst, harm]
  have hhw (a : CtmArm) (lost : Bool) : u.ctm.hwDemand a lost = s.ctm.hwDemand a lost := congrArg (fun l => worst (_ :: l)) (hu.ownDemands a lost)
  rw [hhw]
  set a := (s.ctm.arm n).compared g (procPart s.ctm.procEntered n)
  set hw := s.ctm.hwDemand a (s.ctm.procLost s.ctm.missingNow)
  have hnote := noteArm_arm u n (a.hwDecide i hw)
  have hown := hwDecide_hwOnly a i hw
  obtain ⟨b, hb, htaken⟩ := armDecide_takes (s := u.noteArm n (a.hwDecide i hw)) (by rw [hnote, hown.img]; exact himg) (hw.withProc (procLvl (procPart s.ctm.procEntered n)))
    (u.ctm.othersFor a (s.ctm.procLost s.ctm.missingNow) (procPart s.ctm.procEntered n)) (decide (hw.lvl < procLvl (procPart s.ctm.procEntered n)))
  rw [hb, Ctm.arm_setArm, if_pos rfl]
  rw [hnote, hown.sst] at htaken
  exact htaken

/-! ### The rest of the decision -/

/-- The Contour state in which a decision switches the outputs. -/
theorem ctmDecide_sampled (hd : s.ctm.decided = false) :
    ∃ c : Ctm, c.sampled s.ctmDecide.ctm ∧ (∀ m, c.arm m = s.decideArms.ctm.arm m) ∧ c.clkFail = s.ctm.clkFail ∧ c.decided = true := by
  have htold := reportDiags_told s.decideArms.ctm.diags s.decideArms
  rw [ctmDecide_eq hd]
  refine ⟨_, driveOuts_sampled _, fun m => htold.arm m, ?_, ?_⟩
  · exact htold.worked.clkFail.trans (decideArms_armsOnly s).clkFail
  · exact (congrArg Ctm.decided htold :).trans (congrArg Ctm.decided (decideArms_armsOnly s) :)

theorem ctmDecide_sst (hd : s.ctm.decided = false) (m : Nat) : (s.ctmDecide.ctm.arm m).sst = (s.decideArms.ctm.arm m).sst := by
  obtain ⟨c, hc, harm, -⟩ := ctmDecide_sampled hd
  rw [hc.sst, harm]

theorem Ctm.sampled.decided (h : c.sampled d) : d.decided = c.decided := (congrArg Ctm.decided h.rest :)

theorem ctmDecide_decided (hd : s.ctm.decided = false) : s.ctmDecide.ctm.decided = true := by
  obtain ⟨c, hc, -, -, hdec⟩ := ctmDecide_sampled hd
  rw [hc.decided, hdec]

/-- With a clock deviation every output is off after the decision. -/
theorem ctmDecide_off (hd : s.ctm.decided = false) (hclk : s.ctm.clkFail = true) {k : Nat} (hk : k < 16) : (s.ctmDecide.ctm.out k).cmd = false := by
  have htold := reportDiags_told s.decideArms.ctm.diags s.decideArms
  rw [ctmDecide_eq hd]
  refine driveOuts_off _ hk fun d hd => Ctm.outPermit_of_clkFail _ _ ?_
  rw [hd.clkFail]
  exact htold.worked.clkFail.trans ((decideArms_armsOnly s).clkFail.trans hclk)

/-! ### The commands -/

theorem runTo_of_le {ns : Nat} (h : ns * unitNs ≤ s.mer.phase) : s.runTo ns = s := if_neg fun hlt => absurd hlt.1 (Nat.not_lt.2 h)

theorem exec_decision (hup : s.ctmUp = true) (hd : s.ctm.decided = false) (hphase : 40000 * unitNs ≤ s.mer.phase) :
    exec .decision s = .next s.ctmDecide := by
  show execDecision s = _
  rw [execDecision, if_neg (by rw [hup, hd]; decide), runTo_of_le hphase]

theorem exec_processorResult (dev : List ProcArm) (hup : s.ctmUp = true) (hw : s.ctm.wrst = false) (hheld : s.ctm.procHeld = false)
    (hhalt : s.ctm.halted = false) (hproc : s.ctm.proc = none) :
    exec (.processorResult dev) s = .next { s with ctm :=
      { s.ctm with proc := some (s.procResult dev), procUsed := !s.ctm.decided && decide (s.mer.phase ≤ 30000 * unitNs) } } := by
  show execProcessorResult dev s = _
  rw [execProcessorResult, if_neg (by simp [hup, hw, hheld, hhalt, hproc])]
  rfl

theorem mem_procResult {dev : List ProcArm} {x : ProcArm} (hx : x ∈ s.ctm.procVector s.armList) :
    (dev.find? fun y => y.arm == x.arm).getD x ∈ s.procResult dev := List.mem_map_of_mem hx

/-- A lockstep halt that stood at the datum, or too many results missing, count as a lost processor. -/
theorem procLost_of (hcell : s.ctm.cell = some g) (h : s.ctm.lostHalt = true ∨ s.ctm.procUsed = false ∧ g.pmiss ≤ min 31 (s.ctm.missing + 1)) :
    s.ctm.procLost s.ctm.missingNow = true := by
  obtain h | ⟨hu, hm⟩ := h
  · simp [Ctm.procLost, h]
  · have hmiss : s.ctm.missingNow = min 31 (s.ctm.missing + 1) := by simp [Ctm.missingNow, Ctm.procEntered, hu]
    simp [Ctm.procLost, hmiss, hcell, hm]

/-- Settles O24: the demand that a decision enters for an arm is at least what each channel and the Contour die itself demand, and the arm is
taken at least to its level. -/
theorem contourDecision : Obligations.ContourDecision := by
  unfold Obligations.ContourDecision
  intro s dev hup
  refine ⟨fun hw hheld hhalt hproc => ⟨_, exec_processorResult dev hup hw hheld hhalt hproc, rfl, fun x hx => mem_procResult hx⟩, fun hd hphase => ?_⟩
  refine ⟨_, exec_decision hup hd hphase, ctmDecide_decided hd, (ctmDecide_contourOnly s).spares, fun n i g hn himg hcell => ?_⟩
  have htaken := decideArms_takes hn himg hcell
  rw [← ctmDecide_sst hd] at htaken
  have hlvl := le_sstLvl_of_takenTo htaken
  refine ⟨fun hv => ?_, fun l x hu hp hx _ => ?_, fun hclk hsst => ?_, fun hlost hsst => ?_⟩
  · have := s.ctm.view_le_demandOn n g
    omega
  · have := Ctm.proc_le_demandOn g hu hp hx
    omega
  · exact ⟨sto_of_takenTo htaken (Ctm.three_le_demandOn n g hclk) hsst, fun k hk => ctmDecide_off hd hclk hk⟩
  · exact stopped_of_takenTo htaken (Ctm.two_le_demandOn n g (procLost_of hcell hlost)) hsst

end Sys2Proof.Machine
end

section
/-! SUPPORT. Stops and their end: TSS1, AUTORESUME, the reference clock and lockstep (R197, R202, R206, R212, R223). -/

namespace Sys2Proof.Machine

variable {s t : State} {c d : Ctm} {n : Nat} {i : ArmImg} {g : CellImg}

/-! ### Arms put into STO -/

/-- An arm with an image that is put into STO is in STO. -/
theorem armSto_sst (himg : (s.ctm.arm n).img = some i) (cause : Nat) : ((s.armSto n cause).ctm.arm n).sst = 4 := by
  unfold State.armSto
  extract_lets a
  have ha : a.img.isNone = false := by rw [show a.img = some i from himg]; rfl
  split_ifs with h0 h4
  · simp [ha] at h0
  · rw [show (s.updCtm fun c => c.setArm n { a with latch := true, ssmOnly := false, rstSeen := false }).ctm.arm n =
      { a with latch := true, ssmOnly := false, rstSeen := false } from (Ctm.arm_setArm ..).trans (if_pos rfl)]
    exact eq_of_beq h4
  · rw [armEnter_ctm, Ctm.arm_setArm, if_pos rfl]

/-- An arm that is stopped but not in STO enters it with the cause, latched. -/
theorem armSto_ctm (himg : (s.ctm.arm n).img = some i) (hsst : (s.ctm.arm n).sst ≠ 4) (cause : Nat) :
    (s.armSto n cause).ctm = s.ctm.setArm n { s.ctm.arm n with cause := cause, latch := true, ssmOnly := false, rstSeen := false, pdem := false, sst := 4 } := by
  unfold State.armSto
  extract_lets a
  have ha : a.img.isNone = false := by rw [show a.img = some i from himg]; rfl
  rw [if_neg (by simp [ha]), if_neg (by simpa using hsst), armEnter_ctm]

theorem Ctm.sampled.latch (h : c.sampled d) (n : Nat) : (d.arm n).latch = (c.arm n).latch := (congrArg CtmArm.latch (h.arm n) :)

theorem Ctm.sampled.cause (h : c.sampled d) (n : Nat) : (d.arm n).cause = (c.arm n).cause := (congrArg CtmArm.cause (h.arm n) :)

theorem allSto_arms (s : State) (cause : Nat) : ∃ u : State, s.allSto cause = u.driveOuts ∧ s.ctm.armsOnly u.ctm ∧
    ∀ m i, m ∈ s.armList → (s.ctm.arm m).img = some i → (u.ctm.arm m).sst = 4 := by
  obtain ⟨hrest, -, hin⟩ := arms_in_turn (fun s n => armSto_armOnly s n cause) s.armList (armList_nodup s) s
  refine ⟨_, rfl, hrest, fun m i hm himg => ?_⟩
  obtain ⟨v, -, hv, hres⟩ := hin m hm
  rw [hres]
  exact armSto_sst (hv ▸ himg) cause

theorem allSto_sst (hn : n ∈ s.armList) (himg : (s.ctm.arm n).img = some i) (cause : Nat) : ((s.allSto cause).ctm.arm n).sst = 4 := by
  obtain ⟨u, hu, -, hsto⟩ := allSto_arms s cause
  rw [hu, (driveOuts_sampled u).sst, hsto n i hn himg]

theorem allSto_clkFail (s : State) (cause : Nat) : (s.allSto cause).ctm.clkFail = s.ctm.clkFail := by
  obtain ⟨u, hu, hrest, -⟩ := allSto_arms s cause
  rw [hu, (driveOuts_sampled u).clkFail, hrest.clkFail]

theorem allSto_off (hclk : s.ctm.clkFail = true) (cause : Nat) {k : Nat} (hk : k < 16) : ((s.allSto cause).ctm.out k).cmd = false := by
  obtain ⟨u, hu, hrest, -⟩ := allSto_arms s cause
  rw [hu]
  exact driveOuts_off u hk fun d hd => Ctm.outPermit_of_clkFail _ _ (hd.clkFail.trans (hrest.clkFail.trans hclk))

/-! ### TSS1 (R206) -/

theorem exec_tss1Expiry (hup : s.ctmUp = true) (himg : (s.ctm.arm n).img = some i) (hstop : (s.ctm.arm n).sst = 1 ∨ (s.ctm.arm n).sst = 2)
    (htime : (s.ctm.arm n).k0 + i.tss1 * 1000000 ≤ s.upNs) :
    exec (.tss1Expiry (n + 1)) s = .next ((s.armSto n 17).ctmDiag 16 (n + 1) (n + 1)).driveOuts := by
  show execTss1Expiry (n + 1) s = _
  unfold execTss1Expiry
  rw [Nat.add_sub_cancel]
  simp only [himg]
  rw [if_pos (by rcases hstop with h | h <;> simp [hup, h, htime])]

theorem tss1Expiry_stops (hup : s.ctmUp = true) (himg : (s.ctm.arm n).img = some i) (hstop : (s.ctm.arm n).sst = 1 ∨ (s.ctm.arm n).sst = 2)
    (htime : (s.ctm.arm n).k0 + i.tss1 * 1000000 ≤ s.upNs) : Answers (.tss1Expiry (n + 1)) s fun t =>
      (t.ctm.arm n).sst = 4 ∧ (t.ctm.arm n).latch = true ∧ (t.ctm.arm n).cause = 17 ∧
      (∀ m, m ≠ n → (t.ctm.arm m).sst = (s.ctm.arm m).sst) ∧ s.spares t ∧
      ∀ k, k < 16 → let r := s.ctm.soutRec (k / 2)
        (r.src = 1 ∨ r.src = 2) → n < 18 → bitN r.arms n = true → (t.ctm.out k).cmd = false := by
  refine ⟨_, exec_tss1Expiry hup himg hstop htime, ?_⟩
  have hsto := armSto_ctm himg (by omega) 17
  set x := s.armSto n 17 with hx
  set y := x.ctmDiag 16 (n + 1) (n + 1)
  have hxy : x.ctm.told y.ctm := ctmDiag_told ..
  have hy : x.ctm.sampled y.driveOuts.ctm := hxy.worked.tosampled.trans (driveOuts_sampled y)
  have harm : x.ctm.arm n = { s.ctm.arm n with cause := 17, latch := true, ssmOnly := false, rstSeen := false, pdem := false, sst := 4 } := by
    rw [hsto, Ctm.arm_setArm, if_pos rfl]
  have hspares : s.contourOnly y.driveOuts := (armSto_contourOnly s n 17).trans ((ctmDiag_contourOnly ..).trans (driveOuts_contourOnly _))
  refine ⟨by rw [hy.sst, harm], by rw [hy.latch, harm], by rw [hy.cause, harm], fun m hm => ?_, hspares.spares, fun k hk => ?_⟩
  · rw [hy.sst, hsto, Ctm.arm_setArm, if_neg hm]
  · intro r hr hn hb
    refine driveOuts_off _ hk fun d hd => ?_
    have hxd : x.ctm.sampled d := hxy.worked.tosampled.trans hd
    have hrec : d.soutRec (k / 2) = r := by
      rw [hxd.soutRec, hsto]
      rfl
    exact Ctm.outPermit_of_sto (n := n) (hrec ▸ hr) (List.mem_range.2 hn) (hrec ▸ hb) (by rw [hxd.sst, harm])

/-! ### AUTORESUME (R212) -/

/-- Nothing is demanded of an arm: neither by its own evaluation nor by the Contour die, and no result of the processor channel enters. -/
structure State.undemanded (s : State) (n : Nat) (g : CellImg) : Prop where
  cell : s.ctm.cell = some g
  view : (s.ctm.arm n).view.lvl = 0
  others : (s.ctm.arm n).view.others = false
  proc : s.ctm.procUsed = false
  halt : s.ctm.lostHalt = false
  missing : min 31 (s.ctm.missing + 1) < g.pmiss
  clk : s.ctm.clkFail = false
  img : (s.ctm.arm n).imgBad = false
  cellBad : s.ctm.cellBad = false
  wrst : s.ctm.wrst = false
  raised : (s.ctm.arm n).raised.lvl = 0

theorem State.undemanded.procEntered (h : s.undemanded n g) : s.ctm.procEntered = none := if_neg (by rw [h.proc]; decide)

theorem State.undemanded.procLost (h : s.undemanded n g) : s.ctm.procLost s.ctm.missingNow = false := by
  have hmiss : s.ctm.missingNow = min 31 (s.ctm.missing + 1) := by simp [Ctm.missingNow, h.procEntered]
  rw [Ctm.procLost, h.halt, h.cell, hmiss]
  exact decide_eq_false (Nat.not_le.2 h.missing)

theorem State.undemanded.own (h : s.undemanded n g) : s.ctm.ownDemands (s.ctm.compared n g) false = [(s.ctm.arm n).raised] := by
  have hdisc : (s.ctm.compared n g).disc = 0 := by
    rw [Ctm.compared, h.procEntered]
    rfl
  have hbad : (s.ctm.compared n g).imgBad = false := h.img
  unfold Ctm.ownDemands
  rw [hdisc, hbad, h.clk, h.cellBad, h.wrst]
  rfl

theorem State.undemanded.hwDemand (h : s.undemanded n g) : s.ctm.hwDemand (s.ctm.compared n g) false = {} := by
  unfold Ctm.hwDemand
  rw [h.own]
  refine worst_of_zero fun d hd => ?_
  obtain rfl | hd := List.mem_cons.1 hd
  · exact h.view
  · rw [List.mem_singleton.1 hd, h.raised]

theorem State.undemanded.othersFor (h : s.undemanded n g) : s.ctm.othersFor (s.ctm.compared n g) false none = false := by
  have hview : (s.ctm.compared n g).view.others = false := h.others
  unfold Ctm.othersFor
  rw [h.own, hview]
  simp [h.raised]

/-- A stopped arm whose only demand was one of SSM that AUTORESUME covers, and that has been clear for RESUMECYC datums. -/
structure CtmArm.resumes (a : CtmArm) (i : ArmImg) : Prop where
  img : a.img = some i
  stopped : a.sst ≠ 0
  only : a.ssmOnly = true
  mode : a.amode = 3
  auto : i.auto = true
  clear : a.view.clear = true
  cyc : i.resumeCyc ≤ min 255 (a.clear + 1)

theorem CtmArm.resumes.of_hwOnly {a b : CtmArm} (h : a.resumes i) (k : a.hwOnly b) : b.resumes i :=
  { img := k.img.trans h.img, stopped := k.sst ▸ h.stopped, only := (congrArg CtmArm.ssmOnly k :).trans h.only,
    mode := (congrArg CtmArm.amode k :).trans h.mode, auto := h.auto, clear := (congrArg (fun x => x.view.clear) k :).trans h.clear,
    cyc := by rw [show b.clear = a.clear from (congrArg CtmArm.clear k :)]; exact h.cyc }

theorem decideArms_resumes (hn : n ∈ s.armList) (h : s.undemanded n g) (hr : (s.ctm.arm n).resumes i) :
    (s.decideArms.ctm.arm n).sst = 0 ∧ (s.decideArms.ctm.arm n).latch = false ∧ (s.decideArms.ctm.arm n).cause = 0 := by
  obtain ⟨u, hu, harm, hres⟩ := decideArms_arm hn
  rw [h.procLost, h.procEntered] at hres
  have hcomp : (s.ctm.arm n).compared g none = s.ctm.compared n g := by rw [Ctm.compared, h.procEntered]; rfl
  have hown : u.ctm.ownDemands (s.ctm.compared n g) false = s.ctm.ownDemands (s.ctm.compared n g) false := hu.ownDemands ..
  have hhw : u.ctm.hwDemand (s.ctm.compared n g) false = {} := (congrArg (fun l => worst (_ :: l)) hown).trans h.hwDemand
  have hothers : u.ctm.othersFor (s.ctm.compared n g) false none = false := by
    have := h.othersFor
    unfold Ctm.othersFor at *
    rwa [hown]
  have hdec := decideArm_eq (harm ▸ hr.img) (hu.cell.trans h.cell) false none
  dsimp only at hdec
  rw [harm, show procPart none n = none from rfl, hcomp, hhw, hothers] at hdec
  have hnote := noteArm_arm u n ((s.ctm.compared n g).hwDecide i {})
  have hcompared : (s.ctm.compared n g).resumes i := ⟨hr.img, hr.stopped, hr.only, hr.mode, hr.auto, hr.clear, hr.cyc⟩
  have hnoted := hcompared.of_hwOnly (hwDecide_hwOnly _ i {})
  rw [← hnote] at hnoted
  obtain ⟨a, ha, hsst, hlatch, hcause⟩ := armDecide_resumes hnoted.img (x := ({} : Demand).withProc (procLvl none)) rfl (decide (({} : Demand).lvl < procLvl none))
    hnoted.stopped hnoted.only hnoted.mode hnoted.auto hnoted.clear hnoted.cyc
  have hrelease := hwRelease_hwOnly ((u.noteArm n ((s.ctm.compared n g).hwDecide i {})).armDecide n (({} : Demand).withProc (procLvl none)) false
    (decide (({} : Demand).lvl < procLvl none))) n
  rw [← hdec, ha, Ctm.arm_setArm, if_pos rfl] at hrelease
  rw [hres]
  exact ⟨hrelease.sst.trans hsst, (congrArg CtmArm.latch hrelease :).trans hlatch, (congrArg CtmArm.cause hrelease :).trans hcause⟩

/-! ### The commands -/

theorem ssmAutoresume_releases (hup : s.ctmUp = true) (hn : n ∈ s.armList) (hd : s.ctm.decided = false) (hphase : 40000 * unitNs ≤ s.mer.phase)
    (h : s.undemanded n g) (hr : (s.ctm.arm n).resumes i) (hcyc : i.resumeCyc ≤ (s.ctm.arm n).clear + 1) :
    Answers (.ssmAutoresume (n + 1)) s fun t => (t.ctm.arm n).sst = 0 ∧ (t.ctm.arm n).latch = false ∧ (t.ctm.arm n).cause = 0 ∧
      t.ctm.decided = true ∧ s.spares t := by
  have hdue : s.autoDue n = true := by
    simp [State.autoDue, hr.stopped, hr.only, hr.mode, hr.clear, hr.img, hr.auto, hcyc]
  have hexec : exec (.ssmAutoresume (n + 1)) s = .next s.ctmDecide := by
    show execSsmAutoresume (n + 1) s = _
    rw [execSsmAutoresume, Nat.add_sub_cancel, hup, hd, hdue, runTo_of_le hphase]
    rfl
  obtain ⟨hsst, hlatch, hcause⟩ := decideArms_resumes hn h hr
  obtain ⟨c, hc, harm, -, hdec⟩ := ctmDecide_sampled hd
  refine ⟨_, hexec, ?_, ?_, ?_, ctmDecide_decided hd, (ctmDecide_contourOnly s).spares⟩
  · rw [hc.sst, harm, hsst]
  · rw [hc.latch, harm, hlatch]
  · rw [hc.cause, harm, hcause]

/-- A lost reference clock is reported, and every arm is put into STO. -/
theorem exec_clkFail (hup : s.ctmUp = true) (hclk : s.ctm.clkFail = false) :
    ∃ x : State, exec .clkFail s = .next (x.allSto 13) ∧ s.contourOnly x ∧ ({ s.ctm with clkFail := true, clkDev := 2 } : Ctm).told x.ctm := by
  refine ⟨(s.updCtm fun c => { c with clkFail := true, clkDev := 2 }).ctmDiag 7 0 0, ?_, (ctmDiag_contourOnly _ 7 0 0).after rfl, ctmDiag_told ..⟩
  show execClkFail s = _
  rw [execClkFail, if_neg (by rw [hup, hclk]; decide)]

/-- A lost reference clock stops every arm and switches every output off. -/
theorem clkFail_stops (hup : s.ctmUp = true) (hclk : s.ctm.clkFail = false) (himg : (s.ctm.arm n).img = some i) :
    Answers .clkFail s fun t => t.ctm.clkFail = true ∧ (n ∈ s.armList → (t.ctm.arm n).sst = 4) ∧
      (∀ k, k < 16 → (t.ctm.out k).cmd = false) ∧ s.spares t := by
  obtain ⟨x, hexec, hxs, hxt⟩ := exec_clkFail hup hclk
  have hclkx : x.ctm.clkFail = true := hxt.worked.clkFail
  refine ⟨_, hexec, (allSto_clkFail x 13).trans hclkx, fun hn => ?_, fun k hk => allSto_off hclkx 13 hk, (hxs.trans (allSto_contourOnly ..)).spares⟩
  exact allSto_sst (hxs.armList ▸ hn) (by rw [hxt.arm]; exact himg) 13

/-- A lockstep mismatch halts the processor channel, and what it has delivered stays. -/
theorem lockstep_halts (hup : s.ctmUp = true) (hw : s.ctm.wrst = false) (hhalt : s.ctm.halted = false) :
    Answers .lockstep s fun t => t.ctm.halted = true ∧ t.ctm.proc = s.ctm.proc ∧ t.ctm.procUsed = s.ctm.procUsed ∧ t.ctm.lastDiag = 15 ∧
      (∀ m, t.ctm.arm m = s.ctm.arm m) ∧ s.spares t := by
  set x := (s.updCtm fun c => { c with halted := true }).ctmDiag 15 0 0 with hx
  have hctm : x.ctm = Ctm.diagnosed { s.ctm with halted := true } 15 := ctmDiag_ctm (s.updCtm fun c => { c with halted := true }) 15 0 0
  have hexec : exec .lockstep s = .next x := by
    show execLockstep s = _
    rw [execLockstep, hup, hw, hhalt]
    rfl
  refine ⟨x, hexec, ?_⟩
  beta_reduce
  rw [hctm]
  exact ⟨rfl, rfl, rfl, rfl, fun _ => rfl, State.contourOnly.spares ((ctmDiag_contourOnly _ 15 0 0).after rfl)⟩

/-- Settles O25: the stop of TSS1, the release of AUTORESUME, the stop of a lost clock and the halt of lockstep, each from its own lemma. -/
theorem contourStops : Obligations.ContourStops := by
  unfold Obligations.ContourStops
  intro s n i hup himg
  refine ⟨fun hstop htime => tss1Expiry_stops hup himg hstop htime, ?_, fun hclk => clkFail_stops hup hclk himg, fun hw hhalt => lockstep_halts hup hw hhalt⟩
  intro g hn hcell hd hphase hstop honly hmode hauto hclear hmax hcyc hview hothers hproc hlost hmissing hclk hbad hcellBad hw hraised
  exact ssmAutoresume_releases hup hn hd hphase ⟨hcell, hview, hothers, hproc, hlost, hmissing, hclk, hbad, hcellBad, hw, hraised⟩
    ⟨himg, hstop, honly, hmode, hauto, hclear, le_min hmax hcyc⟩ hcyc

end Sys2Proof.Machine
end

section
/-! SUPPORT. One bit of a word written, and the pins, masks, pairs and outputs of a sample (R221–R224). -/

namespace Sys2Proof.Machine

variable {s t : State} {c d : Ctm} {i k : Nat}

/-! ### One bit of a word -/

theorem setFld_one_eq (v lo x : Nat) : setFld v lo 1 x = 2 ^ lo * (2 * (v / 2 ^ lo / 2) + x % 2) + v % 2 ^ lo := by
  have hv : v = 2 ^ lo * (2 * (v / 2 ^ lo / 2) + v / 2 ^ lo % 2) + v % 2 ^ lo := by rw [Nat.div_add_mod, Nat.div_add_mod]
  have hcut : v - fld v lo 1 * 2 ^ lo = 2 ^ lo * (2 * (v / 2 ^ lo / 2)) + v % 2 ^ lo := by
    refine Nat.sub_eq_of_eq_add ?_
    rw [fld, pow_one]
    conv_lhs => rw [hv]
    ring
  rw [setFld, hcut, pow_one]
  ring

theorem testBit_setFld_one (v lo x j : Nat) : (setFld v lo 1 x).testBit j = if j = lo then x % 2 == 1 else v.testBit j := by
  have hlow : v % 2 ^ lo < 2 ^ lo := Nat.mod_lt _ (Nat.two_pow_pos lo)
  have hv : v.testBit j = (2 ^ lo * (v / 2 ^ lo) + v % 2 ^ lo).testBit j := by rw [Nat.div_add_mod]
  rw [setFld_one_eq, hv, Nat.testBit_two_pow_mul_add _ hlow, Nat.testBit_two_pow_mul_add _ hlow]
  obtain h | rfl | h := lt_trichotomy j lo
  · rw [if_pos h, if_pos h, if_neg h.ne]
  · rw [if_neg (lt_irrefl j), if_pos rfl, Nat.sub_self, Nat.testBit_zero, beq_eq_decide]
    simp
  · obtain ⟨m, rfl⟩ : ∃ m, j = lo + (m + 1) := ⟨j - lo - 1, by omega⟩
    rw [if_neg (by omega), if_neg (by omega), if_neg (by omega), Nat.add_sub_cancel_left, Nat.testBit_succ, Nat.testBit_succ]
    congr 1
    omega

theorem bitN_setFld_one (v lo x : Nat) : bitN (setFld v lo 1 x) lo = (x % 2 == 1) := by
  rw [bitN_eq_testBit, testBit_setFld_one, if_pos rfl]

theorem b01_mod_two (b : Bool) : (b01 b % 2 == 1) = b := by cases b <;> rfl

theorem getLsbD_setPin (pins : BitVec 32) {n j : Nat} (hj : j < 32) (level : Bool) :
    (BitVec.ofNat 32 (setFld pins.toNat n 1 (b01 level))).getLsbD j = if j = n then level else pins.getLsbD j := by
  rw [BitVec.getLsbD_ofNat, testBit_setFld_one, b01_mod_two, decide_eq_true hj, Bool.true_and]
  rfl

/-! ### A sample of the safe inputs (R221) -/

theorem sample_sin (c : Ctm) (b : Nat) : c.sample.sin.getLsbD b = if c.pins.getLsbD b = c.sampV.getLsbD b then c.pins.getLsbD b else c.sin.getLsbD b := by
  show ((c.pins &&& c.sampV) ||| (c.sin &&& (c.pins ^^^ c.sampV))).getLsbD b = _
  rw [BitVec.getLsbD_or, BitVec.getLsbD_and, BitVec.getLsbD_and, BitVec.getLsbD_xor]
  cases c.pins.getLsbD b <;> cases c.sampV.getLsbD b <;> simp

/-! ### Test pulses (R222) -/

theorem tpsAt_nextPulse (k : Nat) (src : Bool) : tpsAt (nextPulse k src) = some src := by
  cases src
  · have h : nextPulse k false % 2000 = 0 := by
      show ((k + 1000 * 0) / 2000 * 2000 + 2000 - 1000 * 0) % 2000 = 0
      omega
    rw [tpsAt, if_pos h]
  · have h : nextPulse k true % 2000 = 1000 := by
      show ((k + 1000 * 1) / 2000 * 2000 + 2000 - 1000 * 1) % 2000 = 1000
      omega
    rw [tpsAt, h]
    rfl

/-- The mask that a pulse at sample `k` sets on an input that is high. -/
def Ctm.maskHigh (k : Nat) (c : Ctm) (i : Nat) : Ctm :=
  if c.sin.getLsbD i && (c.mask i).isNone then c.setMask i (some { at_ := k }) else c

@[simp] theorem maskHigh_sin (k : Nat) (c : Ctm) (i : Nat) : (c.maskHigh k i).sin = c.sin := by
  unfold Ctm.maskHigh
  split_ifs <;> rfl

theorem maskHigh_mask (k : Nat) (c : Ctm) (i j : Nat) :
    (c.maskHigh k i).mask j = if j = i ∧ c.sin.getLsbD j = true ∧ c.mask j = none then some { at_ := k } else c.mask j := by
  unfold Ctm.maskHigh
  obtain rfl | h := eq_or_ne j i
  · cases hm : c.mask j <;> cases c.sin.getLsbD j <;> simp [hm]
  · split_ifs <;> simp_all

/-- Inputs masked in turn: those of the list that are high and not masked yet. -/
theorem maskAll_mask (k : Nat) (l : List Nat) (c : Ctm) (j : Nat) :
    (l.foldl (Ctm.maskHigh k) c).mask j = if j ∈ l ∧ c.sin.getLsbD j = true ∧ c.mask j = none then some { at_ := k } else c.mask j := by
  induction l generalizing c with
  | nil => simp
  | cons i l ih =>
    rw [List.foldl_cons, ih, maskHigh_sin, maskHigh_mask]
    by_cases h : c.sin.getLsbD j = true ∧ c.mask j = none
    · obtain ⟨hsin, hmask⟩ := h
      by_cases hi : j = i
      · subst hi
        simp [hsin, hmask]
      · simp [hsin, hmask, hi]
    · have hl (p : Prop) : ¬ (p ∧ c.sin.getLsbD j = true ∧ c.mask j = none) := fun hp => h hp.2
      simp only [if_neg (hl _)]

/-- The inputs that a source feeds through pair `i`. -/
def Ctm.fedBy (c : Ctm) (src : Bool) (i : Nat) : List Nat := if (c.sinRec i).mode = 0 then [] else tpInputs (c.sinRec i) i src

theorem pulse_eq (c : Ctm) (k : Nat) (src : Bool) : c.pulse k src = ((List.range 8).flatMap (c.fedBy src)).foldl (Ctm.maskHigh k) c := rfl

theorem mem_tpInputs (r : SinRec) (i j : Nat) (src : Bool) : j ∈ tpInputs r i src ↔
    j / 2 = i ∧ (r.tp = 1 ∧ j % 2 = 0 ∧ src = false ∨ r.tp = 2 ∧ j % 2 = 0 ∧ src = true ∨ r.tp = 3 ∧ j % 2 = src.toNat) := by
  have heven : j = 2 * i ↔ j / 2 = i ∧ j % 2 = 0 := by omega
  have hodd : j = 2 * i + 1 ↔ j / 2 = i ∧ j % 2 = 1 := by omega
  unfold tpInputs
  split
  · simp [*]
  · simp [*]
  · simp [*]
  · simp [*]
  next src _ _ h1 h2 h3 h4 =>
    refine ⟨fun h => absurd h (List.not_mem_nil), ?_⟩
    rintro ⟨-, ⟨htp, -, hsrc⟩ | ⟨htp, -, hsrc⟩ | ⟨htp, -⟩⟩
    · exact (h1 htp hsrc).elim
    · exact (h2 htp hsrc).elim
    · cases src
      · exact (h3 htp rfl).elim
      · exact (h4 htp rfl).elim

/-- A pulse masks exactly the high inputs that its source feeds. -/
theorem pulse_mask (c : Ctm) (k : Nat) (src : Bool) {i : Nat} (hi : i < 16) :
    let r := c.sinRec (i / 2)
    let fed := r.mode ≠ 0 ∧ (r.tp = 1 ∧ i % 2 = 0 ∧ src = false ∨ r.tp = 2 ∧ i % 2 = 0 ∧ src = true ∨ r.tp = 3 ∧ i % 2 = src.toNat)
    (c.pulse k src).mask i = if fed ∧ c.sin.getLsbD i = true ∧ c.mask i = none then some { at_ := k } else c.mask i := by
  intro r fed
  have hmem : i ∈ (List.range 8).flatMap (c.fedBy src) ↔ fed := by
    constructor
    · intro h
      obtain ⟨p, -, hp⟩ := List.mem_flatMap.1 h
      unfold Ctm.fedBy at hp
      split_ifs at hp with hmode
      · exact absurd hp List.not_mem_nil
      · obtain ⟨rfl, htp⟩ := (mem_tpInputs ..).1 hp
        exact ⟨hmode, htp⟩
    · rintro ⟨hmode, htp⟩
      refine List.mem_flatMap.2 ⟨i / 2, List.mem_range.2 (by omega), ?_⟩
      rw [Ctm.fedBy, if_neg hmode]
      exact (mem_tpInputs ..).2 ⟨rfl, htp⟩
  rw [pulse_eq, maskAll_mask]
  exact if_congr (and_congr_left' hmem) rfl rfl

/-- A pair whose test failed. -/
def Ctm.testFailed (c : Ctm) (i : Nat) : Ctm := (c.setMask i none).setPair (i / 2) { c.pair (i / 2) with test := true, both := false }

theorem maskTick_eq {m : TpMask} (hm : c.mask i = some m) (hk : m.at_ + 60 ≤ k) : c.maskTick k i =
    if (m.see k (c.pins.getLsbD i)).low && (m.see k (c.pins.getLsbD i)).back then c.setMask i none
    else if (c.pair (i / 2)).test then c.testFailed i else (c.testFailed i).note 9 (i / 2) := by
  unfold Ctm.maskTick
  simp only [hm]
  exact if_neg (Nat.not_lt.2 hk)

theorem testFailed_mask (c : Ctm) (i : Nat) : (c.testFailed i).mask i = none := by
  have h : (c.setMask i none).mask i = none := (Ctm.mask_setMask ..).trans (if_pos rfl)
  exact h

theorem testFailed_test (c : Ctm) (i : Nat) : ((c.testFailed i).pair (i / 2)).test = true := by
  rw [Ctm.testFailed, Ctm.pair_setPair, if_pos rfl]

/-- The end of a mask: without the pulse seen, or with the input still low, its pair has failed its test. -/
theorem maskTick_end {m : TpMask} (hm : c.mask i = some m) (hk : m.at_ + 60 ≤ k) :
    let seen := m.see k (c.pins.getLsbD i)
    (c.maskTick k i).mask i = none ∧ ((seen.low = false ∨ seen.back = false) → ((c.maskTick k i).pair (i / 2)).test = true ∧
      ((c.pair (i / 2)).test = false → (c.maskTick k i).found = c.found ++ [(9, 0, i / 2)])) := by
  intro seen
  rw [maskTick_eq hm hk]
  split_ifs with hgood htest
  · refine ⟨(Ctm.mask_setMask ..).trans (if_pos rfl), fun h => ?_⟩
    rw [Bool.and_eq_true] at hgood
    rcases h with h | h
    · exact absurd (hgood.1.symm.trans h) (by decide)
    · exact absurd (hgood.2.symm.trans h) (by decide)
  · exact ⟨testFailed_mask c i, fun _ => ⟨testFailed_test c i, fun h => absurd (htest.symm.trans h) (by decide)⟩⟩
  · exact ⟨testFailed_mask c i, fun _ => ⟨testFailed_test c i, fun _ => rfl⟩⟩

/-! ### Disagreeing inputs (R221) -/

theorem cell_isSome_of_mode (h : (c.sinRec i).mode ≠ 0) : c.cell.isNone = false := by
  cases hc : c.cell with
  | none => exact absurd (by rw [Ctm.sinRec, hc]; rfl) h
  | some g => rfl

/-- A pair whose inputs have disagreed too long. -/
def Ctm.discFound (c : Ctm) (i t : Nat) : Ctm := (c.setPair i { c.pair i with since := some t, disc := true, both := false }).note 8 i

theorem pairTick_late {t : Nat} (hmode : (c.sinRec i).mode ≠ 0) (hshow : c.shows i false ≠ c.shows i true) (hdisc : (c.pair i).disc = false)
    (hsince : (c.pair i).since = some t) (hlate : t + 100 * (c.sinRec i).disc < k) : c.pairTick k i = c.discFound i t := by
  unfold Ctm.pairTick
  extract_lets p r t'
  have ht : t' = t := by
    unfold t' p
    rw [hsince]
    rfl
  rw [if_pos (by simpa [r] using ⟨hmode, hshow⟩), ht, if_pos (by simpa [p, r, hdisc] using hlate)]
  rfl

theorem pairTick_first (hmode : (c.sinRec i).mode ≠ 0) (hshow : c.shows i false ≠ c.shows i true) (hsince : (c.pair i).since = none) :
    ((c.pairTick k i).pair i).since = some k := by
  unfold Ctm.pairTick
  extract_lets p r t'
  have ht : t' = k := by
    unfold t' p
    rw [hsince]
    rfl
  have hnot : ¬ (!p.disc && decide (t' + 100 * r.disc < k)) = true := by
    rw [ht]
    simp
  rw [if_pos (by simpa [r] using ⟨hmode, hshow⟩), if_neg hnot, Ctm.pair_setPair, if_pos rfl, ht]

/-- A pair that shows a fault is in demand at the snapshot. -/
theorem snapPair_demand (hmode : (c.sinRec i).mode ≠ 0) (hshow : c.shows i false ≠ c.shows i true) (hdisc : (c.pair i).disc = true)
    (hboth : (c.pair i).both = false) : ((c.snapPair i).pair i).demand = true := by
  unfold Ctm.snapPair
  extract_lets p a b both clr disc test demand
  rw [if_neg (by rw [cell_isSome_of_mode hmode]; decide), if_neg hmode, Ctm.pair_setPair, if_pos rfl]
  have hclr : clr = false := by
    have hab (x y : Bool) (h : x ≠ y) : (x && y) = false := by cases x <;> cases y <;> simp_all
    unfold clr both
    rw [show p.both = false from hboth, hab a b hshow]
    rfl
  show (a || b || disc || test) = true
  unfold disc
  rw [hclr, show p.disc = true from hdisc]
  simp

/-- The sample at which a disagreement has lasted longer than DISC finds the pair, which is in demand at the next snapshot. -/
theorem pairTick_disagreeing (hmode : (c.sinRec i).mode ≠ 0) (hshow : c.shows i false ≠ c.shows i true) (hdisc : (c.pair i).disc = false) :
    (∀ t, (c.pair i).since = some t → t + 100 * (c.sinRec i).disc < k →
      (c.pairTick k i).pair i = { c.pair i with disc := true, both := false } ∧ (c.pairTick k i).found = c.found ++ [(8, 0, i)] ∧
      (((c.pairTick k i).snapPair i).pair i).demand = true) ∧
    ((c.pair i).since = none → ((c.pairTick k i).pair i).since = some k) := by
  refine ⟨fun t hsince hlate => ?_, pairTick_first hmode hshow⟩
  rw [pairTick_late hmode hshow hdisc hsince hlate]
  have hpair : (c.discFound i t).pair i = { c.pair i with since := some t, disc := true, both := false } := (Ctm.pair_setPair ..).trans (if_pos rfl)
  refine ⟨hpair.trans (congrArg (fun x => { c.pair i with since := x, disc := true, both := false }) hsince.symm), rfl, snapPair_demand hmode hshow ?_ ?_⟩
  · rw [hpair]
  · rw [hpair]

/-! ### Dark tests and switched outputs (R223, R224) -/

theorem outTick_starts {arms : List Nat} {dev : Option Nat} {now j : Nat} (hdark : (c.out j).dark = none) (hdue : (c.soutRec (j / 2)).due j k = true)
    (hcmd : (c.out j).cmd = true) (hlong : (c.out j).since + 1000000 ≤ now) :
    (c.outTick arms dev k now j).out j = { c.out j with dark := some (k, dev != some j), stuck := none } := by
  unfold Ctm.outTick
  simp only [hdark, hdue, hcmd]
  rw [if_neg (by decide), if_neg (Nat.not_lt.2 hlong), Ctm.out_setOut, if_pos rfl]

theorem outTick_skips {arms : List Nat} {dev : Option Nat} {now j : Nat} (hdue : (c.soutRec (j / 2)).due j k = true) (hdark : (c.out j).dark = none)
    (hcmd : (c.out j).cmd = true) (hshort : now < (c.out j).since + 1000000) :
    (c.outTick arms dev k now j).out j = { c.out j with skips := (c.out j).skips + 1, warn := (c.out j).warn || decide (8 < (c.out j).skips + 1) } := by
  have hskip : c.outTick arms dev k now j = c.skipTest j := by
    unfold Ctm.outTick
    simp only [hdark]
    rw [if_neg (by simp [hdue, hcmd]), if_pos hshort]
  rw [hskip, Ctm.skipTest_out, if_pos rfl, ← hdark]

theorem outTick_passes {arms : List Nat} {dev : Option Nat} {now j t : Nat} (hdark : (c.out j).dark = some (t, true))
    (hend : t * 10 + (c.soutRec (j / 2)).twid ≤ k * 10) :
    (c.outTick arms dev k now j).out j = { c.out j with dark := none, skips := 0, warn := false } := by
  unfold Ctm.outTick
  simp only [hdark]
  rw [if_neg (by simp), if_pos hend, Ctm.out_setOut, if_pos rfl]

theorem outTick_fails {arms : List Nat} {dev : Option Nat} {now j t : Nat} (hdark : (c.out j).dark = some (t, false)) (hlate : t + 15 < k) :
    c.outTick arms dev k now j = c.failPair arms now (j / 2) := by
  unfold Ctm.outTick
  simp only [hdark]
  rw [if_pos (by simpa using hlate)]

@[simp] theorem skipTest_outFail (c : Ctm) (k : Nat) : (c.skipTest k).outFail = c.outFail := by
  unfold Ctm.skipTest
  dsimp only
  split <;> rfl

theorem driveOne_outFail (c : Ctm) (now k : Nat) (on : Bool) : (c.driveOne now k on).outFail = c.outFail := by
  unfold Ctm.driveOne
  split_ifs
  · rfl
  · exact skipTest_outFail ..
  · rfl

theorem drive_outFail (c : Ctm) (now i : Nat) (on : Bool) : (c.drive now i on).outFail = c.outFail := by
  rw [Ctm.drive_eq, driveOne_outFail, driveOne_outFail]

/-- A switch-off in a dark test skips the test. -/
theorem driveOne_skips {now j t : Nat} {f : Bool} (hdark : (c.out j).dark = some (t, f)) (hcmd : (c.out j).cmd = true) :
    ((c.driveOne now j false).out j).skips = (c.out j).skips + 1 := by
  unfold Ctm.driveOne
  rw [if_neg (by rw [hcmd]; decide), if_pos (by rw [hdark]; rfl), Ctm.out_setOut, if_pos rfl, Ctm.skipTest_out, if_pos rfl]

theorem drive_skips {now j t : Nat} {f : Bool} (hdark : (c.out j).dark = some (t, f)) (hcmd : (c.out j).cmd = true) :
    ((c.drive now (j / 2) false).out j).skips = (c.out j).skips + 1 := by
  rw [Ctm.drive_eq]
  obtain h | h : j = 2 * (j / 2) ∨ j = 2 * (j / 2) + 1 := by omega
  · rw [Ctm.driveOne_other _ _ _ (by omega), ← h, driveOne_skips hdark hcmd]
  · have hother : (c.driveOne now (2 * (j / 2)) false).out j = c.out j := Ctm.driveOne_other _ _ _ (by omega)
    rw [← h, driveOne_skips (hother ▸ hdark) (hother ▸ hcmd), hother]

/-! ### A pair of outputs that failed (R223) -/

/-- STO raised for arms. -/
def Ctm.raiseAll (c : Ctm) (x : Demand) (l : List Nat) : Ctm := l.foldl (fun c n => c.setArm n { c.arm n with raised := x }) c

theorem raiseAll_keeps (c : Ctm) (x : Demand) (l : List Nat) :
    (c.raiseAll x l).outFail = c.outFail ∧ (∀ k, (c.raiseAll x l).out k = c.out k) ∧ (c.raiseAll x l).found = c.found := by
  unfold Ctm.raiseAll
  induction l generalizing c with
  | nil => exact ⟨rfl, fun _ => rfl, rfl⟩
  | cons n l ih => exact ih _

theorem raiseAll_raised (x : Demand) (l : List Nat) (c : Ctm) {n : Nat} (hn : n ∈ l ∨ (c.arm n).raised = x) : ((c.raiseAll x l).arm n).raised = x := by
  unfold Ctm.raiseAll
  induction l generalizing c with
  | nil => simpa using hn
  | cons m l ih =>
    refine ih _ ?_
    rw [Ctm.arm_setArm]
    split_ifs with h
    · exact .inr rfl
    · simpa [h] using hn

/-- Both outputs of a pair switched off, its failure noted. -/
def Ctm.failedOff (c : Ctm) (now i : Nat) : Ctm := ({ c with outFail := setFld c.outFail i 1 1 } : Ctm).drive now i false

theorem failPair_eq (c : Ctm) (arms : List Nat) (now i : Nat) : c.failPair arms now i =
    ((c.failedOff now i).raiseAll ⟨3, 16⟩ (arms.filter fun n => bitN ((c.failedOff now i).soutRec i).arms n)).note 10 i := rfl

theorem failedOff_worked (c : Ctm) (now i : Nat) : c.worked (c.failedOff now i) := by
  have h : c.worked { c with outFail := setFld c.outFail i 1 1 } := ⟨⟨rfl, fun _ => rfl⟩, rfl⟩
  exact h.trans (Ctm.drive_worked ..)

theorem failPair_outFail (c : Ctm) (arms : List Nat) (now i : Nat) : bitN (c.failPair arms now i).outFail i = true := by
  have h : (c.failPair arms now i).outFail = setFld c.outFail i 1 1 := (raiseAll_keeps ..).1.trans (drive_outFail ..)
  rw [h, bitN_setFld_one]
  rfl

theorem failPair_cmd (c : Ctm) (arms : List Nat) (now i : Nat) {k : Nat} (hk : k / 2 = i) : ((c.failPair arms now i).out k).cmd = false := by
  have h : (c.failPair arms now i).out k = (c.failedOff now i).out k := (raiseAll_keeps ..).2.1 k
  rw [h, Ctm.failedOff, Ctm.drive_cmd, if_pos hk]

theorem failPair_found (c : Ctm) (arms : List Nat) (now i : Nat) : ∃ l, (c.failPair arms now i).found = l ++ [(10, 0, i)] := ⟨_, rfl⟩

theorem failPair_raised (c : Ctm) (now : Nat) {arms : List Nat} {i n : Nat} (hn : n ∈ arms) (hb : bitN (c.soutRec i).arms n = true) :
    ((c.failPair arms now i).arm n).raised = ⟨3, 16⟩ := by
  have hrec := (failedOff_worked c now i).soutRec i
  have hmem : n ∈ arms.filter fun n => bitN ((c.failedOff now i).soutRec i).arms n := List.mem_filter.2 ⟨hn, by rw [hrec]; exact hb⟩
  rw [failPair_eq]
  exact raiseAll_raised _ _ _ (.inl hmem)

end Sys2Proof.Machine
end

section
/-! SUPPORT. The commands of the safe inputs and outputs, which run the block to the sample at which they fall due (R221–R224). -/

namespace Sys2Proof.Machine

variable {s : State}

/-! ### The run to a sample -/

theorem ceilDiv_four_bounds (a : Nat) : a ≤ 4 * ceilDiv a 4 ∧ 4 * ceilDiv a 4 < a + 4 := by
  unfold ceilDiv
  omega

theorem advance_sampNow {k : Nat} (h : s.sampNow < k) : (s.advance (ceilDiv (k * 10000 - s.ctm.off - s.upNs) 4)).sampNow = k := by
  have hup : (s.advance (ceilDiv (k * 10000 - s.ctm.off - s.upNs) 4)).upNs = s.upNs + 4 * ceilDiv (k * 10000 - s.ctm.off - s.upNs) 4 := by
    show (s.mer.clocks + _) * 4 = s.mer.clocks * 4 + _
    ring
  have hdiv : (s.upNs + s.ctm.off) / 10000 < k := h
  obtain ⟨hle, hlt⟩ := ceilDiv_four_bounds (k * 10000 - s.ctm.off - s.upNs)
  rw [State.sampNow, hup, State.advance_ctm]
  omega

theorem ctmSettle_samp (s : State) (dev : Option Nat) : (s.ctmSettle dev).ctm.samp = s.ctm.samp + (s.sampNow - s.ctm.samp) := by
  have h := (ctmReport_worked (s.updCtm fun c => Ctm.ticks s.armList dev (s.sampNow - c.samp) c)).samp
  exact h.trans (Ctm.ticks_sampled ..).2

theorem runSample_reaches (hc : s.caughtUp) {k : Nat} (hk : s.reaches k) (dev : Option Nat) :
    (s.runSample k dev).ctm.samp = k ∧ s.spares (s.runSample k dev) := by
  set n := ceilDiv (k * 10000 - s.ctm.off - s.upNs) 4 with hn
  have hrun : s.runSample k dev = (s.advance n).ctmSettle dev := by
    unfold State.runSample
    rw [ctmSettle_of_caughtUp hc]
    exact if_pos hk
  have hnow : (s.advance n).sampNow = k := advance_sampNow hk.1
  have hsamp : (s.advance n).ctm.samp = s.sampNow := by rw [State.advance_ctm, hc.1]
  rw [hrun]
  refine ⟨?_, (ctmSettle_contourOnly (s.advance n) dev).spares⟩
  rw [ctmSettle_samp, hnow, hsamp]
  have := hk.1
  omega

/-! ### The commands -/

section
variable (hup : s.ctmUp = true) (hc : s.caughtUp)
include hup hc

theorem safeInputChange_sets (n : Fin 16) (level : Bool) : Answers (.safeInputChange n level) s fun t => t.ctm.pins.getLsbD n.val = level ∧
    (∀ k, k < 16 → k ≠ n.val → t.ctm.pins.getLsbD k = s.ctm.pins.getLsbD k) ∧ { t with ctm := { t.ctm with pins := s.ctm.pins } } = s := by
  have hexec : exec (.safeInputChange n level) s =
      .next (s.updCtm fun c => { c with pins := BitVec.ofNat 32 (setFld c.pins.toNat n.val 1 (b01 level)) }) := by
    show execSafeInputChange n level s = _
    rw [execSafeInputChange, if_pos hup, ctmSettle_of_caughtUp hc]
  refine ⟨_, hexec, ?_, fun k hk hkn => ?_, rfl⟩
  · exact (getLsbD_setPin _ (by omega) level).trans (if_pos rfl)
  · exact (getLsbD_setPin _ (by omega) level).trans (if_neg hkn)

theorem inDisc_runs (pair : Fin 8) {k : Nat} (hk : (s.ctm.pair pair.val).since = some k) (hr : s.reaches (k + 100 * (s.ctm.sinRec pair.val).disc + 1)) :
    Answers (.inDisc pair) s fun t => t.ctm.samp = k + 100 * (s.ctm.sinRec pair.val).disc + 1 ∧ s.spares t := by
  have hexec : exec (.inDisc pair) s = .next (s.runSample (k + 100 * (s.ctm.sinRec pair.val).disc + 1)) := by
    show execInDisc pair s = _
    rw [execInDisc, if_neg (by rw [hup]; decide), ctmSettle_of_caughtUp hc]
    simp only [hk]
  exact ⟨_, hexec, runSample_reaches hc hr none⟩

theorem testPulse_runs (src : Bool) (hr : s.reaches (nextPulse s.sampNow src)) :
    Answers (.testPulse src) s fun t => t.ctm.samp = nextPulse s.sampNow src ∧ s.spares t :=
  ⟨_, congrArg Host.Outcome.next (if_pos hup), runSample_reaches hc hr none⟩

theorem inTest_runs (pair : Fin 8) {m : TpMask} (hm : s.ctm.mask (2 * pair.val) = some m) (hr : s.reaches (m.at_ + 60)) :
    Answers (.inTest pair) s fun t => t.ctm.samp = m.at_ + 60 ∧ s.spares t := by
  have hexec : exec (.inTest pair) s = .next (s.runSample (m.at_ + 60)) := by
    show execInTest pair s = _
    rw [execInTest, if_neg (by rw [hup]; decide), ctmSettle_of_caughtUp hc]
    simp only [hm, Option.orElse_some]
  exact ⟨_, hexec, runSample_reaches hc hr none⟩

theorem outputTestPulse_runs (k : Fin 16) (f : Bool) (hsrc : (s.ctm.soutRec (k.val / 2)).src ≠ 0) (hper : (s.ctm.soutRec (k.val / 2)).tper ≠ 0)
    (hr : s.reaches ((s.ctm.soutRec (k.val / 2)).next k.val s.sampNow)) :
    Answers (.outputTestPulse k f) s fun t => t.ctm.samp = (s.ctm.soutRec (k.val / 2)).next k.val s.sampNow ∧ s.spares t := by
  refine ⟨_, congrArg Host.Outcome.next (if_neg ?_), runSample_reaches hc hr _⟩
  simp [hup, hsrc, hper]

omit hc hup in
theorem outputTestPulse_unused (k : Fin 16) (f : Bool) (h : (s.ctm.soutRec (k.val / 2)).src = 0 ∨ (s.ctm.soutRec (k.val / 2)).tper = 0) :
    Answers (.outputTestPulse k f) s fun t => t = s := by
  refine ⟨s, congrArg Host.Outcome.next (if_pos ?_), rfl⟩
  rcases h with h | h <;> simp [h]

theorem outFail_matching (o : OutReadback) (h : s.ctm.mismatch o.pair.val o.srb s.upNs = false) : Answers (.outFail o) s fun t => t = s := by
  have hexec : exec (.outFail o) s = .next s := by
    show execOutFail o s = _
    rw [execOutFail, if_neg (by rw [hup]; decide), ctmSettle_of_caughtUp hc]
    exact congrArg Host.Outcome.next (if_neg (by simp [h]))
  exact ⟨s, hexec, rfl⟩

end

/-- The readback levels that a mismatch showed, kept for both outputs of the pair. -/
def Ctm.stuckAt (c : Ctm) (o : OutReadback) : Ctm :=
  (List.range 2).foldl (fun c k => c.setOut (2 * o.pair.val + k) { c.out (2 * o.pair.val + k) with stuck := some (o.srb.getLsbD k) }) c

theorem setStuck_cmd (c : Ctm) (j : Nat) (b : Option Bool) (k : Nat) : ((c.setOut j { c.out j with stuck := b }).out k).cmd = (c.out k).cmd := by
  rw [Ctm.out_setOut]
  split_ifs with h
  · rw [h]
  · rfl

theorem stuckAt_cmd (c : Ctm) (o : OutReadback) (k : Nat) : ((c.stuckAt o).out k).cmd = (c.out k).cmd := by
  have h : c.stuckAt o = (c.setOut (2 * o.pair.val + 0) { c.out (2 * o.pair.val + 0) with stuck := some (o.srb.getLsbD 0) }).setOut (2 * o.pair.val + 1)
      { (c.setOut (2 * o.pair.val + 0) { c.out (2 * o.pair.val + 0) with stuck := some (o.srb.getLsbD 0) }).out (2 * o.pair.val + 1) with
        stuck := some (o.srb.getLsbD 1) } := rfl
  rw [h, setStuck_cmd, setStuck_cmd]

@[simp] theorem stuckAt_outFail (c : Ctm) (o : OutReadback) : (c.stuckAt o).outFail = c.outFail := rfl

@[simp] theorem stuckAt_found (c : Ctm) (o : OutReadback) : (c.stuckAt o).found = c.found := rfl

@[simp] theorem stuckAt_arm (c : Ctm) (o : OutReadback) (n : Nat) : (c.stuckAt o).arm n = c.arm n := rfl

theorem Ctm.told.outFail {c d : Ctm} (h : c.told d) : d.outFail = c.outFail := (congrArg Ctm.outFail h :)

@[simp] theorem Ctm.reported_outFail (c : Ctm) : c.reported.outFail = c.outFail := rfl

@[simp] theorem Ctm.reported_arm (c : Ctm) (n : Nat) : c.reported.arm n = c.arm n := rfl

theorem reportFound_append (l : List (Nat × Nat × Nat)) (x : Nat × Nat × Nat) (s : State) :
    reportFound (l ++ [x]) s = (reportFound l s).ctmDiag x.1 x.2.1 x.2.2 := by
  induction l generalizing s with
  | nil => rfl
  | cons y l ih => exact ih _

theorem exec_outFail (hup : s.ctmUp = true) (hc : s.caughtUp) {o : OutReadback} (hsrc : (s.ctm.soutRec o.pair.val).src ≠ 0)
    (hfail : bitN s.ctm.outFail o.pair.val = false) (hmis : s.ctm.mismatch o.pair.val o.srb s.upNs = true) :
    exec (.outFail o) s = .next (s.updCtm fun c => (c.failPair s.armList s.upNs o.pair.val).stuckAt o).ctmReport := by
  show execOutFail o s = _
  rw [execOutFail, if_neg (by rw [hup]; decide), ctmSettle_of_caughtUp hc]
  exact congrArg Host.Outcome.next (if_pos (by simp [hsrc, hfail, hmis]))

/-- A mismatch on a pair in use switches both its outputs off and raises STO of its arms. -/
theorem outFail_fails (hup : s.ctmUp = true) (hc : s.caughtUp) {o : OutReadback} (hsrc : (s.ctm.soutRec o.pair.val).src ≠ 0)
    (hfail : bitN s.ctm.outFail o.pair.val = false) (hmis : s.ctm.mismatch o.pair.val o.srb s.upNs = true) :
    Answers (.outFail o) s fun t => bitN t.ctm.outFail o.pair.val = true ∧ (t.ctm.out (2 * o.pair.val)).cmd = false ∧
      (t.ctm.out (2 * o.pair.val + 1)).cmd = false ∧ t.ctm.lastDiag = 10 ∧
      (∀ n, n ∈ s.armList → bitN (s.ctm.soutRec o.pair.val).arms n = true → (t.ctm.arm n).raised = ⟨3, 16⟩) ∧ s.spares t := by
  refine ⟨_, exec_outFail hup hc hsrc hfail hmis, ?_⟩
  set i := o.pair.val
  set x := s.ctm.failPair s.armList s.upNs i with hx
  set u := s.updCtm fun c => (c.failPair s.armList s.upNs i).stuckAt o with hu
  have hux : u.ctm = x.stuckAt o := rfl
  have htold := ctmReport_told u
  have hcmd {k : Nat} (hk : k / 2 = i) : (u.ctmReport.ctm.out k).cmd = false := by
    rw [htold.out, Ctm.reported_out, hux, stuckAt_cmd, failPair_cmd _ _ _ _ hk]
  have hspares : s.contourOnly u.ctmReport := (updCtm_contourOnly s _).trans (ctmReport_contourOnly u)
  refine ⟨?_, hcmd (by omega), hcmd (by omega), ?_, fun n hn hb => ?_, hspares.spares⟩
  · rw [htold.outFail, Ctm.reported_outFail, hux, stuckAt_outFail, failPair_outFail]
  · obtain ⟨l, hl⟩ := failPair_found s.ctm s.armList s.upNs i
    have hfound : u.ctm.found = l ++ [(10, 0, i)] := by rw [hux, stuckAt_found, hl]
    rw [State.ctmReport, hfound]
    exact (congrArg (fun v : State => v.ctm.lastDiag) (reportFound_append ..)).trans (ctmDiag_lastDiag ..)
  · rw [htold.arm, Ctm.reported_arm, hux, stuckAt_arm, failPair_raised _ _ hn hb]

/-- Settles O26: what each command does from the run to its sample, and what the sample does from the lemmas about pins, masks, pairs and
outputs. -/
theorem contourInputsAndOutputs : Obligations.ContourInputsAndOutputs := by
  unfold Obligations.ContourInputsAndOutputs
  refine ⟨fun s n pair level src f o k hup hc => ?_, fun c k i src => ?_, fun c arms dev k now j hj => ?_⟩
  · exact ⟨safeInputChange_sets hup hc n level, fun k hk hr => inDisc_runs hup hc pair hk hr, fun hr => testPulse_runs hup hc src hr,
      fun m hm hr => inTest_runs hup hc pair hm hr, fun hsrc hfail hmis => outFail_fails hup hc hsrc hfail hmis, fun h => outFail_matching hup hc o h,
      fun hsrc hper hr => outputTestPulse_runs hup hc k f hsrc hper hr, fun h => outputTestPulse_unused k f h⟩
  · exact ⟨sample_sin c, rfl, tpsAt_nextPulse k src, fun _ hmode hshow hdisc => pairTick_disagreeing hmode hshow hdisc, fun hi => pulse_mask c k src hi,
      fun m _ hm hk => maskTick_end hm hk⟩
  · refine ⟨fun hdark hdue hcmd hlong => outTick_starts hdark hdue hcmd hlong, fun hdue hdark hcmd hshort => outTick_skips hdue hdark hcmd hshort,
      fun t f hdark hcmd => ⟨fun hf hend => outTick_passes (hf ▸ hdark) hend, fun hf hlate => ?_, ?_⟩⟩
    · rw [outTick_fails (hf ▸ hdark) hlate]
      exact ⟨failPair_outFail .., failPair_cmd _ _ _ _ rfl⟩
    · exact ⟨by rw [Ctm.drive_cmd, if_pos rfl], drive_skips hdark hcmd⟩

end Sys2Proof.Machine
end

section
/-! SUPPORT. What the Cartouche's operations may write: their own channel, the legal store, and what events, reports and free values write
beside them (R231–R255). -/

namespace Sys2Proof.Machine

variable {s t u : State} {c : Nat} {x y : CrtCh}

/-! ### The Cartouche alone -/

/-- `t` is `s` but for the Cartouche and what its events, reports and free values write. -/
def State.crtOnly (s t : State) : Prop :=
  { t with regs := s.regs, memDie := s.memDie, fb := s.fb, wdx := s.wdx, crt := s.crt, freeCtr := s.freeCtr } = s

theorem State.crtOnly.refl (s : State) : s.crtOnly s := rfl

theorem State.crtOnly.trans (h : s.crtOnly t) (k : t.crtOnly u) : s.crtOnly u := by
  unfold State.crtOnly at *
  rw [← h]; rw [← k]

/-- The same, the second part given first. -/
theorem State.crtOnly.after (k : t.crtOnly u) (h : s.crtOnly t) : s.crtOnly u := h.trans k

theorem State.sameBut.crtOnly (h : s.sameBut t) : s.crtOnly t := by
  have k := congrArg (fun x : State => { x with crt := s.crt, freeCtr := s.freeCtr }) h
  exact k

theorem State.sameBut.crt (h : s.sameBut t) : t.crt = s.crt := by
  have k := congrArg State.crt h
  exact k

theorem State.crtOnly.spares (h : s.crtOnly t) : s.spares t := by
  have hmem := congrArg State.mem h
  have hcores := congrArg State.cores h
  exact ⟨fun a => congrArg (fun m => Table.get memDefault m a) hmem, fun c => by rw [State.core, State.core]; exact congrArg (fun x => Table.get _ x _) hcores⟩

theorem State.crtOnly.sys (h : s.crtOnly t) : t.sys = s.sys := by
  have k := congrArg State.sys h
  exact k

theorem State.crtOnly.mer (h : s.crtOnly t) : t.mer = s.mer := by
  have k := congrArg State.mer h
  exact k

theorem State.crtOnly.sfy (h : s.crtOnly t) : t.sfy = s.sfy := by
  have k := congrArg State.sfy h
  exact k

theorem State.crtOnly.upNs (h : s.crtOnly t) : t.upNs = s.upNs := by rw [State.upNs, h.mer, State.upNs]

theorem updCrt_crtOnly (s : State) (f : Crt → Crt) : s.crtOnly (s.updCrt f) := rfl

theorem updStore_crtOnly (s : State) (f : CrtStore → CrtStore) : s.crtOnly (s.updStore f) := rfl

/-- A firing of a coalescing event register writes the dispatcher and the Field Book alone. -/
theorem fireMasked_same (s : State) (r c word : Nat) : s.sameBut (s.fireMasked r c word) := ite_same (fireCoal_same ..) rfl

@[simp] theorem State.fireMasked_crt (r c word : Nat) : (s.fireMasked r c word).crt = s.crt := (fireMasked_same ..).crt

/-! ### One channel -/

/-- `t` is `s` but that the channel `c` is `x`, and for EXC_CHOP and what events, reports and free values write. -/
structure State.setsCh (s t : State) (c : Nat) (x : CrtCh) : Prop where
  ch : t.crtCh c = x
  others : ∀ k, k ≠ c → t.crtCh k = s.crtCh k
  rest : { t with regs := s.regs, memDie := s.memDie, fb := s.fb, wdx := s.wdx, freeCtr := s.freeCtr,
                  crt := { t.crt with chs := s.crt.chs, exc := s.crt.exc } } = s

theorem State.setsCh.trans (h : s.setsCh t c x) (k : t.setsCh u c y) : s.setsCh u c y where
  ch := k.ch
  others d hd := (k.others d hd).trans (h.others d hd)
  rest := by
    have hs := h.rest
    rw [← k.rest] at hs
    exact hs

/-- The Cartouche but for its channels and EXC_CHOP. -/
theorem State.setsCh.crt (h : s.setsCh t c x) : { t.crt with chs := s.crt.chs, exc := s.crt.exc } = s.crt := by
  have k := congrArg State.crt h.rest
  exact k

theorem State.setsCh.crtOnly (h : s.setsCh t c x) : s.crtOnly t := by
  have k := congrArg (fun v : State => { v with crt := s.crt }) h.rest
  exact k

theorem State.setsCh.store (h : s.setsCh t c x) : t.crt.store = s.crt.store := by
  have k := congrArg Crt.store h.crt
  exact k

theorem State.setsCh.cmd (h : s.setsCh t c x) : t.crt.cmd = s.crt.cmd := by
  have k := congrArg Crt.cmd h.crt
  exact k

theorem State.setsCh.cmdSt (h : s.setsCh t c x) : t.crt.cmdSt = s.crt.cmdSt := by
  have k := congrArg Crt.cmdSt h.crt
  exact k

theorem crtCh_eq_of_crt (h : t.crt = s.crt) (k : Nat) : t.crtCh k = s.crtCh k := by rw [State.crtCh, h, State.crtCh]

/-- What writes neither the Cartouche nor more than events, reports and free values leaves every channel as it is. -/
theorem State.crtOnly.setsCh (h : s.crtOnly t) (hcrt : t.crt = s.crt) (c : Nat) : s.setsCh t c (s.crtCh c) where
  ch := crtCh_eq_of_crt hcrt c
  others k _ := crtCh_eq_of_crt hcrt k
  rest := by
    rw [hcrt]
    exact h

theorem State.sameBut.setsCh (h : s.sameBut t) (c : Nat) : s.setsCh t c (s.crtCh c) := h.crtOnly.setsCh h.crt c

theorem freshCtr_setsCh (s : State) (n c : Nat) : s.setsCh { s with freeCtr := n } c (s.crtCh c) := ⟨rfl, fun _ _ => rfl, rfl⟩

@[simp] theorem crtCh_updCh' (s : State) (c : Nat) (f : CrtCh → CrtCh) (k : Nat) :
    (s.updCh' c f).crtCh k = if k = c then f (s.crtCh c) else s.crtCh k := Table.get_set ..

theorem updCh'_setsCh (s : State) (c : Nat) (f : CrtCh → CrtCh) : s.setsCh (s.updCh' c f) c (f (s.crtCh c)) where
  ch := by rw [crtCh_updCh', if_pos rfl]
  others k hk := by rw [crtCh_updCh', if_neg hk]
  rest := rfl

/-- A write of the channel with what does not change it before. -/
theorem State.setsCh.updCh' (h : s.setsCh t c x) (f : CrtCh → CrtCh) : s.setsCh (t.updCh' c f) c (f x) := by
  have k := h.trans (updCh'_setsCh t c f)
  rwa [h.ch] at k

/-- A report or an event after a write of the channel. -/
theorem State.setsCh.sameBut (h : s.setsCh t c x) (k : t.sameBut u) : s.setsCh u c x := by
  have hu := h.trans (k.setsCh c)
  rwa [h.ch] at hu

end Sys2Proof.Machine
end

section
/-! SUPPORT. Commands of the weighing channels and their refusal (R238, R240, R247). -/

namespace Sys2Proof.Machine

variable {s : State}

/-! ### A write of CRT_CMD -/

/-- The Cartouche with a command of a channel that waits. -/
def State.waiting (s : State) (c code val : Nat) : State :=
  { s with crt := { s.crt with cmdSt := 1, cmd := some { code := code, ch := c, val := val, since := s.upNs } } }

/-- The Cartouche with a refused command. -/
def State.endedWith (s : State) (r : Nat) : State := { s with crt := { s.crt with cmdSt := r } }

theorem crtCommand_busy {c code : Nat} (val : Nat) (h0 : code ≠ 0) (h7 : code < 7) (h : s.crt.cmd ≠ none) :
    s.crtCommand c code val = s.endedWith 3 := by
  have hcode : ¬(code = 0 ∨ 7 ≤ code) := by omega
  unfold State.crtCommand
  rw [if_neg hcode, if_pos (Option.isSome_iff_ne_none.2 h)]
  rfl

theorem crtCommand_mode {c code : Nat} (val : Nat) (h0 : code ≠ 0) (h2 : code ≤ 2) (h : s.crt.cmd = none) :
    s.crtCommand c code val = if s.modeRefuse' c code = 0 then s.waiting c code val else s.endedWith (s.modeRefuse' c code) := by
  have hcode : ¬(code = 0 ∨ 7 ≤ code) := by omega
  unfold State.crtCommand
  rw [if_neg hcode, if_neg (by simp [h]), if_pos h2]
  rfl

theorem crtCommand_static {c code : Nat} (val : Nat) (h2 : 2 < code) (h7 : code < 7) (h : s.crt.cmd = none) :
    s.crtCommand c code val = if (s.crtCh c).st ≠ .static then s.endedWith 2 else s.waiting c code val := by
  have hcode : ¬(code = 0 ∨ 7 ≤ code) := by omega
  unfold State.crtCommand
  rw [if_neg hcode, if_neg (by simp [h]), if_neg (by omega)]
  rfl

theorem modeRefuse'_window {c : Nat} (code : Nat) (h : (s.crtCh c).st = .window) : s.modeRefuse' c code = 3 := if_pos h

theorem modeRefuse'_static {c : Nat} (h : (s.crtCh c).st = .transfer) (ha : s.allows c .static = true) : s.modeRefuse' c 1 = 0 := by
  simp [State.modeRefuse', h, ha]

theorem modeRefuse'_transfer {c : Nat} (h : (s.crtCh c).st = .static) (ha : s.allows c .transfer = true) : s.modeRefuse' c 2 = 0 := by
  simp [State.modeRefuse', h, ha]

/-! ### The end of the 2 s -/

theorem crtRefuse_cmdSt (s : State) (k : CrtCmd) : (s.crtRefuse k).crt.cmdSt = 4 ∨ (s.crtRefuse k).crt.cmdSt = 5 :=
  (ite_eq_or_eq ..).symm

theorem exec_notstable_late {c : Fin 8} {k : CrtCmd} (hup : s.crtUp = true) (hcmd : s.crt.cmd = some k) (hch : k.ch = c.val) (hcode : 3 ≤ k.code)
    (hlate : s.crtLate k = true) : exec (.notstable c) s = .next (s.crtRefuse k) := by
  show execNotstable c s = _
  rw [execNotstable, hcmd]
  exact congrArg _ (if_pos (by simp [hup, hch, hcode, hlate]))

/-- Settles O29, command by command: each is one write of CRT_CMD. -/
theorem weighingCommands : Obligations.WeighingCommands := by
  unfold Obligations.WeighingCommands
  intro s c v hup x waits ends
  have hwrite {i : Instr} {code val : Nat} (hi : exec i s = .next (if s.crtUp then s.crtCommand c.val code val else s)) {w : State}
      (hw : s.crtCommand c.val code val = w) : Answers i s fun t => t = w := ⟨w, by rw [hi, if_pos hup, hw], rfl⟩
  refine ⟨fun hcmd => ⟨fun hst ha => ?_, fun hst ha => ?_, fun hst => ?_, fun hst => ?_, fun hst => ?_⟩, fun hcmd => ?_, fun k hk hch hcode hlate => ?_⟩
  · refine hwrite rfl ?_
    rw [crtCommand_mode 0 (by decide) (by decide) hcmd, if_pos (modeRefuse'_static hst ha)]
    rfl
  · refine hwrite rfl ?_
    rw [crtCommand_mode 0 (by decide) (by decide) hcmd, if_pos (modeRefuse'_transfer hst ha)]
    rfl
  · have hwait {code : Nat} (val : Nat) (h2 : 2 < code) (h7 : code < 7) : s.crtCommand c.val code val = s.waiting c.val code val := by
      rw [crtCommand_static val h2 h7 hcmd, if_neg (not_not.2 hst)]
    exact ⟨hwrite rfl (hwait 0 (by decide) (by decide)), hwrite rfl (hwait 0 (by decide) (by decide)),
      hwrite rfl (hwait v.toNat (by decide) (by decide)), hwrite rfl (hwait 0 (by decide) (by decide))⟩
  · have hbusy {code : Nat} (h0 : code ≠ 0) (h2 : code ≤ 2) : s.crtCommand c.val code 0 = s.endedWith 3 := by
      rw [crtCommand_mode 0 h0 h2 hcmd, modeRefuse'_window code hst]
      rfl
    exact ⟨hwrite rfl (hbusy (by decide) (by decide)), hwrite rfl (hbusy (by decide) (by decide))⟩
  · have hstate {code : Nat} (val : Nat) (h2 : 2 < code) (h7 : code < 7) : s.crtCommand c.val code val = s.endedWith 2 := by
      rw [crtCommand_static val h2 h7 hcmd, if_pos hst]
    exact ⟨hwrite rfl (hstate 0 (by decide) (by decide)), hwrite rfl (hstate 0 (by decide) (by decide)),
      hwrite rfl (hstate v.toNat (by decide) (by decide)), hwrite rfl (hstate 0 (by decide) (by decide))⟩
  · have hbusy {code : Nat} (val : Nat) (h0 : code ≠ 0) (h7 : code < 7) : s.crtCommand c.val code val = s.endedWith 3 := crtCommand_busy val h0 h7 hcmd
    exact ⟨hwrite rfl (hbusy 0 (by decide) (by decide)), hwrite rfl (hbusy 0 (by decide) (by decide)), hwrite rfl (hbusy 0 (by decide) (by decide)),
      hwrite rfl (hbusy 0 (by decide) (by decide)), hwrite rfl (hbusy v.toNat (by decide) (by decide)), hwrite rfl (hbusy 0 (by decide) (by decide))⟩
  · exact ⟨s.crtRefuse k, exec_notstable_late hup hk hch hcode (decide_eq_true hlate), rfl, crtRefuse_cmdSt s k, fun _ => rfl, rfl⟩

end Sys2Proof.Machine
end

section
/-! SUPPORT. The mailbox of a channel and the static update (R239, R240, R248). -/

namespace Sys2Proof.Machine

variable {s t : State} {c : Nat}

/-! ### The mailbox -/

/-- A channel whose mailbox has been written. -/
def CrtCh.mailed (x : CrtCh) (ws : List W32) : CrtCh :=
  { x with
    seq := (x.seq + 1) % 65536
    mail := (ws.getD 0 0 + BitVec.ofNat 32 ((x.seq + 1) % 65536 + x.st.code * 65536)) :: ws.drop 1 }

theorem CrtCh.mailed_weight (x : CrtCh) (ws : List W32) : (x.mailed ws).mail.getD 1 0 = ws.getD 1 0 := by
  cases ws with
  | nil => rfl
  | cons w ws => cases ws <;> rfl

theorem mailPut_setsCh (s : State) (c code : Nat) (ws : List W32) : s.setsCh (s.mailPut c code ws) c ((s.crtCh c).mailed ws) :=
  (updCh'_setsCh s c _).sameBut (fireMasked_same ..)

theorem mailWords_weight (s : State) (c : Nat) (r : MailRec) : (s.mailWords c r).getD 1 0 = BitVec.ofNat 32 (wrapN 32 r.weight) := rfl

/-! ### The static record -/

theorem staticRec_state (s : State) (c : Nat) : ∃ n, (s.staticRec c).1 = { s with freeCtr := n } := by
  unfold State.staticRec
  dsimp only
  split
  · split
    · exact ⟨s.freeCtr, rfl⟩
    · exact ⟨s.freeCtr + 1, rfl⟩
  · split
    · exact ⟨s.freeCtr + 1, rfl⟩
    · exact ⟨s.freeCtr + 1 + 1, rfl⟩

theorem staticMail_setsCh (s : State) (c : Nat) :
    s.setsCh (s.staticMail c) c ((s.crtCh c).mailed (s.mailWords c (s.staticRec c).2)) := by
  obtain ⟨n, hn⟩ := staticRec_state s c
  have h : s.staticMail c = State.mailPut { s with freeCtr := n } c 2 (s.mailWords c (s.staticRec c).2) := by
    show State.mailPut (s.staticRec c).1 c 2 ((s.staticRec c).1.mailWords c (s.staticRec c).2) = _
    rw [hn]
    rfl
  rw [h]
  exact (freshCtr_setsCh s n c).trans (mailPut_setsCh ..)

/-- The weight of a reading in range with the zero set (R239). -/
theorem staticRec_weight {f : Int} (hf : s.reading c = some f) (hset : (s.crtCh c).zeroSet = true)
    (hmost : f - (s.crtCh c).zero ≤ s.maxQ c + 9 * oneD) (hleast : -20 * oneD ≤ f - (s.crtCh c).zero) :
    (s.staticRec c).2.weight = roundHalfAway (f - (s.crtCh c).zero) (2 ^ 32) - (s.crtCh c).tare := by
  have hover : ¬s.maxQ c + 9 * oneD < f - (s.crtCh c).zero := by omega
  have hunder : ¬f - (s.crtCh c).zero < -20 * oneD := by omega
  simp only [State.staticRec, hf, hset, hover, hunder, decide_false, Option.isSome_some, Bool.not_true, Bool.and_false, Bool.or_self,
    Bool.false_eq_true, if_false]

/-! ### What a static update does before it writes the mailbox -/

/-- The channel with another zero. -/
def CrtCh.withZero (x : CrtCh) (z : Int) (set tried : Bool) : CrtCh := { x with zero := z, zeroSet := set, zeroTried := tried }

theorem initialZero_setsCh (s : State) (c : Nat) : ∃ z b d, s.setsCh (s.initialZero c) c ((s.crtCh c).withZero z b d) := by
  have hsame : s.setsCh s c (s.crtCh c) := (State.crtOnly.refl s).setsCh rfl c
  unfold State.initialZero
  split
  next f _ =>
    split_ifs
    · exact ⟨_, _, _, hsame⟩
    · have h := updCh'_setsCh s c fun x =>
        if !x.zeroSet && decide ((f.natAbs * 10 : Nat) ≤ s.maxQ c) then { x with zero := f, zeroSet := true, zeroTried := true } else { x with zeroTried := true }
      split_ifs at h
      · exact ⟨f, true, true, h⟩
      · exact ⟨(s.crtCh c).zero, (s.crtCh c).zeroSet, true, h⟩
  next => exact ⟨_, _, _, hsame⟩

theorem trackZero_setsCh (s : State) (c : Nat) : ∃ z b d, s.setsCh (s.trackZero c) c ((s.crtCh c).withZero z b d) := by
  have hsame : s.setsCh s c (s.crtCh c) := (State.crtOnly.refl s).setsCh rfl c
  unfold State.trackZero
  split
  next => exact ⟨_, _, _, hsame⟩
  next =>
    extract_lets x g most step z
    split_ifs
    · exact ⟨_, _, _, hsame⟩
    · exact ⟨z, x.zeroSet, x.zeroTried, (freshCtr_setsCh s _ c).updCh' _⟩

/-- The zeros of a static update (R240). -/
theorem zeros_setsCh (s : State) (c : Nat) : ∃ z b d, s.setsCh ((s.initialZero c).trackZero c) c ((s.crtCh c).withZero z b d) := by
  obtain ⟨_, _, _, h⟩ := initialZero_setsCh s c
  obtain ⟨z, b, d, k⟩ := trackZero_setsCh (s.initialZero c) c
  rw [h.ch] at k
  exact ⟨z, b, d, h.trans k⟩

end Sys2Proof.Machine
end

section
/-! SUPPORT. The command that waits at a static update, and the result of the update (R239, R240, R248). -/

namespace Sys2Proof.Machine

variable {s t u : State} {c : Nat} {k : CrtCmd}

/-! ### What a static update leaves as it is -/

/-- `t` is `s` but for the channel `c`, the waiting command and its result, and what events, reports and free values write; the channel
keeps its state, its filtered values and the SEQ of its mailbox. -/
structure State.weighs (s t : State) (c : Nat) : Prop where
  only : s.crtOnly t
  store : t.crt.store = s.crt.store
  others : ∀ k, k ≠ c → t.crtCh k = s.crtCh k
  st : (t.crtCh c).st = (s.crtCh c).st
  filt : (t.crtCh c).filt = (s.crtCh c).filt
  seq : (t.crtCh c).seq = (s.crtCh c).seq

theorem State.weighs.refl (s : State) (c : Nat) : s.weighs s c := ⟨.refl s, rfl, fun _ _ => rfl, rfl, rfl, rfl⟩

theorem State.weighs.trans (h : s.weighs t c) (k : t.weighs u c) : s.weighs u c :=
  ⟨h.only.trans k.only, k.store.trans h.store, fun d hd => (k.others d hd).trans (h.others d hd), k.st.trans h.st, k.filt.trans h.filt,
    k.seq.trans h.seq⟩

theorem State.setsCh.weighs {x : CrtCh} (h : s.setsCh t c x) (hst : x.st = (s.crtCh c).st) (hfilt : x.filt = (s.crtCh c).filt)
    (hseq : x.seq = (s.crtCh c).seq) : s.weighs t c :=
  ⟨h.crtOnly, h.store, h.others, h.ch ▸ hst, h.ch ▸ hfilt, h.ch ▸ hseq⟩

theorem State.weighs.reading (h : s.weighs t c) : t.reading c = s.reading c := by rw [State.reading, h.filt, State.reading]

theorem State.weighs.maxQ (h : s.weighs t c) (d : Nat) : t.maxQ d = s.maxQ d := by
  simp only [State.maxQ, State.bw, State.bench, h.store]

theorem zeros_weighs (s : State) (c : Nat) : s.weighs ((s.initialZero c).trackZero c) c := by
  obtain ⟨_, _, _, h⟩ := zeros_setsCh s c
  exact h.weighs rfl rfl rfl

theorem zeros_cmd (s : State) (c : Nat) : ((s.initialZero c).trackZero c).crt.cmd = s.crt.cmd := by
  obtain ⟨_, _, _, h⟩ := zeros_setsCh s c
  exact h.cmd

/-! ### The waiting command -/

/-- A static command that has taken effect. -/
def State.crtTaken (s : State) (k : CrtCmd) : State := (s.crtEffect k).updCrt fun x => { x with cmd := none, cmdSt := 0 }

theorem crtTake_eq (hcmd : s.crt.cmd = some k) (hch : k.ch = c) (hcode : 3 ≤ k.code) :
    s.crtTake c = if s.crtLate k then s.crtRefuse k else if s.crtCond k then s.crtTaken k else s := by
  rw [State.crtTake, hcmd]
  exact if_pos ⟨hch, hcode⟩

/-- The end of the waiting command with a result. -/
theorem answered_weighs (s : State) (r c : Nat) : s.weighs (s.updCrt fun x => { x with cmd := none, cmdSt := r }) c :=
  ⟨rfl, rfl, fun _ _ => rfl, rfl, rfl, rfl⟩

theorem crtRefuse_weighs (s : State) (k : CrtCmd) (c : Nat) : s.weighs (s.crtRefuse k) c := answered_weighs ..

theorem crtTaken_weighs (s : State) (k : CrtCmd) : s.weighs (s.crtTaken k) k.ch := by
  have h := updCh'_setsCh s k.ch fun x =>
    match k.code with
    | 3 => { x with zero := (s.reading k.ch).getD 0, zeroSet := true }
    | 4 => { x with tare := roundHalfAway ((s.reading k.ch).getD 0 - x.zero) (2 ^ 32), net := true }
    | 5 => { x with tare := k.val, net := true }
    | _ => { x with tare := 0, net := false }
  have heffect : s.weighs (s.crtEffect k) k.ch := by
    refine h.weighs ?_ ?_ ?_
    · split <;> rfl
    · split <;> rfl
    · split <;> rfl
  exact heffect.trans (answered_weighs ..)

/-- What a static command does to its channel (R240). -/
theorem crtTaken_ch (s : State) (k : CrtCmd) :
    let f := (s.reading k.ch).getD 0
    let x := (s.crtTaken k).crtCh k.ch
    (k.code = 3 → x.zero = f ∧ x.zeroSet = true) ∧
    (k.code = 4 → x.tare = roundHalfAway (f - (s.crtCh k.ch).zero) (2 ^ 32) ∧ x.net = true) ∧
    (k.code = 5 → x.tare = k.val ∧ x.net = true) ∧ (k.code = 6 → x.tare = 0 ∧ x.net = false) := by
  intro f x
  have hx : x = (s.crtEffect k).crtCh k.ch := rfl
  rw [hx, State.crtEffect, crtCh_updCh', if_pos rfl]
  refine ⟨fun h => ?_, fun h => ?_, fun h => ?_, fun h => ?_⟩
  all_goals
    rw [h]
    exact ⟨rfl, rfl⟩

theorem crtTake_weighs (s : State) (c : Nat) : s.weighs (s.crtTake c) c := by
  cases hcmd : s.crt.cmd with
  | none =>
    rw [State.crtTake, hcmd]
    exact .refl s c
  | some k =>
    by_cases hk : k.ch = c ∧ 3 ≤ k.code
    · obtain ⟨rfl, hcode⟩ := hk
      rw [crtTake_eq hcmd rfl hcode]
      split_ifs
      · exact crtRefuse_weighs ..
      · exact crtTaken_weighs ..
      · exact .refl ..
    · rw [State.crtTake, hcmd]
      simpa only [if_neg hk] using State.weighs.refl s c

/-! ### The update -/

theorem exec_staticUpdate {c : Fin 8} (hup : s.crtUp = true) (hst : (s.crtCh c.val).st = .static) :
    exec (.staticUpdate c) s = .next ((((s.initialZero c.val).trackZero c.val).crtTake c.val).staticMail c.val) :=
  congrArg Host.Outcome.next (if_pos (by simp [hup, hst]))

/-- The weight that a static update writes. -/
theorem staticMail_weight {f : Int} (hf : s.reading c = some f) (hset : (s.crtCh c).zeroSet = true)
    (hmost : f - (s.crtCh c).zero ≤ s.maxQ c + 9 * oneD) (hleast : -20 * oneD ≤ f - (s.crtCh c).zero) :
    ((s.staticMail c).crtCh c).mail.getD 1 0 =
      BitVec.ofNat 32 (wrapN 32 (roundHalfAway (f - (s.crtCh c).zero) (2 ^ 32) - (s.crtCh c).tare)) := by
  rw [(staticMail_setsCh s c).ch, CrtCh.mailed_weight, mailWords_weight, staticRec_weight hf hset hmost hleast]

/-- Settles O30: the zeros, then the waiting command, then the mailbox. -/
theorem staticWeighing : Obligations.StaticWeighing := by
  unfold Obligations.StaticWeighing
  intro s c hup hst z f
  set u := z.crtTake c.val with hu
  have hz : s.weighs z c.val := zeros_weighs s c.val
  have hzu : z.weighs u c.val := crtTake_weighs z c.val
  have hsu : s.weighs u c.val := hz.trans hzu
  have ht := staticMail_setsCh u c.val
  have hch := ht.ch
  have hcmdz : z.crt.cmd = s.crt.cmd := zeros_cmd s c.val
  have hlate (k : CrtCmd) : z.crtLate k = decide (k.since + 2000000000 ≤ s.upNs) := by rw [State.crtLate, hz.only.upNs]
  refine ⟨_, exec_staticUpdate hup hst, ?_, ?_, fun k hk => (ht.others k hk).trans (hsu.others k hk), (hsu.only.trans ht.crtOnly).spares,
    fun k hk hkc hlo hhi => ?_, fun hf hset hmost hleast => ?_⟩
  · rw [hch]
    exact hsu.st.trans hst
  · rw [hch]
    exact congrArg (fun q => (q + 1) % 65536) hsu.seq
  · have hu' : u = if decide (k.since + 2000000000 ≤ s.upNs) then z.crtRefuse k else if z.crtCond k then z.crtTaken k else z := by
      rw [hu, crtTake_eq (hcmdz.trans hk) hkc hlo, hlate]
    rw [hch, ht.cmd, ht.cmdSt]
    refine ⟨fun h => ?_, fun h hcond => ?_, fun h hcond => ?_⟩
    · rw [if_pos (decide_eq_true h)] at hu'
      rw [hu']
      exact ⟨rfl, crtRefuse_cmdSt z k⟩
    · rw [if_neg (by simpa using h), if_neg (by simp [hcond])] at hu'
      rw [hu', hcmdz, hk]
    · rw [if_neg (by simpa using h), if_pos hcond] at hu'
      rw [hu', ← hkc]
      refine ⟨rfl, rfl, ?_⟩
      have heffect := crtTaken_ch z k
      dsimp only at heffect
      rw [hkc] at heffect ⊢
      exact heffect
  · have hfu : u.reading c.val = some f := hsu.reading.trans hf
    rw [hch] at hset hmost hleast
    rw [← hsu.maxQ c.val] at hmost
    rw [staticMail_weight hfu hset hmost hleast, hch]
    rfl

end Sys2Proof.Machine
end

section
/-! SUPPORT. The change of a channel's state, and transfer windows (R238, R244–R248). -/

namespace Sys2Proof.Machine

variable {s t : State} {c : Nat}

/-! ### A channel enters a state -/

/-- A channel that enters a state (R238). -/
def CrtCh.entered (x : CrtCh) (st : CrtSt) : CrtCh :=
  if st = .static then { x with st := st, samples := [], filt := [], since := none } else { x with st := st }

theorem CrtCh.entered_eq (x : CrtCh) (st : CrtSt) :
    ∃ samples filt since, x.entered st = { x with st := st, samples := samples, filt := filt, since := since } := by
  unfold CrtCh.entered
  split_ifs
  · exact ⟨_, _, _, rfl⟩
  · exact ⟨_, _, _, rfl⟩

theorem CrtCh.entered_st (x : CrtCh) (st : CrtSt) : (x.entered st).st = st := by
  obtain ⟨_, _, _, h⟩ := x.entered_eq st
  rw [h]

theorem CrtCh.entered_of_ne {st : CrtSt} (h : st ≠ .static) (x : CrtCh) : x.entered st = { x with st := st } := if_neg h

theorem CrtCh.issue_weight (x : CrtCh) (o : Bool) (ws : List W32) : (x.issue o ws).getD 1 0 = ws.getD 1 0 := by
  cases ws <;> rfl

theorem CrtCh.length_issue (x : CrtCh) (o : Bool) (ws : List W32) : (x.issue o ws).length = ws.length := by
  cases ws <;> rfl

/-- The mailbox that repeats a transfer result keeps its weight. -/
theorem CrtCh.reissued_weight (x : CrtCh) (o : Bool) {ws : List W32} (h : 1 < ws.length) (w : W32) :
    (((x.issue o ws).take 7).append [w]).getD 1 0 = ws.getD 1 0 := by
  rw [← x.issue_weight o ws]
  rw [← x.length_issue o ws] at h
  match hl : x.issue o ws with
  | [] => simp [hl] at h
  | [_] => simp [hl] at h
  | _ :: _ :: _ => rfl

/-- A change of state sets the state and writes the mailbox, which repeats the last transfer result if there is one (R248). -/
theorem crtEnter_setsCh (s : State) (c : Nat) (st : CrtSt) :
    ∃ ws, s.setsCh (s.crtEnter c st) c (((s.crtCh c).entered st).mailed ws) ∧
      (st ≠ .static → 1 < (s.crtCh c).last.length → ws.getD 1 0 = (s.crtCh c).last.getD 1 0) := by
  set u := s.updCh' c fun x => x.entered st
  have hent : s.setsCh u c ((s.crtCh c).entered st) := updCh'_setsCh ..
  have hmail {v : State} (code : Nat) (ws : List W32) (h : s.setsCh v c ((s.crtCh c).entered st)) :
      s.setsCh (v.mailPut c code ws) c (((s.crtCh c).entered st).mailed ws) := by
    have k := h.trans (mailPut_setsCh v c code ws)
    rwa [h.ch] at k
  by_cases hst : st = .static
  · subst hst
    have k := hent.trans (staticMail_setsCh u c)
    rw [hent.ch] at k
    exact ⟨_, k, fun h => absurd rfl h⟩
  · have hlast : (u.crtCh c).last = (s.crtCh c).last := by rw [hent.ch, CrtCh.entered_of_ne hst]
    have hrun : s.crtEnter c st = if (u.crtCh c).last.isEmpty then (u.noResult c).1.mailPut c 1 (u.noResult c).2
        else u.mailPut c 1 ((((u.crtCh c).issue u.crt.store.unsealed (u.crtCh c).last).take 7).append [BitVec.ofNat 32 u.crt.store.evcnt]) := by
      cases st with
      | static => exact absurd rfl hst
      | off => rfl
      | transfer => rfl
      | window => rfl
    rw [hrun, hlast]
    split_ifs with hempty
    · have hfree := hent.trans (freshCtr_setsCh u (u.freeCtr + 1) c)
      rw [hent.ch] at hfree
      refine ⟨_, hmail 1 _ hfree, fun _ h => ?_⟩
      rw [List.isEmpty_iff.1 hempty] at h
      exact absurd h (by decide)
    · exact ⟨_, hmail 1 _ hent, fun _ h => CrtCh.reissued_weight _ _ h _⟩

/-! ### The request of a window -/

/-- The window that the registers ask for (R244). -/
def State.askedWin (s : State) (c S l : Nat) : CrtWin :=
  { s := S, l := l, tag := s.rf (crtReg 0x3C) 16 16, zero := bitN (s.rd (crtReg 0x30)).toNat 3
    plan := (List.range 2).any fun i => decide (S ≤ s.mer.cycle + 2 - i) && !s.planHolds c i }

/-- An accepted request takes the channel to WINDOW; the window of the state with the result in CRT_WST is that of the state before. -/
theorem windowGo_eq {S l : Nat} (hc : fld (s.rd (crtReg 0x30)).toNat 0 3 = c)
    (hl : (if fld (s.rd (crtReg 0x30)).toNat 4 12 = 0 then 4096 else fld (s.rd (crtReg 0x30)).toNat 4 12) = l)
    (hS : s.rf (crtReg 0x34) 0 32 + s.rf (crtReg 0x38) 0 16 * 2 ^ 32 = S) :
    s.windowGo = if s.winRefuse c S l ≠ 0 then { s with crt := { s.crt with wst := s.winRefuse c S l } }
      else ((s.updCrt fun x => { x with wst := s.winRefuse c S l }).updCh' c fun x =>
        { x with win := some (s.askedWin c S l), lastS := some S }).crtEnter c .window := by
  subst hc hl hS
  rfl

/-! ### The end of a window -/

theorem massOf_state (s : State) (c : Nat) (v : Int) (n : Nat) : ∃ k, (s.massOf c v n).1 = { s with freeCtr := k } := by
  unfold State.massOf
  split
  · exact ⟨s.freeCtr, rfl⟩
  · exact ⟨s.freeCtr + 1, rfl⟩

theorem winMass_state (s : State) (c : Nat) (w : CrtWin) : ∃ k, (s.winMass c w).1 = { s with freeCtr := k } := by
  obtain ⟨k, hk⟩ := massOf_state s c (sumI (w.got.map (·.v))) w.got.length
  have h : (s.winMass c w).1 = if fixDiv (sumI w.forces) w.forces.length = 0 then { (s.massOf c (sumI (w.got.map (·.v))) w.got.length).1 with
      freeCtr := (s.massOf c (sumI (w.got.map (·.v))) w.got.length).1.freeCtr + 1 } else (s.massOf c (sumI (w.got.map (·.v))) w.got.length).1 := by
    unfold State.winMass
    dsimp only
    split_ifs <;> rfl
  rw [h, hk]
  split_ifs
  · exact ⟨k + 1, rfl⟩
  · exact ⟨k, rfl⟩

/-- A channel whose window has ended, with the zero mass and the result that it leaves. -/
def CrtCh.windowDone (x : CrtCh) (mg : Int) (ws : List W32) : CrtCh := { x with mg := mg, win := none, last := ws }

/-- The end of a window: the zero mass moves only with a ZERO window that passed, and a failed condition gives no weight (R245, R246). -/
theorem windowEnd_result (s : State) (c : Nat) (w : CrtWin) :
    ∃ n mg r, s.windowEnd c w = (State.updCh' { s with freeCtr := n } c fun x => x.windowDone mg (s.mailWords c r)).crtEnter c .transfer ∧
      (w.zero = false ∨ s.winResult c w ≠ 1 → mg = (s.crtCh c).mg) ∧ (s.winResult c w ≠ 1 → r.weight = 0) := by
  obtain ⟨n, hn⟩ := winMass_state s c w
  rcases hm : s.winMass c w with ⟨t, full⟩
  rcases hp : (if w.got.length < 65536 then (t, w.got.length) else t.freshWord 65536) with ⟨u, nw⟩
  obtain ⟨k, rfl⟩ : ∃ k, u = { s with freeCtr := k } := by
    rw [hm] at hn
    obtain rfl : t = { s with freeCtr := n } := hn
    split_ifs at hp
    · exact ⟨n, (congrArg Prod.fst hp).symm⟩
    · exact ⟨n + 1, (congrArg Prod.fst hp).symm⟩
  unfold State.windowEnd
  rw [hm]
  dsimp -zeta only
  rw [hp]
  extract_lets x r0 m bm r1 r mg wt rec_ ws
  have hfailed (h : s.winResult c w ≠ 1) : r ≠ 1 := by
    have hr1 : r1 = s.winResult c w := if_pos h
    have hr : r = r1 := if_neg fun hpass => h (hr1 ▸ hpass.1)
    rwa [hr, hr1]
  refine ⟨k, mg, rec_, rfl, fun h => if_neg ?_, fun h => if_neg fun hpass => hfailed h hpass.1⟩
  rintro ⟨hr, hzero⟩
  rcases h with h | h
  · exact absurd hzero (by rw [h]; decide)
  · exact hfailed h hr

/-- After its window a channel is in TRANSFER, with the result in its mailbox (R245). -/
theorem windowEnd_setsCh (s : State) (c : Nat) (w : CrtWin) :
    ∃ mg r ws, s.setsCh (s.windowEnd c w) c ((((s.crtCh c).windowDone mg (s.mailWords c r)).entered .transfer).mailed ws) ∧
      ws.getD 1 0 = (s.mailWords c r).getD 1 0 ∧
      (w.zero = false ∨ s.winResult c w ≠ 1 → mg = (s.crtCh c).mg) ∧ (s.winResult c w ≠ 1 → r.weight = 0) := by
  obtain ⟨n, mg, r, hrun, hmg, hweight⟩ := windowEnd_result s c w
  have hdone := (freshCtr_setsCh s n c).updCh' fun x => x.windowDone mg (s.mailWords c r)
  obtain ⟨ws, hset, hws⟩ := crtEnter_setsCh (State.updCh' { s with freeCtr := n } c fun x => x.windowDone mg (s.mailWords c r)) c .transfer
  rw [hdone.ch] at hset hws
  rw [hrun]
  exact ⟨mg, r, ws, hdone.trans hset, hws (by decide) (Nat.one_lt_succ_succ 6), hmg, hweight⟩

theorem exec_windowEnd {c : Fin 8} {w : CrtWin} (hup : s.crtUp = true) (hwin : (s.crtCh c.val).win = some w) (hst : (s.crtCh c.val).st = .window)
    (hend : w.s + w.l + 2 ≤ s.mer.cycle) : exec (.windowEnd c) s = .next (s.windowEnd c.val w) := by
  show execWindowEnd c s = _
  rw [execWindowEnd]
  simp only [hwin]
  exact congrArg _ (if_pos (by simp [hup, hst, hend]))

/-- Settles O31: a request takes the channel to WINDOW or changes CRT_WST alone, and the end of a window takes it back to TRANSFER. -/
theorem transferWindows : Obligations.TransferWindows := by
  unfold Obligations.TransferWindows
  intro s c hup w l S
  have hexec : exec .windowRequest s = .next s.windowGo := congrArg Host.Outcome.next (if_pos hup)
  refine ⟨fun hc hok => ?_, fun hc hrefused => ?_, fun y hwin hst hend => ?_⟩
  · rw [windowGo_eq hc rfl rfl, if_neg (not_not.2 hok)] at hexec
    set v := s.updCrt fun x => { x with wst := s.winRefuse c.val S l }
    have hask := updCh'_setsCh v c.val fun x => { x with win := some (s.askedWin c.val S l), lastS := some S }
    obtain ⟨ws, hset, -⟩ := crtEnter_setsCh (v.updCh' c.val fun x => { x with win := some (s.askedWin c.val S l), lastS := some S }) c.val .window
    rw [hask.ch] at hset
    have ht := hask.trans hset
    refine ⟨_, hexec, ?_, ?_, ?_, ht.others, ht.crtOnly.spares⟩
    · exact (congrArg Crt.wst ht.crt).trans hok
    · rw [ht.ch]
      exact CrtCh.entered_st ..
    · rw [ht.ch]
      rfl
  · rw [windowGo_eq hc rfl rfl, if_pos hrefused] at hexec
    exact ⟨_, hexec, rfl⟩
  · obtain ⟨mg, r, ws, ht, hws, hmg, hweight⟩ := windowEnd_setsCh s c.val y
    refine ⟨_, exec_windowEnd hup hwin hst hend, ?_, ?_, ?_, ht.others, ht.crtOnly.spares, fun h => ?_, fun h => ?_⟩
    · rw [ht.ch]
      exact CrtCh.entered_st ..
    · rw [ht.ch]
      rfl
    · rw [ht.ch]
      rfl
    · rw [ht.ch]
      exact hmg h
    · have hzero : (s.mailWords c.val r).getD 1 0 = 0 := by
        rw [mailWords_weight, hweight h]
        rfl
      rw [ht.ch]
      exact ⟨hzero, by rw [CrtCh.mailed_weight, hws, hzero]⟩

end Sys2Proof.Machine
end

section
/-! SUPPORT. The audit trail, the seal, and a channel that starts anew from its record (R234, R246, R250–R254). -/

namespace Sys2Proof.Machine

variable {s t u : State} {c : Nat}

/-! ### The audit trail (R251) -/

/-- The legal store with a further entry and its counter. -/
def CrtStore.noted (x : CrtStore) (e : TrailE) (n : Nat) (b : Bool) : CrtStore := { x with evcnt := n, trail := x.trail ++ [e], spent := b }

/-- `t` is `s` with a further entry of a kind in the audit trail: kind 7 does not count, the others do below the counter's top. -/
structure State.notes (s t : State) (kind : Nat) (e : TrailE) (n : Nat) (b : Bool) : Prop where
  only : s.crtOnly t
  crt : t.crt = { s.crt with store := s.crt.store.noted e n b }
  free : kind = 7 → n = s.crt.store.evcnt
  count : kind ≠ 7 → s.crt.store.evcnt + 1 < 2 ^ 32 → n = s.crt.store.evcnt + 1

theorem trailAdd_notes (s : State) (kind obj seq old new : Nat) : ∃ e n b, s.notes (s.trailAdd kind obj seq old new) kind e n b := by
  unfold State.trailAdd
  split_ifs with hkind hcount
  · exact ⟨_, _, _, rfl, rfl, fun _ => rfl, fun h => absurd hkind h⟩
  · exact ⟨_, _, _, rfl, rfl, fun h => absurd h hkind, fun _ _ => rfl⟩
  · exact ⟨_, _, _, rfl, rfl, fun h => absurd h hkind, fun _ h => absurd h hcount⟩

theorem trailFree_notes (s : State) (kind : Nat) (seq : Option Nat) : ∃ e n b, s.notes (s.trailFree kind seq) kind e n b := by
  have hrun : ∃ k obj q old new, s.trailFree kind seq = State.trailAdd { s with freeCtr := k } kind obj q old new := by
    cases seq
    · exact ⟨_, _, _, _, _, rfl⟩
    · exact ⟨_, _, _, _, _, rfl⟩
  obtain ⟨k, obj, q, old, new, hrun⟩ := hrun
  obtain ⟨e, n, b, h⟩ := trailAdd_notes { s with freeCtr := k } kind obj q old new
  rw [hrun]
  exact ⟨e, n, b, State.crtOnly.trans (t := { s with freeCtr := k }) rfl h.only, h.crt, h.free, h.count⟩

/-! ### The seal (R254) -/

theorem sealTo_crtOnly (s : State) (o : Bool) : s.crtOnly (s.sealTo o) := by
  unfold State.sealTo
  extract_lets s1 s2
  have h2 : s.crtOnly s2 := by
    cases o
    · rfl
    · rfl
  have hfree : s2.crtOnly (s2.freshWord 256).1 := rfl
  exact (h2.trans hfree).trans (fireMasked_same ..).crtOnly

/-- A change of the seal sets it; an opened seal marks the windows of the channels. -/
theorem sealTo_crt (s : State) (o : Bool) : ∃ chs, (s.sealTo o).crt = { s.crt with store := { s.crt.store with unsealed := o }, chs := chs } ∧
    (o = false → chs = s.crt.chs) := by
  unfold State.sealTo
  cases o
  · exact ⟨s.crt.chs, State.fireMasked_crt .., fun _ => rfl⟩
  · exact ⟨_, State.fireMasked_crt .., fun h => absurd h (by decide)⟩

/-! ### A channel that starts anew -/

theorem chopRest_setsCh (s : State) (c : Nat) : s.setsCh s.chopRest c (s.crtCh c) := by
  unfold State.chopRest
  split_ifs
  · exact (State.crtOnly.refl s).setsCh rfl c
  · exact ⟨rfl, fun _ _ => rfl, rfl⟩

/-- Whether a channel that starts anew is held in OFF (R234, R250). -/
def State.startFails (s : State) (c : Nat) (fail : Bool) : Bool := fail || (s.hasRec c && !(recCrcOk (s.bench c) && s.contOk c))

/-- The state in which a channel starts anew. -/
def State.startSt (s : State) (c : Nat) (fail restart : Bool) : CrtSt :=
  if s.startFails c fail then .off
  else if !restart && (s.crtCh c).st != .off && s.hasRec c && s.allows c (s.crtCh c).st then (s.crtCh c).st else s.recState c

/-- A channel as its record starts it. -/
structure CrtCh.startedAs (x : CrtCh) (fail : Bool) (st : CrtSt) (mg : Int) : Prop where
  fail : x.fail = fail
  st : x.st = st
  tare : x.tare = 0
  zeroSet : x.zeroSet = false
  mg : x.mg = mg

theorem CrtCh.startedAs.mailed {x : CrtCh} {fail : Bool} {st st' : CrtSt} {mg : Int} (h : x.startedAs fail st mg) (ws : List W32) :
    ((x.entered st').mailed ws).startedAs fail st' mg := by
  obtain ⟨a, b, d, hent⟩ := x.entered_eq st'
  rw [hent]
  exact ⟨h.fail, rfl, h.tare, h.zeroSet, h.mg⟩

theorem startCh_setsCh (s : State) (c : Nat) (fail restart : Bool) : ∃ y, s.setsCh (s.startCh c fail restart) c y ∧
    y.startedAs (s.startFails c fail) (s.startSt c fail restart) (s.bw c 100 * oneD) := by
  unfold State.startCh
  extract_lets x bad st y t
  have ht : s.setsCh t c y := updCh'_setsCh ..
  have hrest {v : State} {z : CrtCh} (h : s.setsCh v c z) : s.setsCh v.chopRest c z := by
    have k := h.trans (chopRest_setsCh v c)
    rwa [h.ch] at k
  by_cases hst : st = x.st
  · rw [if_pos hst]
    exact ⟨y, hrest ht, rfl, if_pos hst, rfl, rfl, rfl⟩
  · rw [if_neg hst]
    obtain ⟨ws, hset, -⟩ := crtEnter_setsCh t c st
    rw [ht.ch] at hset
    have hy : y.startedAs bad .off (s.bw c 100 * oneD) := ⟨rfl, if_neg hst, rfl, rfl, rfl⟩
    exact ⟨_, hrest (ht.trans hset), hy.mailed ws⟩

end Sys2Proof.Machine
end

section
/-! SUPPORT. Legal requests: the request reader, the checks, and what each kind stores (R232, R249, R252–R254). -/

namespace Sys2Proof.Machine

variable {s t : State} {l : List Byte}

/-! ### The request reader (R232) -/

theorem readMem_eq_some {a n src : Nat} (h : (s.readMem a n src).2 = some l) : l = s.bytes a n := by
  have k : (s.readMem a n src).2 = if (checkWords src (wordsOf a n) s).2 then some (s.bytes a n) else none := rfl
  rw [k] at h
  split_ifs at h
  exact (Option.some.inj h).symm

theorem bytes_leAt {a n i : Nat} (h : i < n) : leAt (s.bytes a n) i 1 = (s.byte (a + i)).toNat := by
  have hlen : i < (s.bytes a n).length := by simpa [State.bytes] using h
  rw [leAt, List.take_one_drop_eq_of_lt_length hlen]
  simp [ofBytes, State.bytes]

/-- A request that can be read is what stands in memory; reading it reports errors and does nothing else. -/
theorem legalRead_eq_some (h : s.legalRead.2 = some l) :
    s.sameBut s.legalRead.1 ∧ leAt l 4 1 = (s.byte (s.rf (crtReg 0x20) 0 32 * 256 + 4)).toNat := by
  unfold State.legalRead at h ⊢
  dsimp only at h ⊢
  split_ifs at h ⊢
  rcases hhead : s.readMem (s.rf (crtReg 0x20) 0 32 * 256) 16 1 with ⟨t, _ | hd⟩
  · simp [hhead] at h
  · have hst : s.sameBut t := by simpa [hhead] using readMem_same s (s.rf (crtReg 0x20) 0 32 * 256) 16 1
    simp only [hhead] at h ⊢
    split_ifs at h ⊢ with hlen
    refine ⟨hst.trans (readMem_same ..), ?_⟩
    rw [readMem_eq_some h, bytes_leAt (by omega), hst.byte]

/-- The kind of the request that was read is the kind that stands at CRT_LADDR. -/
theorem leAt_kind {k : Nat} (hread : s.legalRead.2 = some l) (h : s.legalKind k = true) (hk : k < 256) : leAt l 4 1 = k := by
  rw [State.legalKind, Bool.and_eq_true, beq_iff_eq] at h
  rw [(legalRead_eq_some hread).2, h.2, BitVec.toNat_ofNat, Nat.mod_eq_of_lt hk]

/-! ### The checks (R253) -/

/-- The state in which a request is checked: a PROGRAM request drops the image held before. -/
def State.legalChecked (s : State) (l : List Byte) : State :=
  if leAt l 4 1 = 4 then s.legalRead.1.updCrt fun x => { x with held := none } else s.legalRead.1

theorem legalGo_eq (hread : s.legalRead.2 = some l) : s.legalGo =
    let v := s.legalChecked l
    if !legalFormat l then v.lstTo 4
    else if leAt l 16 4 ≠ v.sys.uid0 ∨ leAt l 20 4 ≠ v.sys.uid1 then v.lstTo 9
    else if leAt l 12 4 ≤ v.crt.store.seqno then v.lstTo 5
    else if (v.crt.store.spent ∨ v.crt.store.evcnt = 2 ^ 32 - 1) ∧ leAt l 4 1 ≠ 5 then v.lstTo 8
    else if !((v.topKey 3).any fun k => ecdsaOk k (l.drop (l.length - 64)) (sha256 (l.take (l.length - 64)))) then (v.keyRef (leAt l 12 4)).lstTo 3
    else v.legalEffect l := by
  rcases hr : s.legalRead with ⟨t, o⟩
  obtain rfl : o = some l := by rw [← hread, hr]
  unfold State.legalGo State.legalChecked
  rw [hr]

theorem legalChecked_eq (hread : s.legalRead.2 = some l) :
    ∃ o, s.legalChecked l = { s.legalRead.1 with crt := { s.crt with held := o } } := by
  rw [← (legalRead_eq_some hread).1.crt]
  unfold State.legalChecked
  split_ifs
  · exact ⟨none, rfl⟩
  · exact ⟨s.legalRead.1.crt.held, rfl⟩

theorem legalChecked_crtOnly (hread : s.legalRead.2 = some l) : s.legalRead.1.crtOnly (s.legalChecked l) := by
  obtain ⟨o, h⟩ := legalChecked_eq hread
  rw [h]
  rfl

theorem legalChecked_store (hread : s.legalRead.2 = some l) : (s.legalChecked l).crt.store = s.crt.store := by
  obtain ⟨o, h⟩ := legalChecked_eq hread
  rw [h]

/-- A request that passes every check takes its effect. -/
theorem legalGo_good (hread : s.legalRead.2 = some l) (hgood : s.legalGood l = true) : s.legalGo = (s.legalChecked l).legalEffect l := by
  have honly : s.crtOnly (s.legalChecked l) := (legalRead_eq_some hread).1.crtOnly.trans (legalChecked_crtOnly hread)
  have hkey : (s.legalChecked l).topKey 3 = s.topKey 3 := by rw [State.topKey, honly.sfy, State.topKey]
  simp only [State.legalGood, Bool.and_eq_true, beq_iff_eq, decide_eq_true_eq, Bool.or_eq_true, Bool.not_eq_true', bne_iff_ne] at hgood
  obtain ⟨⟨⟨⟨⟨hformat, huid0⟩, huid1⟩, hseq⟩, hcount⟩, hsig⟩ := hgood
  rw [legalGo_eq hread]
  dsimp only
  rw [if_neg (by simp [hformat]), if_neg (by rw [honly.sys]; omega), legalChecked_store hread, if_neg (by omega), if_neg ?_, hkey, if_neg (by simp [hsig])]
  rintro ⟨hspent | htop, hkind⟩
  · exact hcount.elim (fun h => absurd hspent (by simp [h.1])) hkind
  · exact hcount.elim (fun h => h.2 htop) hkind

theorem legalGo_badFormat (hread : s.legalRead.2 = some l) (hbad : legalFormat l = false) : s.legalGo = (s.legalChecked l).lstTo 4 := by
  rw [legalGo_eq hread]
  exact if_pos (by rw [hbad]; rfl)

end Sys2Proof.Machine
end

section
/-! SUPPORT. What an accepted legal request stores and answers (R249, R251–R254). -/

namespace Sys2Proof.Machine

variable {s t : State} {l : List Byte}

/-- A request that is accepted: its SEQNO is stored, and the answer is OK (R253). -/
def State.accepted (s : State) (seq : Nat) : State := (s.updStore fun x => { x with seqno := seq }).lstTo 1

theorem accepted_crtOnly (s : State) (seq : Nat) : s.crtOnly (s.accepted seq) := rfl

/-- The payload of a request. -/
def legalPay (l : List Byte) : List Byte := (l.take (l.length - 64)).drop 32

/-! ### Each kind's effect -/

theorem legalEffect_unseal (hkind : leAt l 4 1 = 1) (hseal : s.crt.store.unsealed = false) (hroom : s.crt.store.trail.length ≤ 1022) :
    s.legalEffect l = (((s.trailFree 1 (some (leAt l 12 4))).startTimer).sealTo true).accepted (leAt l 12 4) := by
  have hfree : ¬s.trailFreeN < 2 := by unfold State.trailFreeN; omega
  simp only [State.legalEffect, hkind, hseal, hfree, Bool.false_eq_true, if_false]
  rfl

theorem legalEffect_benchmark (hkind : leAt l 4 1 = 3) (hseal : s.crt.store.unsealed = true) (hroom : s.crt.store.trail.length ≤ 1022)
    (hok : s.recRefused (leAt l 5 1) (legalPay l) = false) :
    s.legalEffect l = ((s.putRecord (leAt l 5 1) (leAt l 12 4) (legalPay l)).startTimer).accepted (leAt l 12 4) := by
  have hfree : ¬s.trailFreeN < 2 := by unfold State.trailFreeN; omega
  unfold legalPay at hok ⊢
  simp only [State.legalEffect, hkind, hseal, hfree, hok, Bool.not_true, Bool.false_eq_true, if_false]
  rfl

theorem legalEffect_program (hkind : leAt l 4 1 = 4) (hseal : s.crt.store.unsealed = true) (hroom : s.crt.store.trail.length ≤ 1022) :
    s.legalEffect l = ((s.holdProgram (leAt l 12 4) (legalPay l)).startTimer).accepted (leAt l 12 4) := by
  have hfree : ¬s.trailFreeN < 2 := by unfold State.trailFreeN; omega
  simp only [State.legalEffect, hkind, hseal, hfree, Bool.not_true, Bool.false_eq_true, if_false]
  rfl

theorem legalEffect_trailAck (hkind : leAt l 4 1 = 5)
    (hroom : (freeUpTo (leAt l 24 4) s.crt.store.trail).length + (if s.crt.store.unsealed then 2 else 1) ≤ 1024) :
    s.legalEffect l = ((s.updStore fun x => { x with trail := freeUpTo (leAt l 24 4) s.crt.store.trail }).trailFree 7
      (some (leAt l 12 4))).accepted (leAt l 12 4) := by
  simp only [State.legalEffect, hkind, not_lt.2 hroom, if_false]
  rfl

/-! ### A rewritten record (R249–R251) -/

theorem abortWin_setsCh (s : State) (c : Nat) : ∃ y, s.setsCh (s.abortWin c) c y := by
  unfold State.abortWin
  extract_lets x
  split
  next => exact ⟨_, (State.crtOnly.refl s).setsCh rfl c⟩
  next w _ =>
    dsimp -zeta only [State.freshWord]
    extract_lets ws
    have hdone := (freshCtr_setsCh s (s.freeCtr + 1) c).updCh' fun x => { x with win := none, last := ws }
    obtain ⟨_, hset, -⟩ := crtEnter_setsCh _ c .transfer
    exact ⟨_, hdone.trans hset⟩

theorem abortWin_ite_setsCh (s : State) (c : Nat) (p : Bool) : ∃ y, s.setsCh (if p then s.abortWin c else s) c y := by
  split_ifs
  · exact abortWin_setsCh s c
  · exact ⟨_, (State.crtOnly.refl s).setsCh rfl c⟩

theorem startCh_ite_setsCh (s : State) (c : Nat) (p : Bool) : ∃ y, s.setsCh (if p then s.startCh c false false else s) c y := by
  split_ifs
  · obtain ⟨y, h, -⟩ := startCh_setsCh s c false false
    exact ⟨y, h⟩
  · exact ⟨_, (State.crtOnly.refl s).setsCh rfl c⟩

/-- A rewritten record is stored with its entry in the audit trail; the rest of the legal store stays. -/
theorem putRecord_store (s : State) (i seq : Nat) (l : List Byte) : s.crtOnly (s.putRecord i seq l) ∧
    ∃ e n b, (s.putRecord i seq l).crt.store = { s.crt.store.noted e n b with recs := Table.set (fun _ => []) s.crt.store.recs i l } ∧
      (s.crt.store.evcnt + 1 < 2 ^ 32 → n = s.crt.store.evcnt + 1) := by
  obtain ⟨k, old, h0⟩ : ∃ k old, (if (s.bench i).isEmpty then s.freshWord (2 ^ 32) else (s, leAt (s.bench i) 508 4)) = ({ s with freeCtr := k }, old) := by
    split_ifs
    · exact ⟨_, _, rfl⟩
    · exact ⟨s.freeCtr, _, rfl⟩
  unfold State.putRecord
  extract_lets c
  rw [h0]
  dsimp -zeta only
  extract_lets hit s1 s2
  obtain ⟨x, hx⟩ := abortWin_ite_setsCh { s with freeCtr := k } c hit
  have h1 : s.setsCh s1 c x := (freshCtr_setsCh s k c).trans hx
  obtain ⟨e, n, b, hnote⟩ := trailAdd_notes s1 4 i seq old (leAt l 508 4)
  have h2 : s1.crtOnly s2 := hnote.only.trans (updStore_crtOnly ..)
  have hstore : s2.crt.store = { s1.crt.store.noted e n b with recs := Table.set (fun _ => []) s1.crt.store.recs i l } :=
    congrArg (fun y : Crt => { y.store with recs := Table.set (fun _ => []) y.store.recs i l }) hnote.crt
  have hcount := hnote.count (by decide)
  rw [h1.store] at hstore hcount
  obtain ⟨y, hstart⟩ := startCh_ite_setsCh s2 c hit
  exact ⟨(h1.crtOnly.trans h2).trans hstart.crtOnly, e, n, b, hstart.store.trans hstore, hcount⟩

end Sys2Proof.Machine
end

section
/-! SUPPORT. Legal requests that break the layout and legal requests that are good (R232, R249, R252–R254): the claim. -/

namespace Sys2Proof.Machine

variable {s v : State} {l : List Byte}

/-! ### What each kind of request leaves -/

/-- `t` is what an accepted request leaves: its SEQNO and the answer OK, no byte and no core touched. -/
structure State.accepts (s t : State) (seq : Nat) : Prop where
  lst : t.crt.lst = 1
  seqno : t.crt.store.seqno = seq
  only : s.crtOnly t

theorem accepted_accepts {t : State} (h : v.crtOnly t) (seq : Nat) : v.accepts (t.accepted seq) seq :=
  ⟨rfl, rfl, h.trans (accepted_crtOnly t seq)⟩

theorem legalEffect_unseal_spec (hkind : leAt l 4 1 = 1) (hseal : v.crt.store.unsealed = false) (hroom : v.crt.store.trail.length ≤ 1022) :
    let t := v.legalEffect l
    v.accepts t (leAt l 12 4) ∧ t.crt.store.unsealed = true ∧ t.crt.timer = v.upNs ∧
      (v.crt.store.evcnt + 1 < 2 ^ 32 → t.crt.store.evcnt = v.crt.store.evcnt + 1) ∧
      t.crt.store.trail.length = v.crt.store.trail.length + 1 := by
  rw [legalEffect_unseal hkind hseal hroom]
  obtain ⟨e, n, b, hnote⟩ := trailFree_notes v 1 (some (leAt l 12 4))
  set w := v.trailFree 1 (some (leAt l 12 4))
  obtain ⟨chs, hcrt, -⟩ := sealTo_crt w.startTimer true
  have honly : v.crtOnly (w.startTimer.sealTo true) := (hnote.only.trans (updCrt_crtOnly w _)).trans (sealTo_crtOnly ..)
  have hstore : (w.startTimer.sealTo true).crt.store = { v.crt.store.noted e n b with unsealed := true } := by
    rw [hcrt]
    exact congrArg (fun x : Crt => { x.store with unsealed := true }) hnote.crt
  refine ⟨accepted_accepts honly _, congrArg CrtStore.unsealed hstore, ?_, fun h => ?_, ?_⟩
  · exact (congrArg Crt.timer hcrt).trans hnote.only.upNs
  · exact (congrArg CrtStore.evcnt hstore).trans (hnote.count (by decide) h)
  · exact (congrArg (fun x => x.trail.length) hstore).trans List.length_append

theorem legalEffect_benchmark_spec (hkind : leAt l 4 1 = 3) (hseal : v.crt.store.unsealed = true) (hroom : v.crt.store.trail.length ≤ 1022)
    (hok : v.recRefused (leAt l 5 1) (legalPay l) = false) :
    let t := v.legalEffect l
    v.accepts t (leAt l 12 4) ∧ t.bench (leAt l 5 1) = legalPay l ∧ (∀ i, i ≠ leAt l 5 1 → t.bench i = v.bench i) ∧ t.crt.timer = v.upNs ∧
      (v.crt.store.evcnt + 1 < 2 ^ 32 → t.crt.store.evcnt = v.crt.store.evcnt + 1) := by
  rw [legalEffect_benchmark hkind hseal hroom hok]
  obtain ⟨honly, e, n, b, hstore, hcount⟩ := putRecord_store v (leAt l 5 1) (leAt l 12 4) (legalPay l)
  generalize v.putRecord (leAt l 5 1) (leAt l 12 4) (legalPay l) = w at honly hstore ⊢
  have hbench (i : Nat) : w.bench i = if i = leAt l 5 1 then legalPay l else v.bench i := by
    rw [State.bench, hstore]
    exact Table.get_set ..
  refine ⟨accepted_accepts (honly.trans (updCrt_crtOnly _ _)) _, (hbench _).trans (if_pos rfl), fun i hi => (hbench i).trans (if_neg hi),
    honly.upNs, fun h => ?_⟩
  exact (congrArg CrtStore.evcnt hstore).trans (hcount h)

theorem legalEffect_program_spec (hkind : leAt l 4 1 = 4) (hseal : v.crt.store.unsealed = true) (hroom : v.crt.store.trail.length ≤ 1022) :
    let t := v.legalEffect l
    v.accepts t (leAt l 12 4) ∧ t.crt.held = some (legalPay l) ∧ t.crt.store.program = v.crt.store.program ∧ t.crt.timer = v.upNs ∧
      (v.crt.store.evcnt + 1 < 2 ^ 32 → t.crt.store.evcnt = v.crt.store.evcnt + 1) := by
  rw [legalEffect_program hkind hseal hroom]
  obtain ⟨e, n, b, hnote⟩ := trailAdd_notes v 5 (Config.programVersion (crcOf (legalPay l))) (leAt l 12 4) v.crt.store.swcrc (crcOf (legalPay l))
  unfold State.holdProgram
  dsimp only
  generalize v.trailAdd 5 (Config.programVersion (crcOf (legalPay l))) (leAt l 12 4) v.crt.store.swcrc (crcOf (legalPay l)) = w at hnote ⊢
  have honly : v.crtOnly (w.updCrt fun x => { x with held := some (legalPay l) }) := hnote.only.trans (updCrt_crtOnly ..)
  refine ⟨accepted_accepts (honly.trans (updCrt_crtOnly _ _)) _, rfl, (congrArg (fun x : Crt => x.store.program) hnote.crt :), honly.upNs, fun h => ?_⟩
  exact (congrArg (fun x : Crt => x.store.evcnt) hnote.crt).trans (hnote.count (by decide) h)

theorem legalEffect_trailAck_spec (hkind : leAt l 4 1 = 5)
    (hroom : (freeUpTo (leAt l 24 4) v.crt.store.trail).length + (if v.crt.store.unsealed then 2 else 1) ≤ 1024) :
    let left := freeUpTo (leAt l 24 4) v.crt.store.trail
    let t := v.legalEffect l
    v.accepts t (leAt l 12 4) ∧ t.crt.store.trail.take left.length = left ∧ t.crt.store.trail.length = left.length + 1 ∧
      t.crt.store.evcnt = v.crt.store.evcnt := by
  intro left
  rw [legalEffect_trailAck hkind hroom]
  obtain ⟨e, n, b, hnote⟩ := trailFree_notes (v.updStore fun x => { x with trail := left }) 7 (some (leAt l 12 4))
  have htrail := congrArg (fun x : Crt => x.store.trail) hnote.crt
  refine ⟨accepted_accepts (hnote.only.after (updStore_crtOnly ..)) _, ?_, ?_, ?_⟩
  · exact (congrArg (List.take left.length) htrail).trans List.take_left
  · exact (congrArg List.length htrail).trans List.length_append
  · exact (congrArg (fun x : Crt => x.store.evcnt) hnote.crt).trans (hnote.free rfl)

/-! ### The claim -/

theorem recRefused_of_store {t : State} (h : t.crt.store = s.crt.store) (i : Nat) (p : List Byte) : t.recRefused i p = s.recRefused i p := by
  have hbench (j : Nat) : t.bench j = s.bench j := by rw [State.bench, h, State.bench]
  simp only [State.recRefused, State.hasRec, State.lcmask, State.bw, hbench]

/-- Settles O32: the checks, then the effect of each kind. -/
theorem legalRequests : Obligations.LegalRequests := by
  unfold Obligations.LegalRequests
  intro s l hread s1 seq pay st left counted done
  set v := s.legalChecked l
  have honly : s1.crtOnly v := legalChecked_crtOnly hread
  have hstore : v.crt.store = st := legalChecked_store hread
  have hup : v.upNs = s.upNs := ((legalRead_eq_some hread).1.crtOnly.trans honly).upNs
  have hexec {i : Instr} {k : Nat} (hi : exec i s = .next (if s.legalKind k then s.legalGo else s)) (hk : s.legalKind k = true) :
      exec i s = .next s.legalGo := hi.trans (congrArg _ (if_pos hk))
  refine ⟨fun x hx hk hbad => ?_, fun hgood => ?_⟩
  · have hgo : exec x.1 s = .next (v.lstTo 4) := by
      rw [← legalGo_badFormat hread hbad]
      simp only [List.mem_cons, List.not_mem_nil, or_false] at hx
      rcases hx with rfl | rfl | rfl | rfl
      all_goals exact hexec rfl hk
    exact ⟨_, hgo, rfl, hstore⟩
  · have heffect {i : Instr} {k : Nat} (hi : exec i s = .next (if s.legalKind k then s.legalGo else s)) (hk : s.legalKind k = true) :
        exec i s = .next (v.legalEffect l) := by rw [hexec hi hk, legalGo_good hread hgood]
    have hdone {t : State} (h : v.accepts t seq) : done t := ⟨h.lst, h.seqno, (honly.trans h.only).spares⟩
    have hcounted {t : State} (h : v.crt.store.evcnt + 1 < 2 ^ 32 → t.crt.store.evcnt = v.crt.store.evcnt + 1) : counted t := by
      rwa [hstore] at h
    have hbench (i : Nat) : v.bench i = s.bench i := by rw [State.bench, hstore, State.bench]
    have hleft : left = freeUpTo (leAt l 24 4) v.crt.store.trail := by rw [hstore]
    rw [← hstore]
    refine ⟨fun hk hseal hroom => ?_, fun hk hseal hroom hok => ?_, fun hk hseal hroom => ?_, fun hk hroom => ?_⟩
    · obtain ⟨hacc, hopen, htimer, hcount, htrail⟩ := legalEffect_unseal_spec (leAt_kind hread hk (by decide)) hseal hroom
      exact ⟨_, heffect rfl hk, hdone hacc, hopen, htimer.trans hup, hcounted hcount, htrail⟩
    · rw [← recRefused_of_store hstore] at hok
      obtain ⟨hacc, hpay, hothers, htimer, hcount⟩ := legalEffect_benchmark_spec (leAt_kind hread hk (by decide)) hseal hroom hok
      exact ⟨_, heffect rfl hk, hdone hacc, hpay, fun i hi => (hothers i hi).trans (hbench i), htimer.trans hup, hcounted hcount⟩
    · obtain ⟨hacc, hheld, hprog, htimer, hcount⟩ := legalEffect_program_spec (leAt_kind hread hk (by decide)) hseal hroom
      exact ⟨_, heffect rfl hk, hdone hacc, hheld, hprog, htimer.trans hup, hcounted hcount⟩
    · rw [hleft] at hroom ⊢
      obtain ⟨hacc, htake, hlen, hcount⟩ := legalEffect_trailAck_spec (leAt_kind hread hk (by decide)) hroom
      exact ⟨_, heffect rfl hk, hdone hacc, htake, hlen, hcount⟩

end Sys2Proof.Machine
end

section
/-! SUPPORT. The end of a session, and the restart of the Cartouche (R234, R246, R250, R254). -/

namespace Sys2Proof.Machine

variable {s t u : State} {c : Nat}

/-! ### The end of a session (R254) -/

/-- A session that ends seals the Cartouche and takes a further entry into the trail; the rest of the Cartouche stays. -/
theorem sealed_crt (s : State) (kind : Nat) : s.crtOnly ((s.trailFree kind none).sealTo false) ∧ ∃ e n b,
    ((s.trailFree kind none).sealTo false).crt = { s.crt with store := { s.crt.store.noted e n b with unsealed := false } } := by
  obtain ⟨e, n, b, hnote⟩ := trailFree_notes s kind none
  obtain ⟨chs, hcrt, hchs⟩ := sealTo_crt (s.trailFree kind none) false
  refine ⟨hnote.only.trans (sealTo_crtOnly ..), e, n, b, ?_⟩
  rw [hcrt, hchs rfl, hnote.crt]

/-- A held program becomes the program when the session ends, and the Cartouche goes down. -/
theorem closeSession_spec (s : State) (kind : Nat) :
    let t := s.closeSession kind
    t.crt.store.unsealed = false ∧ s.spares t ∧
      (s.crt.held = none → t.crt.store.program = s.crt.store.program ∧ t.crt.down = s.crt.down) ∧
      ∀ p, s.crt.held = some p → t.crt.store.program = p ∧ t.crt.store.swcrc = crcOf p ∧ t.crt.down = true ∧ t.crt.held = none := by
  obtain ⟨honly, e, n, b, hcrt⟩ := sealed_crt s kind
  unfold State.closeSession
  generalize (s.trailFree kind none).sealTo false = w at honly hcrt
  have hheld : w.crt.held = s.crt.held := (congrArg Crt.held hcrt :)
  dsimp only
  rw [hheld]
  cases s.crt.held with
  | none => exact ⟨(congrArg (fun x : Crt => x.store.unsealed) hcrt :), honly.spares,
      fun _ => ⟨(congrArg (fun x : Crt => x.store.program) hcrt :), (congrArg Crt.down hcrt :)⟩, fun p hp => absurd hp (by simp)⟩
  | some p =>
    refine ⟨(congrArg (fun x : Crt => x.store.unsealed) hcrt :), (honly.trans (updCrt_crtOnly ..)).spares, fun hp => absurd hp (by simp), fun q hq => ?_⟩
    obtain rfl := Option.some.inj hq
    exact ⟨rfl, rfl, rfl, rfl⟩

/-! ### Channels at a restart (R234, R250) -/

theorem bench_of_recs (h : t.crt.store.recs = s.crt.store.recs) (i : Nat) : t.bench i = s.bench i := by rw [State.bench, h, State.bench]

theorem bw_of_recs (h : t.crt.store.recs = s.crt.store.recs) (c off : Nat) : t.bw c off = s.bw c off := by
  rw [State.bw, bench_of_recs h, State.bw]

theorem hasRec_of_recs (h : t.crt.store.recs = s.crt.store.recs) (c : Nat) : t.hasRec c = s.hasRec c := by
  rw [State.hasRec, bench_of_recs h, bw_of_recs h, State.hasRec]

theorem contOk_of_recs (h : t.crt.store.recs = s.crt.store.recs) (c : Nat) : t.contOk c = s.contOk c := by
  unfold State.contOk State.jointCount
  rw [bench_of_recs h, bw_of_recs h]

theorem startFails_of_recs (h : t.crt.store.recs = s.crt.store.recs) (c : Nat) (fail : Bool) : t.startFails c fail = s.startFails c fail := by
  rw [State.startFails, hasRec_of_recs h, bench_of_recs h, contOk_of_recs h, State.startFails]

theorem recState_of_recs (h : t.crt.store.recs = s.crt.store.recs) (c : Nat) : t.recState c = s.recState c := by
  unfold State.recState
  rw [hasRec_of_recs h, bw_of_recs h]

theorem badRecs_of_recs (h : t.crt.store.recs = s.crt.store.recs) : t.badRecs = s.badRecs := by
  unfold State.badRecs
  simp only [bench_of_recs h]

/-- A channel as a restart leaves it. -/
def State.restarted (s : State) (c : Nat) (fail : Bool) (x : CrtCh) : Prop :=
  x.startedAs (s.startFails c fail) (if s.startFails c fail then .off else s.recState c) (s.bw c 100 * oneD)

theorem restarted_of_recs (h : t.crt.store.recs = s.crt.store.recs) (c : Nat) (fail : Bool) (x : CrtCh) :
    t.restarted c fail x ↔ s.restarted c fail x := by
  rw [State.restarted, startFails_of_recs h, recState_of_recs h, bw_of_recs h, State.restarted]

/-- The channels of a list start anew, one after another. -/
theorem startChs_spec (fail : Bool) (l : List Nat) (s : State) :
    let t := l.foldl (fun s c => s.startCh c fail true) s
    s.crtOnly t ∧ { t.crt with chs := s.crt.chs, exc := s.crt.exc } = s.crt ∧
      ∀ c, c ∈ l ∨ s.restarted c fail (s.crtCh c) → s.restarted c fail (t.crtCh c) := by
  induction l generalizing s with
  | nil => exact ⟨.refl s, rfl, fun c h => h.resolve_left List.not_mem_nil⟩
  | cons d l ih =>
    obtain ⟨y, hset, hy⟩ := startCh_setsCh s d fail true
    obtain ⟨honly, hcrt, hall⟩ := ih (s.startCh d fail true)
    have hrecs : (s.startCh d fail true).crt.store.recs = s.crt.store.recs := congrArg CrtStore.recs hset.store
    refine ⟨hset.crtOnly.trans honly, ?_, fun c hc => ?_⟩
    · have h := hset.crt
      rw [← hcrt] at h
      exact h
    · rw [← restarted_of_recs hrecs]
      refine hall c ?_
      by_cases hcd : c = d
      · subst hcd
        rw [hset.ch, restarted_of_recs hrecs]
        exact .inr hy
      · rw [hset.others c hcd, restarted_of_recs hrecs]
        exact hc.imp_left fun h => (List.mem_cons.1 h).resolve_left hcd

/-! ### The restart (R233, R234) -/

theorem log_foldl_same (code sev die block : Nat) (l : List Nat) (s : State) :
    s.sameBut (l.foldl (fun s i => s.log code sev die block i 0 0) s) := by
  induction l generalizing s with
  | nil => rfl
  | cons i l ih => exact (log_same ..).trans (ih _)

/-- The report of a program that fails its check. -/
theorem progLog_crt (s : State) (p : Bool) :
    let t := if p then (s.freshWord 16).1.log 0x0801 4 0 0x09 (s.freshWord 16).2 0 0 else s
    s.crtOnly t ∧ t.crt = s.crt := by
  cases p
  · exact ⟨.refl s, rfl⟩
  · have hfree : s.crtOnly (s.freshWord 16).1 := rfl
    have hlog := log_same (s.freshWord 16).1 0x0801 4 0 0x09 (s.freshWord 16).2 0 0
    exact ⟨hfree.trans hlog.crtOnly, hlog.crt⟩

/-- Whether the program or a record fails its check. -/
def State.restartFails (s : State) : Bool := crcOf s.crt.store.program != s.crt.store.swcrc || !s.badRecs.isEmpty

/-- A restart seals the Cartouche, brings it up, and then starts the channels anew. -/
theorem crtRestart_eq (s : State) : ∃ u swid swcrc, s.crtOnly u ∧ u.crt.down = false ∧ u.crt.held = none ∧ u.crt.store.unsealed = false ∧
    u.crt.store.recs = s.crt.store.recs ∧
    s.crtRestart = ((List.range 8).foldl (fun v c => v.startCh c s.restartFails true) u).log 0x0800 1 0 0x09 0 swid swcrc := by
  unfold State.crtRestart
  extract_lets s1 progBad s2 bad s3 s4 s5
  obtain ⟨h2, hcrt2⟩ : s1.crtOnly s2 ∧ s2.crt = s1.crt := progLog_crt s1 progBad
  have h3 : s2.sameBut s3 := log_foldl_same ..
  have hcrt3 : s3.crt = s1.crt := h3.crt.trans hcrt2
  have honly3 : s.crtOnly s3 := ((updCrt_crtOnly s _).trans h2).trans h3.crtOnly
  have hfails : (progBad || !bad.isEmpty) = s.restartFails := by
    have hrecs : s2.crt.store.recs = s.crt.store.recs := (congrArg (fun x : Crt => x.store.recs) hcrt2 :)
    show (_ || !s2.badRecs.isEmpty) = _
    rw [badRecs_of_recs hrecs]
    rfl
  obtain ⟨h4, hdown, hheld, hseal, hrecs⟩ : s3.crtOnly s4 ∧ s4.crt.down = s3.crt.down ∧ s4.crt.held = s3.crt.held ∧ s4.crt.store.unsealed = false ∧
      s4.crt.store.recs = s3.crt.store.recs := by
    cases hopen : s3.crt.store.unsealed
    · have h : s4 = s3 := if_neg (by rw [hopen]; decide)
      rw [h]
      exact ⟨.refl s3, rfl, rfl, hopen, rfl⟩
    · have h : s4 = (s3.trailFree 6 none).sealTo false := if_pos hopen
      obtain ⟨honly, e, n, b, hcrt⟩ := sealed_crt s3 6
      rw [h, hcrt]
      exact ⟨honly, rfl, rfl, rfl, rfl⟩
  rw [hcrt3] at hdown hheld hrecs
  have hs5 : s5 = (List.range 8).foldl (fun v c => v.startCh c s.restartFails true) s4 := by rw [← hfails]
  exact ⟨s4, s5.crt.store.swid, s5.crt.store.swcrc, honly3.trans h4, hdown, hheld, hseal, hrecs, by rw [← hs5]⟩

theorem crtRestart_spec (s : State) : let t := s.crtRestart
    s.crtOnly t ∧ t.crt.down = false ∧ t.crt.held = none ∧ t.crt.store.unsealed = false ∧
      ∀ c, c < 8 → s.restarted c s.restartFails (t.crtCh c) := by
  obtain ⟨u, swid, swcrc, honly, hdown, hheld, hseal, hrecs, hrun⟩ := crtRestart_eq s
  obtain ⟨hfold, hcrt, hall⟩ := startChs_spec s.restartFails (List.range 8) u
  rw [hrun]
  generalize (List.range 8).foldl (fun v c => v.startCh c s.restartFails true) u = v at hfold hcrt hall
  have hlog := log_same v 0x0800 1 0 0x09 0 swid swcrc
  dsimp only
  rw [hlog.crt]
  refine ⟨(honly.trans hfold).trans hlog.crtOnly, ?_, ?_, ?_, fun c hc => ?_⟩
  · exact (congrArg Crt.down hcrt :).trans hdown
  · exact (congrArg Crt.held hcrt :).trans hheld
  · exact (congrArg (fun x : Crt => x.store.unsealed) hcrt :).trans hseal
  · rw [crtCh_eq_of_crt hlog.crt, ← restarted_of_recs hrecs]
    exact hall c (.inl (List.mem_range.2 hc))

/-- A channel is held in OFF at a restart if the program or a record fails its check, or its own pair of records does not agree. -/
theorem startFails_restart (hc : c < 8) : s.startFails c s.restartFails = true ↔
    crcOf s.crt.store.program ≠ s.crt.store.swcrc ∨ s.badRecs ≠ [] ∨ (s.hasRec c = true ∧ s.contOk c = false) := by
  have hbad : s.hasRec c = true → recCrcOk (s.bench c) = false → s.badRecs ≠ [] := by
    intro hrec hcrc
    have hmem : c ∈ s.badRecs := by
      simp only [State.hasRec, Bool.and_eq_true] at hrec
      exact List.mem_filter.2 ⟨List.mem_range.2 (by omega), by rw [hrec.1, hcrc]; rfl⟩
    exact List.ne_nil_of_mem hmem
  simp only [State.startFails, State.restartFails, Bool.or_eq_true, bne_iff_ne, Bool.not_eq_true', List.isEmpty_eq_false_iff, Bool.and_eq_true,
    Bool.and_eq_false_iff]
  constructor
  · rintro ((h | h) | ⟨hrec, hcrc | hpair⟩)
    · exact .inl h
    · exact .inr (.inl h)
    · exact .inr (.inl (hbad hrec hcrc))
    · exact .inr (.inr ⟨hrec, hpair⟩)
  · rintro (h | h | ⟨hrec, hpair⟩)
    · exact .inl (.inl h)
    · exact .inl (.inr h)
    · exact .inr ⟨hrec, .inr hpair⟩

/-! ### The mailbox while the seal is open (R248, R254) -/

theorem CrtCh.issue_unsealed (x : CrtCh) (ws : List W32) : ((x.issue true ws).getD 0 0).getLsbD 24 = false := by
  cases ws with
  | nil => exact BitVec.getLsbD_zero
  | cons w ws =>
    show (w &&& ~~~(1#32 <<< 24)).getLsbD 24 = false
    rw [BitVec.getLsbD_and]
    have hmask : (~~~(1#32 <<< 24)).getLsbD 24 = false := by decide
    rw [hmask, Bool.and_false]

theorem mailbox_unsealed (h : s.crt.store.unsealed = true) (c : Nat) : ((s.mailbox c).getD 0 0).getLsbD 24 = false := by
  rw [State.mailbox, h]
  split_ifs
  · exact CrtCh.issue_unsealed ..
  · exact BitVec.getLsbD_zero

/-- Settles O33: the end of a session, the restart, and the mailbox while the seal is open. -/
theorem sealAndRestart : Obligations.SealAndRestart := by
  unfold Obligations.SealAndRestart
  intro s c
  refine ⟨fun hup hopen => ?_, fun hpow hwrst hdown => ?_, fun hopen => mailbox_unsealed hopen c.val⟩
  · have hreseal : exec .reseal s = .next (s.closeSession 2) := by
      show execReseal s = _
      rw [execReseal, if_pos hup, State.reseal, if_pos hopen]
    have htimeout (h : s.crt.timer + sessionNs ≤ s.upNs) : exec .timeout s = .next (s.closeSession 3) :=
      congrArg Host.Outcome.next (if_pos (by simp [hup, hopen, h]))
    exact ⟨⟨_, hreseal, closeSession_spec s 2⟩, fun h => ⟨_, htimeout h, closeSession_spec s 3⟩⟩
  · have hexec : exec .cartoucheRestart s = .next s.crtRestart := congrArg Host.Outcome.next (if_pos (by simp [hpow, hwrst, hdown]))
    obtain ⟨honly, hdown, hheld, hseal, hall⟩ := crtRestart_spec s
    have hfails := startFails_restart (s := s) c.isLt
    obtain ⟨hfail, hst, htare, hzero, hmg⟩ := hall c.val c.isLt
    refine ⟨_, hexec, hdown, hseal, hheld, honly.spares, fun hbad => ?_, fun hgood => ?_, htare, hzero, hmg⟩
    · rw [if_pos (hfails.2 hbad)] at hst
      exact ⟨hst, hfail.trans (hfails.2 hbad)⟩
    · have hno := Bool.eq_false_iff.2 (mt hfails.1 hgood)
      rw [if_neg (mt hfails.1 hgood)] at hst
      exact ⟨hst, hfail.trans hno⟩

end Sys2Proof.Machine
end

section
/-! SUPPORT. A cell in reset, in which no event entry fires, no item waits, no axis has a command and no sheet answers: what the Contour
die and the redundancy interlock still do keeps it so (R97, R209, R225, R346, R372). -/

namespace Sys2Proof.Machine

variable {s t : State}

/-! ### A cell at rest -/

theorem Table.get_wipe {α : Type} (d : Nat → α) (t : Table α) (p : Nat → Bool) (k : Nat) :
    Table.get d (t.wipe p) k = if p k then d k else Table.get d t k := by
  induction t with
  | nil => simp [Table.wipe]
  | cons x t ih =>
    obtain ⟨j, v⟩ := x
    unfold Table.wipe at ih ⊢
    rw [List.filter_cons]
    by_cases hj : p j = true
    · rw [if_neg (by simp [hj]), ih, Table.get_cons]
      split_ifs with hk hjk
      · rfl
      · exact absurd (hjk ▸ hj) hk
      · rfl
    · rw [if_pos (by simp [hj]), Table.get_cons, Table.get_cons, ih]
      split_ifs with hjk hk
      · exact absurd (hjk ▸ hk) hj
      · rfl
      · rfl
      · rfl

/-- An event entry is off after reset. -/
theorem evKind_reset : ∀ e : Fin 512, fld (regReset (rg 0 1 (0x8000 + 4 * e.val))).toNat 0 2 = 0 := by decide +kernel

/-- Every event entry is off. -/
def State.entriesOff (s : State) : Prop := ∀ e, e < 512 → s.evKind e = 0

theorem entriesOff_wipeRegs (p : Nat → Bool) (h : ∀ e, e < 512 → p (rg 0 1 (0x8000 + 4 * e)) = false → s.evKind e = 0) :
    (s.wipeRegs p).entriesOff := by
  intro e he
  rw [State.evKind, State.rf, State.rd, State.wipeRegs, Table.get_wipe]
  split_ifs with hp
  · exact evKind_reset ⟨e, he⟩
  · exact h e he (by simpa using hp)

/-- No event entry fires, no slot is taken, no axis differs from its reset state, no sheet answers, and the bus is off. -/
structure State.atRest (s : State) : Prop where
  entries : s.entriesOff
  slots : s.wdx.slots = []
  trv : s.trv = []
  sheets : ∀ d, d ≠ 0 → s.answers d = false
  bus : s.bus.st = .off

/-- What of a state its rest depends on. -/
theorem State.atRest.of (h : s.atRest) (hregs : t.regs = s.regs) (hslots : t.wdx.slots = s.wdx.slots) (htrv : t.trv = s.trv) (hsys : t.sys.member = s.sys.member)
    (hsfy : t.sfy.sheets = s.sfy.sheets) (hbus : t.bus.st = .off) : t.atRest where
  entries e he := by rw [State.evKind, State.rf, State.rd, hregs]; exact h.entries e he
  slots := hslots.trans h.slots
  trv := htrv.trans h.trv
  sheets d hd := by rw [State.answers, State.sheetFitted, State.sheet, hsys, hsfy]; exact h.sheets d hd
  bus := hbus

theorem State.atRest.items (h : s.atRest) : s.wdx.items = [] := by rw [Wdx.items, h.slots]; rfl

theorem State.atRest.ite {p : Prop} [Decidable p] {u : State} (ht : t.atRest) (hu : u.atRest) : (if p then t else u).atRest := by
  split_ifs <;> assumption

theorem State.atRest.foldl {α : Type} {f : State → α → State} (hf : ∀ (s : State) a, s.atRest → (f s a).atRest) (l : List α) (h : s.atRest) :
    (l.foldl f s).atRest := by
  induction l generalizing s with
  | nil => exact h
  | cons a l ih => exact ih (hf s a h)

/-! ### Events and reports of a cell at rest -/

theorem atRest_log (h : s.atRest) (code sev die block obj d0 d1 : Nat) : (s.log code sev die block obj d0 d1).atRest := by
  have hlog : ∃ b, s.log code sev die block obj d0 d1 = { s with fb := b } := by
    unfold State.log
    dsimp only
    split_ifs
    · exact ⟨_, rfl⟩
    · exact ⟨_, rfl⟩
    · exact ⟨_, rfl⟩
  obtain ⟨b, hb⟩ := hlog
  rw [hb]
  exact h.of rfl rfl rfl rfl rfl h.bus

/-- A firing is counted at most. -/
theorem atRest_fired (h : s.atRest) (e : Nat) : (s.fired e).atRest :=
  .ite h (h.of rfl rfl rfl rfl rfl h.bus)

theorem evKind_fired (s : State) (e f : Nat) : (s.fired e).evKind f = s.evKind f := by
  unfold State.fired
  split_ifs
  · rfl
  · rfl

theorem fireCoal_eq_fired {e : Nat} (h : s.evKind e = 0) (word : Nat) : s.fireCoal e word = s.fired e :=
  if_pos ((evKind_fired s e e).trans h)

theorem fireHeld_eq_fired {e : Nat} (h : s.evKind e = 0) (src : EvSrc) (word : Nat) : s.fireHeld src e word = s.fired e :=
  if_pos ((evKind_fired s e e).trans h)

theorem rf_nine_lt (s : State) (r : Nat) : s.rf r 0 9 < 512 := Nat.mod_lt _ (by decide)

theorem atRest_fireMasked (h : s.atRest) (r c word : Nat) : (s.fireMasked r c word).atRest := by
  refine .ite ?_ h
  rw [fireCoal_eq_fired (h.entries _ (rf_nine_lt s r))]
  exact atRest_fired h _

theorem atRest_ctmEvent (h : s.atRest) (code arm low : Nat) : (s.ctmEvent code arm low).atRest := by
  refine .ite ?_ h
  rw [fireHeld_eq_fired (h.entries _ (rf_nine_lt s _))]
  exact atRest_fired h _

/-! ### The redundancy interlock of a cell at rest -/

theorem atRest_rdnBus (h : s.atRest) (r : Rdn) {b : Bus} (hb : b.st = .off) : { s with rdn := r, bus := b }.atRest := h.of rfl rfl rfl rfl rfl hb

theorem atRest_rdn (h : s.atRest) (r : Rdn) : { s with rdn := r }.atRest := atRest_rdnBus h r h.bus

theorem atRest_rdnEnter (h : s.atRest) (x : RdnSt) : (s.rdnEnter x).atRest := by
  unfold State.rdnEnter
  refine .ite h (atRest_fireMasked (atRest_log (atRest_rdnBus h _ ?_) ..) ..)
  have hcold : ¬((x = .standby ∨ x = .isolated) ∧ s.bus.st = .coldstart) := by
    rw [h.bus]
    rintro ⟨-, hst⟩
    cases hst
  exact (if_neg hcold).trans h.bus

theorem atRest_isolate (h : s.atRest) (cause : Nat) : (s.isolate cause).atRest := atRest_rdnEnter (atRest_rdn h _) .isolated

theorem atRest_rdnRefresh (h : s.atRest) : s.rdnRefresh.atRest := .ite (atRest_isolate (atRest_rdn h _) _) (atRest_rdn h _)

theorem atRest_rdnSafety (h : s.atRest) (code : Nat) : (s.rdnSafety code).atRest := by
  have hbad : { s with rdn := { s.rdn with safetyBad := true } }.rdnRefresh.atRest := atRest_rdnRefresh (atRest_rdn h _)
  exact .ite (.ite (atRest_isolate hbad _) hbad) h

/-! ### The Contour die of a cell at rest -/

theorem atRest_updCtm (h : s.atRest) (f : Ctm → Ctm) : (s.updCtm f).atRest := h.of rfl rfl rfl rfl rfl h.bus

/-- A flag of CTM is no event entry. -/
theorem atRest_setCtmFlag (h : s.atRest) (lo w x : Nat) : (s.setRf (ctmReg 0x14) lo w x).atRest where
  entries e he := by
    have hne : rg 0 1 (0x8000 + 4 * e) ≠ ctmReg 0x14 := by
      unfold ctmReg rg
      omega
    have hrd : (s.setRf (ctmReg 0x14) lo w x).rd (rg 0 1 (0x8000 + 4 * e)) = s.rd (rg 0 1 (0x8000 + 4 * e)) :=
      (Table.get_set ..).trans (if_neg hne)
    rw [State.evKind, State.rf, hrd]
    exact h.entries e he
  slots := h.slots
  trv := h.trv
  sheets := h.sheets
  bus := h.bus

theorem atRest_ctmDiag (h : s.atRest) (code arm obj : Nat) : (s.ctmDiag code arm obj).atRest :=
  atRest_rdnSafety (atRest_ctmEvent (atRest_log (atRest_setCtmFlag (atRest_updCtm h _) ..) ..) ..) _

theorem atRest_reportFound (l : List (Nat × Nat × Nat)) (h : s.atRest) : (reportFound l s).atRest := by
  induction l generalizing s with
  | nil => exact h
  | cons x l ih => exact ih (atRest_ctmDiag h ..)

theorem atRest_ctmReport (h : s.atRest) : s.ctmReport.atRest := atRest_reportFound _ (atRest_updCtm h _)

theorem atRest_driveOuts (h : s.atRest) : s.driveOuts.atRest := by
  rw [driveOuts_eq]
  exact atRest_ctmReport (atRest_updCtm (atRest_ctmReport (atRest_updCtm h _)) _)

/-- The axes of an arm are on a sheet, which does not answer. -/
theorem armCommand_of_atRest (h : s.atRest) (n code : Nat) : s.armCommand n code = s := by
  unfold State.armCommand
  split
  · rfl
  · exact if_pos (by rw [h.sheets (n / 3 + 1) (Nat.succ_ne_zero _)]; rfl)

theorem atRest_armEnter (h : s.atRest) (n : Nat) (a : CtmArm) (sst : Nat) : (s.armEnter n a sst).atRest := by
  unfold State.armEnter
  extract_lets old s1 s2
  have h1 : s1.atRest := atRest_updCtm h _
  have h2 : s2.atRest := atRest_ctmEvent h1 ..
  rw [armCommand_of_atRest h2, armCommand_of_atRest h2]
  exact .ite h1 (.ite h2 (.ite h2 h2))

theorem atRest_armSto (h : s.atRest) (n cause : Nat) : (s.armSto n cause).atRest :=
  .ite h (.ite (atRest_updCtm h _) (atRest_armEnter h ..))

theorem atRest_allSto (h : s.atRest) (cause : Nat) : (s.allSto cause).atRest :=
  atRest_driveOuts (h.foldl (fun _ _ hs => atRest_armSto hs ..) _)

end Sys2Proof.Machine
end

section
/-! SUPPORT. What WRST_N low resets and what it keeps (R234, R295, R310, R372–R374). -/

namespace Sys2Proof.Machine

variable {s t u v : State}

/-! ### The sheets -/

/-- `t` is what WRST_N strips `s` to before the cores start anew: no event entry, slot, engine, channel or core keeps its state, and hub SRAM
keeps its bytes. -/
structure State.stripped (s t : State) : Prop where
  entries : t.entriesOff
  slots : t.wdx.slots = []
  trv : t.trv = []
  bus : t.bus.st = .off
  engines : t.dma = [] ∧ t.sle = [] ∧ t.tri = []
  cores : t.cores = []
  sys : t.sys = s.sys
  pin : t.sfy.wrstPin = s.sfy.wrstPin ∧ t.sfy.lowAt = s.sfy.lowAt
  byte : ∀ a, a < 0x02000000 → t.byte a = s.byte a

/-- A sheet that WRST_N resets. -/
def State.sheetReset (s : State) (d : Nat) : State := (s.wipeSheet d).setSheet d {}

theorem sheet_sheetReset (s : State) (d k : Nat) : (s.sheetReset d).sheet k = if k = d then {} else s.sheet k :=
  Table.get_set (fun _ => ({} : Sheet)) s.sfy.sheets d k {}

theorem sheetReset_stripped (h : s.stripped t) (d : Nat) : s.stripped (t.sheetReset d) where
  entries := by
    have hwipe := entriesOff_wipeRegs (s := t) (fun r => r / 2 ^ 24 == d) fun e he _ => h.entries e he
    exact hwipe
  slots := h.slots
  trv := by
    show t.trv.wipe (fun k => k / 32 == d) = []
    rw [h.trv]
    rfl
  bus := h.bus
  engines := by
    obtain ⟨hdma, hsle, htri⟩ := h.engines
    refine ⟨?_, ?_, ?_⟩
    · show t.dma.wipe (fun k => k / 16 == d) = []
      rw [hdma]
      rfl
    · show t.sle.drop d = []
      rw [hsle]
      rfl
    · show t.tri.drop d = []
      rw [htri]
      rfl
  cores := by
    show t.cores.wipe (fun k => k / 16 == d) = []
    rw [h.cores]
    rfl
  sys := h.sys
  pin := h.pin
  byte a ha := by
    have hwipe := Table.get_wipe memDefault t.mem
      (fun x => decide (0x10000000 + (d - 1) * 0x01000000 ≤ x) && decide (x < 0x10000000 + (d - 1) * 0x01000000 + 0x01000000)) a
    rw [if_neg (by simp only [Bool.and_eq_true, decide_eq_true_eq]; omega)] at hwipe
    exact hwipe.trans (h.byte a ha)

theorem sheetResets_stripped (l : List Nat) (h : s.stripped t) :
    s.stripped (l.foldl State.sheetReset t) ∧ ∀ d, d ∈ l ∨ t.sheet d = {} → (l.foldl State.sheetReset t).sheet d = {} := by
  induction l generalizing t with
  | nil => exact ⟨h, fun d hd => hd.resolve_left List.not_mem_nil⟩
  | cons k l ih =>
    obtain ⟨hall, hsheet⟩ := ih (sheetReset_stripped h k)
    refine ⟨hall, fun d hd => hsheet d ?_⟩
    rw [sheet_sheetReset]
    by_cases hdk : d = k
    · exact .inr (if_pos hdk)
    · rw [if_neg hdk]
      exact hd.imp_left fun hmem => (List.mem_cons.1 hmem).resolve_left hdk

/-- With every fitted sheet reset no sheet answers. -/
theorem stripped_atRest (h : s.stripped t) (hsheet : ∀ d, d ∈ t.sheetList → t.sheet d = {}) : t.atRest where
  entries := h.entries
  slots := h.slots
  trv := h.trv
  bus := h.bus
  sheets d hd := by
    have hd0 : (d == 0) = false := beq_eq_false_iff_ne.2 hd
    by_cases hfit : t.sheetFitted d = true
    · have hmem : d ∈ t.sheetList := by
        simp only [State.sheetFitted, Bool.and_eq_true, decide_eq_true_eq] at hfit
        exact List.mem_map.2 ⟨d - 1, List.mem_range.2 (by omega), by omega⟩
      rw [State.answers, hsheet d hmem, hd0, hfit]
      rfl
    · rw [State.answers, hd0, Bool.eq_false_iff.2 hfit]
      rfl

/-! ### WRST_N is low -/

/-- `t` is what WRST_N low leaves of `s`. -/
structure State.warmHeld (s t : State) : Prop where
  rest : t.atRest
  engines : t.dma = [] ∧ t.sle = [] ∧ t.tri = []
  item : ∀ c, (t.core c).item = none
  mode : t.sys.mode = .boot
  pin : t.sfy.wrstPin = s.sfy.wrstPin ∧ t.sfy.lowAt = s.sfy.lowAt
  byte : ∀ a, a < 0x02000000 → t.byte a = s.byte a

theorem warmKeeps_wdx {o : Nat} (h : o < 65536) : warmKeeps (rg 0 1 o) = false := by
  have hblock : fld (rg 0 1 o) 16 8 = 1 := by
    unfold fld rg
    omega
  unfold warmKeeps
  rw [hblock]
  exact Bool.and_false _

theorem warmCores_item (l : List Nat) (h : ∀ c, (t.core c).item = none) (c : CoreId) : ((l.foldl State.warmCore t).core c).item = none := by
  induction l generalizing t with
  | nil => exact h c
  | cons i l ih =>
    refine ih (t := t.warmCore i) fun c => ?_
    have hcore : (t.warmCore i).core c = if coreKey c = coreKey ⟨0, i⟩ then { lmEpoch := some t.freeCtr } else t.core c :=
      Table.get_set (fun _ => ({} : Core)) t.cores (coreKey ⟨0, i⟩) (coreKey c) { lmEpoch := some t.freeCtr }
    rw [hcore]
    split_ifs
    · rfl
    · exact h c

theorem warmCores_rest (l : List Nat) (t : State) :
    { l.foldl State.warmCore t with cores := t.cores, freeCtr := t.freeCtr } = t := by
  induction l generalizing t with
  | nil => rfl
  | cons i l ih =>
    have h := congrArg (fun x : State => { x with cores := t.cores, freeCtr := t.freeCtr }) (ih (t.warmCore i))
    exact h

/-- `t` is `s` but for bank control, cores, the Cartouche, Surveyor and free values. -/
def State.coldOnly (s t : State) : Prop :=
  { t with memDie := s.memDie, cores := s.cores, crt := s.crt, sfy := s.sfy, freeCtr := s.freeCtr } = s

theorem State.coldOnly.trans (h : s.coldOnly t) (k : t.coldOnly u) : s.coldOnly u := by
  unfold State.coldOnly at *
  rw [← h]; rw [← k]

theorem setMd_coldOnly (s : State) (d : Nat) (x : MemDie) : s.coldOnly (s.setMd d x) := rfl

theorem updCrt_coldOnly (s : State) (f : Crt → Crt) : s.coldOnly (s.updCrt f) := rfl

theorem warmCores_coldOnly (l : List Nat) (s : State) : s.coldOnly (l.foldl State.warmCore s) := by
  have h := congrArg (fun x : State => { x with memDie := s.memDie, crt := s.crt, sfy := s.sfy }) (warmCores_rest l s)
  exact h

/-- A survey that WRST_N ends leaves a free result. -/
theorem survLost_coldOnly (s : State) :
    let t := if s.sfy.surv.isSome then (s.freshWord 13).1.updSfy fun y => { y with surv := none, result := (s.freshWord 13).2 } else s
    s.coldOnly t ∧ t.cores = s.cores ∧ { t.sfy with surv := s.sfy.surv, result := s.sfy.result } = s.sfy := by
  split_ifs
  · exact ⟨rfl, rfl, rfl⟩
  · exact ⟨rfl, rfl, rfl⟩

/-- What is stripped stays at rest while cores, bank control, Cartouche and Surveyor are reset and the cell goes to BOOT. -/
theorem warmHeld_of_stripped (h : s.stripped u) (hrest : u.atRest) (hitem : ∀ c, (v.core c).item = none)
    (heq : u.coldOnly v)
    (hsfy : { v.sfy with surv := u.sfy.surv, result := u.sfy.result } = u.sfy) (f : Sfy → Sfy) (g : Sys → Sys)
    (hf : ∀ y, (f y).sheets = y.sheets ∧ (f y).wrstPin = y.wrstPin ∧ (f y).lowAt = y.lowAt) (hg : ∀ y, (g y).member = y.member ∧ (g y).mode = .boot) :
    s.warmHeld ((v.updSfy f).updSys g) where
  rest := by
    have hsys : v.sys = u.sys := (congrArg State.sys heq :)
    have hsheets : v.sfy.sheets = u.sfy.sheets := (congrArg Sfy.sheets hsfy :)
    have hbus : v.bus = u.bus := (congrArg State.bus heq :)
    refine hrest.of (congrArg State.regs heq :) (congrArg (fun x : State => x.wdx.slots) heq :) (congrArg State.trv heq :) ?_ ?_ ?_
    · exact (hg _).1.trans (congrArg Sys.member hsys)
    · exact (hf _).1.trans hsheets
    · exact (congrArg Bus.st hbus).trans hrest.bus
  engines := by
    have hdma : v.dma = u.dma := (congrArg State.dma heq :)
    have hsle : v.sle = u.sle := (congrArg State.sle heq :)
    have htri : v.tri = u.tri := (congrArg State.tri heq :)
    obtain ⟨hd, hs, ht⟩ := h.engines
    exact ⟨hdma.trans hd, hsle.trans hs, htri.trans ht⟩
  item := hitem
  mode := (hg _).2
  pin := by
    have hpin : v.sfy.wrstPin = u.sfy.wrstPin := (congrArg Sfy.wrstPin hsfy :)
    have hlow : v.sfy.lowAt = u.sfy.lowAt := (congrArg Sfy.lowAt hsfy :)
    obtain ⟨hp, hl⟩ := h.pin
    exact ⟨(hf _).2.1.trans (hpin.trans hp), (hf _).2.2.trans (hlow.trans hl)⟩
  byte a ha := by
    have hmem : v.mem = u.mem := (congrArg State.mem heq :)
    exact (congrArg (fun x => Table.get memDefault x a) hmem).trans (h.byte a ha)

theorem warmHold_warmHeld (s : State) : s.warmHeld s.warmHold := by
  unfold State.warmHold
  extract_lets s1 s2 s3 s4 s5 s6 s7 s8 s9
  obtain ⟨m, h2⟩ : ∃ m, s2 = { s1 with mer := m } := by
    unfold s2
    split_ifs
    · exact ⟨_, rfl⟩
    · exact ⟨s1.mer, rfl⟩
  have hoff : s1.entriesOff := entriesOff_wipeRegs _ fun e he hkeep => by simp [warmKeeps_wdx (o := 0x8000 + 4 * e) (by omega)] at hkeep
  have h3 : s.stripped s3 := by
    have hregs : s3.regs = s1.regs := (congrArg State.regs h2 :)
    refine ⟨fun e he => ?_, rfl, rfl, rfl, ⟨rfl, rfl, rfl⟩, rfl, (congrArg State.sys h2 :), ?_, fun a _ => ?_⟩
    · rw [State.evKind, State.rf, State.rd, hregs]
      exact hoff e he
    · have hsfy : s3.sfy = s.sfy := (congrArg State.sfy h2 :)
      rw [hsfy]
      exact ⟨rfl, rfl⟩
    · have hmem : s3.mem = s.mem := (congrArg State.mem h2 :)
      rw [State.byte, hmem, State.byte]
  obtain ⟨h4, hsheet⟩ := sheetResets_stripped s3.sheetList h3
  have hlist : s4.sheetList = s3.sheetList := by
    have hsys : s4.sys = s3.sys := h4.sys.trans h3.sys.symm
    rw [State.sheetList, hsys, State.sheetList]
  have hrest4 : s4.atRest := stripped_atRest h4 fun d hd => hsheet d (.inl (hlist ▸ hd))
  have hitem : ∀ c, (s6.core c).item = none := warmCores_item _ fun c => by
    have hcores : s5.cores = [] := h4.cores
    rw [State.core, hcores]
    rfl
  have h7 : s4.coldOnly s7 := (setMd_coldOnly s4 0 _).trans ((warmCores_coldOnly _ s5).trans (updCrt_coldOnly s6 _))
  obtain ⟨h8, hcores8, hsfy8⟩ : s7.coldOnly s8 ∧ s8.cores = s7.cores ∧ { s8.sfy with surv := s7.sfy.surv, result := s7.sfy.result } = s7.sfy := survLost_coldOnly s7
  have hcold : s4.coldOnly s8 := h7.trans h8
  have hsfy7 : s7.sfy = s4.sfy := (congrArg State.sfy (warmCores_rest (List.range 4) s5) :)
  rw [hsfy7] at hsfy8
  have hitem8 : ∀ c, (s8.core c).item = none := fun c => by
    rw [State.core, hcores8]
    exact hitem c
  exact warmHeld_of_stripped h4 hrest4 hitem8 hcold hsfy8 _ _ (fun _ => ⟨rfl, rfl, rfl⟩) fun _ => ⟨rfl, rfl⟩

/-! ### The Contour die and the interlock under WRST_N -/

/-- `t` is `s` but for what the Contour die, its events and the interlock may write, and for free values. -/
def State.warmOnly (s t : State) : Prop :=
  { t with regs := s.regs, memDie := s.memDie, fb := s.fb, wdx := s.wdx, trv := s.trv, bus := s.bus, ctm := s.ctm, rdn := s.rdn,
           freeCtr := s.freeCtr } = s

theorem State.warmOnly.trans (h : s.warmOnly t) (k : t.warmOnly u) : s.warmOnly u := by
  unfold State.warmOnly at *
  rw [← h]; rw [← k]

theorem State.contourOnly.warmOnly (h : s.contourOnly t) : s.warmOnly t := by
  have k := congrArg (fun x : State => { x with freeCtr := s.freeCtr }) h
  exact k

/-- A load that WRST_N ends leaves a free result. -/
theorem loadLost_warmOnly (s : State) :
    let t := if s.ctm.load.isSome then (s.freshWord 12).1.updCtm fun c => { c with load := none, checking := false, result := (s.freshWord 12).2 } else s
    s.warmOnly t ∧ (s.atRest → t.atRest) := by
  split_ifs
  · exact ⟨rfl, fun h => h.of rfl rfl rfl rfl rfl h.bus⟩
  · exact ⟨rfl, id⟩

theorem Ctm.sampled.wrst {c d : Ctm} (h : c.sampled d) : d.wrst = c.wrst := (congrArg Ctm.wrst h.rest :)

theorem Ctm.armsOnly.wrst {c d : Ctm} (h : c.armsOnly d) : d.wrst = c.wrst := (congrArg Ctm.wrst h :)

theorem allSto_wrst (s : State) (cause : Nat) : (s.allSto cause).ctm.wrst = s.ctm.wrst := by
  obtain ⟨u, hu, hrest, -⟩ := allSto_arms s cause
  rw [hu, (driveOuts_sampled u).wrst, hrest.wrst]

theorem warmContour_spec (h : s.atRest) : s.warmOnly s.warmContour ∧ s.warmContour.atRest ∧ s.warmContour.ctm.wrst = true := by
  unfold State.warmContour
  extract_lets s1
  obtain ⟨honly, hrest⟩ : s.warmOnly s1 ∧ (s.atRest → s1.atRest) := loadLost_warmOnly s
  generalize s1 = v at honly hrest
  refine ⟨honly.trans ((updCtm_contourOnly v _).trans (allSto_contourOnly ..)).warmOnly, atRest_allSto (atRest_updCtm (hrest h) _) _, ?_⟩
  exact allSto_wrst ..

theorem warmRdn_spec (h : s.atRest) : s.warmOnly s.warmRdn ∧ s.warmRdn.atRest := by
  unfold State.warmRdn
  extract_lets s1
  have honly : s.contourOnly s1 := .ite (rdnEnter_contourOnly ..) (.refl s)
  have hrest : s1.atRest := .ite (atRest_rdnEnter h _) h
  generalize s1 = v at honly hrest
  exact ⟨(honly.trans rfl).warmOnly, atRest_rdn hrest _⟩

end Sys2Proof.Machine
end

section
/-! SUPPORT. What the boot steps leave of the resets, the pins and the image in use (R370, R371). -/

namespace Sys2Proof.Machine

variable {s t u : State}

/-! ### The resets, the pins and the image in use -/

/-- What the boot steps leave as it is: the reset inputs, pins and cell mode, whether an image runs and which, and the level of WRST_N. -/
def State.bootView (s : State) : Sys × Bool × Bool × Bool := (s.sys, s.sfy.booted, s.sfy.useB, s.sfy.wrstPin)

theorem State.contourOnly.bootView (h : s.contourOnly t) : t.bootView = s.bootView := (congrArg State.bootView h :)

theorem State.sameBut.bootView (h : s.sameBut t) : t.bootView = s.bootView := h.contourOnly.bootView

theorem State.wroteIn.bootView {p : Nat → Prop} (h : s.wroteIn t p) : t.bootView = s.bootView := (congrArg State.bootView h.rest :)

theorem State.ite_bootView {p : Prop} [Decidable p] {v : Sys × Bool × Bool × Bool} (ht : t.bootView = v) (hu : u.bootView = v) :
    (if p then t else u).bootView = v := by
  split_ifs <;> assumption

theorem State.foldl_bootView {α : Type} {f : State → α → State} (hf : ∀ s a, (f s a).bootView = s.bootView) (l : List α) (s : State) :
    (l.foldl f s).bootView = s.bootView := by
  induction l generalizing s with
  | nil => rfl
  | cons a l ih => exact (ih _).trans (hf s a)

@[simp] theorem log_bootView (s : State) (code sev die block obj d0 d1 : Nat) : (s.log code sev die block obj d0 d1).bootView = s.bootView :=
  (log_same ..).bootView

@[simp] theorem fireMasked_bootView (s : State) (r c word : Nat) : (s.fireMasked r c word).bootView = s.bootView := (fireMasked_same ..).bootView

@[simp] theorem writeMem_bootView (s : State) (a : Nat) (l : List Byte) : (s.writeMem a l).1.bootView = s.bootView := (writeMem_wroteIn ..).bootView

/-! ### Sheets -/

theorem sheetTo_bootView (s : State) (d : Nat) (st : SheetSt) : (s.sheetTo d st).bootView = s.bootView :=
  ((fireMasked_bootView ..).trans (log_bootView ..)).trans rfl

theorem releaseCores_bootView (s : State) (d : Nat) : (s.releaseCores d).bootView = s.bootView :=
  State.foldl_bootView (f := fun s i => s.updCore ⟨d, i⟩ fun x => { x with relClk := s.mer.clocks }) (fun _ _ => rfl) _ s

theorem putInService_bootView (s : State) (d : Nat) : (s.putInService d).bootView = s.bootView := releaseCores_bootView _ d

theorem bootAdmit_bootView (s : State) (d failed : Nat) : (s.bootAdmit d failed).bootView = s.bootView := by
  unfold State.bootAdmit
  extract_lets s1
  have h1 : s1.bootView = s.bootView := sheetTo_bootView s d .readmit
  generalize s1 = v at h1
  refine State.ite_bootView ?_ ?_
  · rw [sheetTo_bootView, putInService_bootView, h1]
  · rw [sheetTo_bootView, log_bootView, h1]

/-! ### Sections -/

theorem applyConfig_bootView (s : State) (l : List Byte) : (s.applyConfig l).bootView = s.bootView := by
  unfold State.applyConfig
  extract_lets w node partner s1 s2 s3 s4 paired
  have h1 : s1.bootView = s.bootView := State.ite_bootView rfl rfl
  have h2 : s2.bootView = s1.bootView := rfl
  have h3 : s3.bootView = s2.bootView := State.ite_bootView rfl rfl
  have h4 : s4.bootView = s3.bootView := rfl
  exact Eq.trans (b := s4.bootView) rfl (h4.trans (h3.trans (h2.trans h1)))

theorem copySect_bootView (s : State) (x : BSect) : (s.copySect x).bootView = s.bootView := by
  unfold State.copySect
  split
  · rfl
  · exact State.ite_bootView (writeMem_bootView ..) (State.ite_bootView (log_bootView ..) rfl)

theorem readMem_bootView {a n src : Nat} {o : Option (List Byte)} (h : s.readMem a n src = (t, o)) : t.bootView = s.bootView := by
  have k := (readMem_same s a n src).bootView
  rwa [h] at k

theorem busEvent_bootView (s : State) (code mid low : Nat) : (s.busEvent code mid low).bootView = s.bootView := fireMasked_bootView ..

theorem updBus_bootView (s : State) (f : Bus → Bus) : (s.updBus f).bootView = s.bootView := rfl

theorem loadGraticule_bootView (s : State) : s.loadGraticule.bootView = s.bootView := by
  unfold State.loadGraticule
  extract_lets a finish
  have hf (t : State) (r i : Nat) : (finish t r i).bootView = t.bootView := busEvent_bootView ..
  refine State.ite_bootView (hf ..) ?_
  split
  next t hr => exact (hf ..).trans (readMem_bootView hr)
  next t h hr =>
    have ht := readMem_bootView hr
    refine State.ite_bootView ((hf ..).trans ht) (State.ite_bootView ((hf ..).trans ht) ?_)
    split
    next u hu => exact (hf ..).trans ((readMem_bootView hu).trans ht)
    next u l hu =>
      have hut : u.bootView = s.bootView := (readMem_bootView hu).trans ht
      exact (hf ..).trans (State.ite_bootView ((updBus_bootView ..).trans hut) hut)

theorem bootGraticule_bootView (s : State) (x : BSect) : (s.bootGraticule x).bootView = s.bootView := by
  unfold State.bootGraticule
  extract_lets s1
  have h1 : s1.bootView = s.bootView := (loadGraticule_bootView _).trans (writeMem_bootView s x.dest x.data)
  exact State.ite_bootView h1 ((log_bootView ..).trans h1)

theorem ite_fst_bootView {α : Type} {v : Sys × Bool × Bool × Bool} {p : Prop} [Decidable p] {x y : State × α} (hx : x.1.bootView = v)
    (hy : y.1.bootView = v) : (if p then x else y).1.bootView = v := by
  split_ifs <;> assumption

theorem checkImage_bootView (s : State) (a : Nat) : (s.checkImage a).1.bootView = s.bootView := by
  unfold State.checkImage
  refine ite_fst_bootView rfl ?_
  split
  next t hr => exact readMem_bootView hr
  next t h hr =>
    rw [← readMem_bootView hr]
    refine ite_fst_bootView rfl (ite_fst_bootView rfl (ite_fst_bootView rfl (ite_fst_bootView rfl ?_)))
    split
    next u hu => exact readMem_bootView hu
    next u l hu =>
      rw [← readMem_bootView hu]
      refine ite_fst_bootView rfl ?_
      split
      · rfl
      next ss _ =>
      refine ite_fst_bootView rfl (ite_fst_bootView ?_ ?_)
      · exact ite_fst_bootView rfl (ite_fst_bootView rfl (ite_fst_bootView rfl (ite_fst_bootView rfl rfl)))
      · split
        · rfl
        · exact ite_fst_bootView rfl (ite_fst_bootView rfl (ite_fst_bootView rfl (ite_fst_bootView rfl rfl)))

theorem loadCheck_bootView (s : State) (agree : Bool) : (s.loadCheck agree).bootView = s.bootView := by
  rw [loadCheck_eq, ← checkImage_bootView s s.ctm.ldAddr]
  generalize (s.checkImage s.ctm.ldAddr).1 = t
  exact State.ite_bootView (loadEnd_contourOnly ..).bootView (State.ite_bootView (loadEnd_contourOnly ..).bootView rfl)

theorem bootSafety_bootView (s : State) (x : BSect) : (s.bootSafety x).bootView = s.bootView := by
  unfold State.bootSafety
  extract_lets s1 s2
  have h1 : s1.bootView = s.bootView := writeMem_bootView s x.dest x.data
  have h2 : s2.bootView = s1.bootView := (imageEffect_contourOnly _).bootView.trans (loadCheck_bootView _ _)
  exact State.ite_bootView (h2.trans h1) ((log_bootView ..).trans (h2.trans h1))

theorem bootPost_bootView (s : State) (l : List Byte) : (s.bootPost l).bootView = s.bootView := by
  unfold State.bootPost
  extract_lets refused
  have hrefused : (refused s).bootView = s.bootView := log_bootView ..
  split
  · exact State.ite_bootView hrefused (arrive_same ..).bootView
  · exact hrefused

/-! ### The bus -/

theorem setBusSt_bootView (s : State) (st : BusSt) : (s.setBusSt st).bootView = s.bootView :=
  State.ite_bootView rfl ((busEvent_bootView ..).trans (updBus_bootView ..))

theorem busListen_bootView (s : State) (reason : Nat) : (s.busListen reason).bootView = s.bootView := by
  unfold State.busListen
  extract_lets r s1 s2
  have h1 : s1.bootView = s.bootView := updBus_bootView ..
  have h2 : s2.bootView = s1.bootView := State.ite_bootView (log_bootView ..) rfl
  exact (setBusSt_bootView ..).trans (h2.trans h1)

theorem busEn_bootView (s : State) (on : Bool) : (s.busEn on).bootView = s.bootView := by
  unfold State.busEn
  extract_lets s1
  have h1 : s1.bootView = s.bootView := rfl
  exact State.ite_bootView ((busListen_bootView ..).trans h1) (State.ite_bootView ((setBusSt_bootView ..).trans h1) h1)

/-! ### The steps -/

theorem bootSteps_bootView (s : State) (fails : List (Nat × Nat)) (safety : Bool) : (s.bootSteps fails safety).bootView = s.bootView := by
  unfold State.bootSteps
  extract_lets ss of
  split
  · rfl
  next c _ _ =>
    extract_lets s1 w ds s2 s3 s4 s5 s6 s7
    have h1 : s1.bootView = s.bootView := applyConfig_bootView ..
    have h2 : s2.bootView = s1.bootView := State.foldl_bootView (fun _ _ => bootAdmit_bootView ..) _ s1
    have h3 : s3.bootView = s2.bootView := State.foldl_bootView copySect_bootView _ s2
    have h4 : s4.bootView = s3.bootView := State.foldl_bootView bootGraticule_bootView _ s3
    have h5 : s5.bootView = s4.bootView := State.ite_bootView (State.foldl_bootView bootSafety_bootView _ s4) rfl
    have h6 : s6.bootView = s5.bootView := State.foldl_bootView (fun _ _ => State.foldl_bootView bootPost_bootView _ _) _ s5
    have h7 : s7.bootView = s6.bootView := rfl
    have h : s7.bootView = s.bootView := h7.trans (h6.trans (h5.trans (h4.trans (h3.trans (h2.trans h1)))))
    exact State.ite_bootView ((busEn_bootView ..).trans h) h

/-- Without an image that runs there are no boot steps. -/
theorem bootSteps_of_rom (h : s.sfy.booted = false) (fails : List (Nat × Nat)) (safety : Bool) : s.bootSteps fails safety = s := by
  unfold State.bootSteps State.sectsInUse
  rw [h]
  rfl

end Sys2Proof.Machine
end

section
/-! SUPPORT. The image that a boot selects, and the resets (R301, R344, R370–R374): the claim. -/

namespace Sys2Proof.Machine

variable {s t u : State}

/-! ### The image that a boot selects (R370) -/

theorem scanFlash_state (s : State) (b : Bool) : ∃ f, (s.scanFlash b).1 = { s with sfy := f } := by
  unfold State.scanFlash
  dsimp only
  split_ifs
  · exact ⟨_, rfl⟩
  · exact ⟨_, rfl⟩
  · exact ⟨_, rfl⟩

/-! What Surveyor reads of a flash depends on Surveyor alone, and for the check on the member of the family. -/

theorem flash_congr (h : t.sfy = s.sfy) (b : Bool) : t.flash b = s.flash b := by rw [State.flash, h, State.flash]

theorem flashStat_congr (h : t.sfy = s.sfy) (b : Bool) (o : Nat) : t.flashStat b o = s.flashStat b o := by
  rw [State.flashStat, flash_congr h, State.flashStat]

theorem flashState_congr (h : t.sfy = s.sfy) (b : Bool) : t.flashState b = s.flashState b := by
  rw [State.flashState, flashStat_congr h, State.flashState]

theorem trialsUsed_congr (h : t.sfy = s.sfy) (b : Bool) : t.trialsUsed b = s.trialsUsed b := by
  rw [State.trialsUsed, flashStat_congr h, State.trialsUsed]

theorem flashPut_congr (h : t.sfy = s.sfy) (b : Bool) (o : Nat) (l : List Byte) : (t.flashPut b o l).sfy = (s.flashPut b o l).sfy := by
  unfold State.flashPut State.updSfy
  rw [flash_congr h, h]

theorem reportFlash_congr (h : t.sfy = s.sfy) (b : Bool) (st seq : Nat) : (t.reportFlash b st seq).sfy = (s.reportFlash b st seq).sfy := by
  unfold State.reportFlash State.updSfy
  rw [h]

theorem bootCheck_congr (h : t.sfy = s.sfy) (hm : t.sys.member = s.sys.member) (b : Bool) : t.bootCheck b = s.bootCheck b := by
  unfold State.bootCheck State.bootImage State.topKey
  rw [flash_congr h, h, hm]

theorem ite_sfy (p : Prop) [Decidable p] (t u : State) : (if p then t else u).sfy = if p then t.sfy else u.sfy := apply_ite ..

theorem scanFlash_congr (h : t.sfy = s.sfy) (hm : t.sys.member = s.sys.member) (b : Bool) : (t.scanFlash b).1.sfy = (s.scanFlash b).1.sfy := by
  unfold State.scanFlash
  extract_lets r seq t1 t2 r' seq' s1 s2
  have hr : r = r' := bootCheck_congr h hm b
  have hseq : seq = seq' := by
    unfold seq seq'
    rw [flash_congr h]
  have h1 : t1.sfy = s1.sfy := by
    unfold t1 s1
    rw [hseq]
    exact flashPut_congr h ..
  have h2 : t2.sfy = s2.sfy := by
    unfold t2 s2
    rw [flashState_congr h1, trialsUsed_congr h1, ite_sfy, ite_sfy, h1]
    congr 1
    exact flashPut_congr h1 ..
  rw [hr, hseq, flashState_congr h2]
  by_cases hbad : r' ≠ 0
  · rw [if_pos hbad, if_pos hbad]
    exact reportFlash_congr (flashPut_congr h ..) ..
  · rw [if_neg hbad, if_neg hbad]
    exact reportFlash_congr h2 ..

theorem pickFlash_congr (h : t.sfy = s.sfy) : t.pickFlash = s.pickFlash := by
  unfold State.pickFlash State.flashSeq
  rw [h]

end Sys2Proof.Machine
end

section
/-! SUPPORT. What a boot selects and what every boot keeps (R301, R370, R371). -/

namespace Sys2Proof.Machine

variable {s t u v : State}

/-- `t` keeps the SYS inputs, the bytes and the cores of `s`. -/
def State.calm (s t : State) : Prop := t.sys = s.sys ∧ t.mem = s.mem ∧ t.cores = s.cores

theorem State.calm.trans (h : s.calm t) (k : t.calm u) : s.calm u := by
  obtain ⟨hsys, hmem, hcores⟩ := h
  obtain ⟨ksys, kmem, kcores⟩ := k
  exact ⟨ksys.trans hsys, kmem.trans hmem, kcores.trans hcores⟩

theorem State.calm.byte (h : s.calm t) (a : Nat) : t.byte a = s.byte a := by rw [State.byte, h.2.1, State.byte]

theorem State.calm.core (h : s.calm t) (c : CoreId) : t.core c = s.core c := by rw [State.core, h.2.2, State.core]

theorem log_calm (s : State) (code sev die block obj d0 d1 : Nat) : s.calm (s.log code sev die block obj d0 d1) :=
  ⟨(log_same ..).sys, (log_same ..).mem, (log_same ..).cores⟩

theorem freshWord_calm (s : State) (n : Nat) : s.calm (s.freshWord n).1 := ⟨rfl, rfl, rfl⟩

theorem updSfy_calm (s : State) (f : Sfy → Sfy) : s.calm (s.updSfy f) := ⟨rfl, rfl, rfl⟩

theorem scanFlash_calm (s : State) (b : Bool) : s.calm (s.scanFlash b).1 := by
  obtain ⟨f, hf⟩ := scanFlash_state s b
  rw [hf]
  exact ⟨rfl, rfl, rfl⟩

/-- Running an image clears at most one trial of its flash. -/
theorem runImage_spec (s : State) (b : Bool) : s.calm (s.runImage b) ∧ (s.runImage b).sfy.booted = true ∧ (s.runImage b).sfy.useB = b := by
  unfold State.runImage State.useTrial
  extract_lets x s1
  have h1 : s.calm s1 := by
    unfold s1
    split_ifs
    · split
      · exact ⟨rfl, rfl, rfl⟩
      · exact ⟨rfl, rfl, rfl⟩
    · exact ⟨rfl, rfl, rfl⟩
  exact ⟨h1, rfl, rfl⟩

/-- The image that a boot picks, once both flashes have been checked, is the one in use; without one none runs. -/
theorem selectImage_spec (s : State) :
    let u := ((s.scanFlash false).1.scanFlash true).1
    s.calm s.selectImage ∧
      (∀ b, u.pickFlash = some b → s.selectImage.sfy.booted = true ∧ s.selectImage.sfy.useB = b) ∧
      (u.pickFlash = none → s.selectImage.sfy.booted = false) := by
  have hscan : s.calm ((s.scanFlash false).1.scanFlash true).1 := (scanFlash_calm ..).trans (scanFlash_calm ..)
  unfold State.selectImage
  dsimp only
  generalize ((s.scanFlash false).1.scanFlash true).1 = u at hscan
  cases u.pickFlash with
  | some b =>
    obtain ⟨hcalm, hbooted, huse⟩ := runImage_spec u b
    refine ⟨hscan.trans (hcalm.trans (log_calm ..)), fun b' hb => ?_, nofun⟩
    obtain rfl := Option.some.inj hb
    dsimp only
    rw [(log_same ..).sfy]
    exact ⟨hbooted, huse⟩
  | none =>
    have hcalm := (freshWord_calm u 2).trans ((freshWord_calm _ (2 ^ 32)).trans (updSfy_calm _ fun y => { y with booted := false }))
    refine ⟨hscan.trans (hcalm.trans (log_calm ..)), nofun, fun _ => ?_⟩
    dsimp only
    rw [(log_same ..).sfy]
    rfl

/-! ### BOOT -/

theorem releaseCores_state (s : State) (d : Nat) : ∃ cs, s.releaseCores d = { s with cores := cs } := by
  unfold State.releaseCores
  generalize List.range (coresOf d) = l
  induction l generalizing s with
  | nil => exact ⟨_, rfl⟩
  | cons i l ih =>
    obtain ⟨cs, h⟩ := ih (s.updCore ⟨d, i⟩ fun x => { x with relClk := s.mer.clocks })
    exact ⟨cs, h⟩

theorem releaseFold_relClk (k : CoreId) (hk : k.die = 0) (l : List Nat) (s : State) :
    let t := l.foldl (fun s i => s.updCore ⟨0, i⟩ fun x => { x with relClk := s.mer.clocks }) s
    (k.idx ∈ l ∨ (s.core k).relClk = s.mer.clocks) → (t.core k).relClk = s.mer.clocks := by
  induction l generalizing s with
  | nil => exact fun h => h.resolve_left List.not_mem_nil
  | cons i l ih =>
    intro t h
    refine ih (s.updCore ⟨0, i⟩ fun x => { x with relClk := s.mer.clocks }) ?_
    rw [State.core_updCore]
    by_cases hi : k.idx = i
    · have hkey : coreKey k = coreKey ⟨0, i⟩ := by rw [coreKey, coreKey, hk, hi]
      rw [if_pos hkey]
      exact .inr rfl
    · refine (h.imp_left fun hmem => (List.mem_cons.1 hmem).resolve_left hi).imp_right fun hclk => ?_
      split_ifs
      · rfl
      · exact hclk

theorem releaseCores_relClk (s : State) (k : CoreId) (hdie : k.die = 0) (hidx : k.idx < 4) : ((s.releaseCores 0).core k).relClk = s.mer.clocks :=
  releaseFold_relClk k hdie (List.range 4) s (.inl (List.mem_range.2 hidx))

/-- The memory of every fitted die is ready when power returns. -/
theorem memReady_state (l : List Nat) (s : State) :
    ∃ m, l.foldl (fun s d => s.setMd d { s.md d with initDone := true }) s = { s with memDie := m } := by
  induction l generalizing s with
  | nil => exact ⟨_, rfl⟩
  | cons d l ih =>
    obtain ⟨m, h⟩ := ih (s.setMd d { s.md d with initDone := true })
    exact ⟨m, h⟩

end Sys2Proof.Machine
end

section
/-! SUPPORT. The resets (R234, R301, R317, R344, R370–R374): the claim. -/

namespace Sys2Proof.Machine

variable {s t u v : State}

/-! ### WRST_N -/

theorem wrstNLow_unmasked (s : State) (h : s.powered = true) (hpin : s.sfy.wrstPin = false) (hmask : s.sfy.masked = false) :
    Answers .wrstNLow s fun t => t.sys.wrst = true ∧ t.sfy.wrstPin = true ∧ t.sfy.lowAt = s.upNs ∧ t.sys.mode = .boot ∧
      t.wdx.items = [] ∧ t.dma = [] ∧ t.trv = [] ∧ t.sle = [] ∧ t.tri = [] ∧ t.bus.st = .off ∧ t.ctm.wrst = true ∧
      (∀ a, a < 0x02000000 → t.byte a = s.byte a) ∧ ∀ c, c.die = 0 → c.idx < 4 → (t.core c).item = none := by
  refine ⟨_, rfl, ?_⟩
  rw [if_neg (by simp [h, hpin]), if_neg (by simp [hmask])]
  extract_lets s1 s2
  have hheld : s1.warmHeld s1.warmHold := warmHold_warmHeld s1
  unfold s2
  generalize s1.warmHold = w at hheld
  obtain ⟨hcontour, hrest, hwrst⟩ := warmContour_spec hheld.rest
  obtain ⟨hrdn, hrest⟩ := warmRdn_spec hrest
  have hctm : w.warmContour.warmRdn.ctm.wrst = true := by rw [State.warmRdn_ctm, hwrst]
  have honly : w.warmOnly w.warmContour.warmRdn := hcontour.trans hrdn
  generalize w.warmContour.warmRdn = x at hrest hctm honly
  obtain ⟨hdma, hsle, htri⟩ := hheld.engines
  obtain ⟨hp, hl⟩ := hheld.pin
  have hsfy : x.sfy = w.sfy := (congrArg State.sfy honly :)
  have hsys : x.sys = w.sys := (congrArg State.sys honly :)
  refine ⟨rfl, ?_, ?_, ?_, hrest.items, ?_, hrest.trv, ?_, ?_, hrest.bus, hctm, fun a ha => ?_, fun c _ _ => ?_⟩
  · show x.sfy.wrstPin = true
    rw [hsfy, hp]
    rfl
  · show x.sfy.lowAt = s.upNs
    rw [hsfy, hl]
    rfl
  · show x.sys.mode = .boot
    rw [hsys, hheld.mode]
  · exact (congrArg State.dma honly :).trans hdma
  · exact (congrArg State.sle honly :).trans hsle
  · exact (congrArg State.tri honly :).trans htri
  · have hmem : x.mem = w.mem := (congrArg State.mem honly :)
    exact (congrArg (fun m => Table.get memDefault m a) hmem).trans (hheld.byte a ha)
  · have hcores : x.cores = w.cores := (congrArg State.cores honly :)
    have hitem := hheld.item c
    rw [State.core, ← hcores] at hitem
    exact hitem

/-- An edge of WRST_N that the mask hides. -/
theorem maskedEdge_low (s : State) :
    (s.maskedEdge true).sys = s.sys ∧ (s.maskedEdge true).sfy = { s.sfy with wrstPin := true, lowAt := s.upNs } ∧ s.spares (s.maskedEdge true) := by
  have hcalm := (freshWord_calm s (2 ^ 32)).trans (updSfy_calm _ fun y => { y with wrstPin := true, lowAt := s.upNs })
  have h := hcalm.trans (log_calm _ 0x0010 1 0 0x0A 0 (s.freshWord (2 ^ 32)).2 1)
  exact ⟨h.1, (log_same ..).sfy, h.byte, h.core⟩

theorem maskedEdge_high (s : State) :
    (s.maskedEdge false).sys = s.sys ∧ (s.maskedEdge false).sfy = { s.sfy with wrstPin := false, heldMs := s.lowMs, stuck := false } ∧
      s.spares (s.maskedEdge false) := by
  have h := (updSfy_calm s fun y => { y with wrstPin := false, heldMs := s.lowMs, stuck := false }).trans (log_calm _ 0x0010 1 0 0x0A 0 s.lowMs 1)
  exact ⟨h.1, (log_same ..).sfy, h.byte, h.core⟩

/-- Without the SAFETY sections the boot steps leave the Contour die as it is. -/
theorem bootSteps_ctm (s : State) (fails : List (Nat × Nat)) : (s.bootSteps fails false).ctm = s.ctm := by
  unfold State.bootSteps
  extract_lets ss of
  split
  · rfl
  · extract_lets s1 w ds s2 s3 s4 s5 s6 s7
    have h4 : s4.ctm = s.ctm := by simp -implicitDefEqProofs [s4, s3, s2, s1]
    have h5 : s5 = s4 := if_neg Bool.false_ne_true
    have h7 : s7.ctm = s5.ctm := by simp -implicitDefEqProofs [s7, s6, State.updSfy]
    have h : s7.ctm = s.ctm := h7.trans ((congrArg State.ctm h5).trans h4)
    rw [State.ite_ctm, State.busEn_ctm, h, ite_self]

theorem warmRelease_spec (s : State) (fails : List (Nat × Nat)) :
    let t := s.warmRelease fails
    t.sys.wrst = false ∧ t.sfy.wrstPin = s.sfy.wrstPin ∧ t.sfy.useB = s.sfy.useB ∧ t.ctm.wrst = false ∧
      (s.sfy.booted = false → ∀ a, t.byte a = s.byte a) := by
  unfold State.warmRelease
  extract_lets s1 s2 a b s3
  have hsys1 : s1.sys.wrst = false := rfl
  have hctm1 : s1.ctm.wrst = false := rfl
  have hsfy1 : s1.sfy = s.sfy := rfl
  have hmem1 : s1.mem = s.mem := rfl
  have hview : s2.bootView = s1.bootView := (releaseCores_bootView ..).trans (log_bootView ..)
  have hctm : s2.ctm = s1.ctm := (State.releaseCores_ctm ..).trans (State.log_ctm ..)
  have hmem : s2.mem = s1.mem := by
    obtain ⟨cs, hcs⟩ := releaseCores_state (s1.log 0x0010 1 0 0x0A 0 s1.lowMs (b01 s1.sfy.masked)) 0
    unfold s2
    rw [hcs]
    exact (log_same ..).mem
  have hsteps : (s3.bootSteps fails false).bootView = s1.bootView := (bootSteps_bootView ..).trans hview
  have hsys : (s3.bootSteps fails false).sys = s1.sys := (congrArg Prod.fst hsteps :)
  have huse : (s3.bootSteps fails false).sfy.useB = s1.sfy.useB := (congrArg (fun x => x.2.2.1) hsteps :)
  have hpin : (s3.bootSteps fails false).sfy.wrstPin = s1.sfy.wrstPin := (congrArg (fun x => x.2.2.2) hsteps :)
  refine ⟨by rw [hsys, hsys1], by rw [hpin, hsfy1], by rw [huse, hsfy1], ?_, fun hrom a => ?_⟩
  · rw [bootSteps_ctm]
    exact (congrArg Ctm.wrst hctm).trans hctm1
  · have hbooted : s2.sfy.booted = s1.sfy.booted := (congrArg (fun x => x.2.1) hview :)
    have hrest : s3.bootSteps fails false = s3 := bootSteps_of_rom (s := s3) (hbooted.trans ((congrArg Sfy.booted hsfy1).trans hrom)) fails false
    show (s3.bootSteps fails false).byte a = s.byte a
    rw [hrest]
    exact congrArg (fun m => Table.get memDefault m a) (hmem.trans hmem1)

/-- A reset of more than 10 s is reported by an entry and an event, which keep bytes and cores. -/
theorem resetStuck_reports (s : State) (h : s.powered = true) (hwrst : s.sys.wrst = true) (hstuck : s.sfy.stuck = false)
    (hlong : 10000000000 ≤ s.upNs - s.sfy.lowAt) : Answers .resetStuck s fun t => t.sfy.stuck = true ∧ s.spares t := by
  have hms : 10000 ≤ s.lowMs := by
    rw [State.lowMs]
    omega
  refine ⟨_, rfl, ?_⟩
  rw [if_pos (by simp [h, hwrst, hstuck, hms])]
  extract_lets s1
  have hlog : (s.updSfy fun y => { y with stuck := true }).sameBut s1 := log_same ..
  have hcalm : s.calm s1 := (updSfy_calm s _).trans ⟨hlog.sys, hlog.mem, hlog.cores⟩
  have hsfy : s1.sfy.stuck = true := (congrArg Sfy.stuck hlog.sfy :)
  have hevent := sfyEvent_same ((s1.freshWord 256).1.freshWord 256).1 3 (s1.freshWord 256).2 ((s1.freshWord 256).1.freshWord 256).2
  have hall : s.calm _ := (hcalm.trans ((freshWord_calm s1 256).trans (freshWord_calm _ 256))).trans ⟨hevent.sys, hevent.mem, hevent.cores⟩
  exact ⟨(congrArg Sfy.stuck hevent.sfy).trans hsfy, hall.byte, hall.core⟩

/-! ### BOOT -/

theorem boot_selects (s : State) (c p : Bool) (f : List (Nat × Nat)) (hoff : s.powered = false) (hheld : s.held = false) :
    Answers (.boot c p f) s fun t =>
      let u := ((s.scanFlash false).1.scanFlash true).1
      t.sys.porst = false ∧ t.sys.internal = false ∧ t.sys.strapCompat = c ∧ t.sys.priSel = p ∧
      (∀ b, u.pickFlash = some b → t.sfy.booted = true ∧ t.sfy.useB = b) ∧
      (u.pickFlash = none → t.sfy.booted = false ∧ (∀ a, t.byte a = s.byte a) ∧ ∀ k, k.die = 0 → k.idx < 4 → (t.core k).relClk = s.mer.clocks) := by
  refine ⟨_, rfl, ?_⟩
  rw [if_neg (by simp [hoff, hheld])]
  extract_lets u s1 m s2 s3
  obtain ⟨md, h3⟩ : ∃ md, s3 = { s1 with memDie := md } := by
    obtain ⟨md, h⟩ := memReady_state s2.sheetList s2
    exact ⟨md, h⟩
  obtain ⟨cs, hcs⟩ := releaseCores_state s3 0
  have hclk (k : CoreId) (hdie : k.die = 0) (hidx : k.idx < 4) : ((s3.releaseCores 0).core k).relClk = s.mer.clocks := by
    have h := releaseCores_relClk s3 k hdie hidx
    rw [h3] at h ⊢
    exact h
  have hfour : s3.sfy = s.sfy ∧ s3.sys = s1.sys ∧ s3.mem = s.mem := by
    rw [h3]
    exact ⟨rfl, rfl, rfl⟩
  obtain ⟨hsfy3, hsys3, hmem3⟩ := hfour
  generalize s3.releaseCores 0 = w at hcs hclk
  have hwsfy : w.sfy = s.sfy := (congrArg State.sfy hcs).trans hsfy3
  have hwsys : w.sys = s1.sys := (congrArg State.sys hcs).trans hsys3
  have hwmem : w.mem = s.mem := (congrArg State.mem hcs).trans hmem3
  have hmember : w.sys.member = s.sys.member := (congrArg Sys.member hwsys :)
  have hscan : ((w.scanFlash false).1.scanFlash true).1.sfy = u.sfy :=
    scanFlash_congr (scanFlash_congr hwsfy hmember false) (by rw [(scanFlash_calm w false).1, (scanFlash_calm s false).1, hmember]) true
  have hpick : ((w.scanFlash false).1.scanFlash true).1.pickFlash = u.pickFlash := pickFlash_congr hscan
  obtain ⟨hcalm, hsome, hnone⟩ := selectImage_spec w
  rw [hpick] at hsome hnone
  generalize w.selectImage = x at hcalm hsome hnone
  have hview := bootSteps_bootView x f true
  have hsys : (x.bootSteps f true).sys = s1.sys := ((congrArg Prod.fst hview :).trans hcalm.1).trans hwsys
  have hbooted : (x.bootSteps f true).sfy.booted = x.sfy.booted := (congrArg (fun v => v.2.1) hview :)
  have huse : (x.bootSteps f true).sfy.useB = x.sfy.useB := (congrArg (fun v => v.2.2.1) hview :)
  rw [hsys, hbooted, huse]
  refine ⟨rfl, rfl, rfl, rfl, hsome, fun h => ?_⟩
  rw [bootSteps_of_rom (hnone h)]
  refine ⟨hnone h, fun a => (hcalm.byte a).trans (congrArg (fun m => Table.get memDefault m a) hwmem), fun k hdie hidx => ?_⟩
  rw [hcalm.core]
  exact hclk k hdie hidx

/-- Settles O48: power-on and the internal reset start from a fresh state, WRST_N strips what it holds at rest (`State.warmHeld`), the
mask keeps all but the pin, and BOOT selects an image by the flashes alone. -/
theorem resets : Obligations.Resets := by
  intro s wiped
  refine ⟨⟨_, rfl, ?_⟩, fun h => ⟨_, rfl, ?_⟩, fun h => ⟨_, rfl, ?_⟩, fun h hpin => ⟨wrstNLow_unmasked s h hpin, fun hmask => ⟨_, rfl, ?_⟩⟩,
    fun h hpin hmask => ⟨_, rfl, ?_⟩, fun f h hpin hmask => ⟨_, rfl, ?_⟩, resetStuck_reports s, boot_selects s⟩
  · exact ⟨⟨rfl, rfl, rfl, rfl, rfl, rfl, rfl, rfl, rfl, rfl, rfl, rfl, rfl, rfl, rfl, rfl⟩, rfl, rfl, rfl⟩
  · rw [State.internalReset, if_neg (by simp [h])]
    exact ⟨⟨rfl, rfl, rfl, rfl, rfl, rfl, rfl, rfl, rfl, rfl, rfl, rfl, rfl, rfl, rfl, rfl⟩, rfl, rfl, rfl⟩
  · exact if_pos h
  · rw [if_neg (by simp [h, hpin]), if_pos hmask]
    exact maskedEdge_low s
  · rw [if_neg (by simp [h, hpin]), if_pos hmask]
    exact maskedEdge_high s
  · rw [if_neg (by simp [h, hpin]), if_neg (by simp [hmask])]
    exact warmRelease_spec (s.updSfy fun y => { y with wrstPin := false, heldMs := s.lowMs, stuck := false }) f

end Sys2Proof.Machine
end

section
/-! SUPPORT. Conversions: what waits at an input, what a complete set hands to its channel, and what no conversion changes (R235–R237). -/

namespace Sys2Proof.Machine

variable {s t u : State} {i c : Fin 8} {reading : Int} {ovr low : Bool} {lag : Nat}

/-! ### What an input keeps -/

/-- What an input of the Cartouche keeps. -/
def State.input (s : State) (k : Nat) : CrtIn := Table.get (fun _ => {}) s.crt.ins k

/-- Conversions of an input in a row at which the sense lines were low, the present one included. -/
def State.lowRun (s : State) (i : Nat) (low : Bool) : Nat := if low then min 10 ((s.input i).low + 1) else 0

/-- The time-stamp of a conversion. -/
def State.convTime (s : State) (lag : Nat) : Nat := ((s.nowNs : Int) - lag + clampI (-1000) 1000 (Config.convErr s.freeCtr)).toNat

/-- An input keeps a conversion, or nothing where it belongs to no channel. -/
def State.keeps (s : State) (i : Nat) (w : Option CrtSample) (low : Bool) : State :=
  { s with freeCtr := s.freeCtr + 1, crt := { s.crt with ins := Table.set (fun _ => {}) s.crt.ins i { wait := w, low := s.lowRun i low } } }

theorem input_keeps (s : State) (i : Nat) (w : Option CrtSample) (low : Bool) (k : Nat) :
    (s.keeps i w low).input k = if k = i then { wait := w, low := s.lowRun i low } else s.input k := Table.get_set ..

theorem keeps_crtOnly (s : State) (i : Nat) (w : Option CrtSample) (low : Bool) : s.crtOnly (s.keeps i w low) := rfl

/-- The inputs of a channel. -/
def State.inputs (s : State) (c : Nat) : List Nat := (List.range 8).filter fun k => bitN (s.lcmask c) k

/-- Inputs hand over what they keep. -/
def State.handOver (s : State) (mine : List Nat) : State :=
  s.updCrt fun x => { x with ins := Table.mapV {} (fun (z : CrtIn) => z) (x.ins.map fun kv => (kv.1, if mine.contains kv.1 then { kv.2 with wait := none } else kv.2)) }

/-- The sum of what the inputs of a list keep. -/
def State.sumOf (s : State) (mine : List Nat) : Int := ((mine.map fun k => (s.input k).wait).map fun o => (o.map (·.v)).getD 0).foldl (· + ·) 0

/-- A channel takes the set of its inputs once it is complete. -/
def State.completed (s : State) (c : Nat) (mine : List Nat) (at_ : Nat) (bad : Bool) : State :=
  if (mine.map fun k => (s.input k).wait).all Option.isSome then (s.handOver mine).chanSet c { v := s.sumOf mine, at_ := at_, bad := bad } else s

theorem exec_conversion_unassigned (hup : s.crtUp = true) (hch : s.chanOf i.val = none) :
    exec (.conversion i reading ovr low lag) s = .next (s.keeps i.val none low) := by
  show execConversion i reading ovr low lag s = _
  unfold execConversion
  extract_lets i' y low' bad at_ s1 put
  have hch1 : s1.chanOf i' = none := hch
  rw [if_neg (by simp [hup]), hch1]
  rfl

/-- The conversion as its input keeps it. -/
def State.convOf (s : State) (i c : Fin 8) (reading : Int) (bad : Bool) (lag : Nat) : CrtSample :=
  { v := s.gain c.val i.val * reading, at_ := s.convTime lag, bad := bad }

theorem exec_conversion_assigned (hup : s.crtUp = true) (hch : s.chanOf i.val = some c.val) :
    let bad := ovr || s.lowRun i.val low == 10
    let t := s.keeps i.val (some (s.convOf i c reading bad lag)) low
    exec (.conversion i reading ovr low lag) s =
      .next ((if bad then t.markBad c.val (s.convTime lag) ovr else t).completed c.val (s.inputs c.val) (s.convTime lag) bad) := by
  intro bad t
  show execConversion i reading ovr low lag s = _
  unfold execConversion
  extract_lets i' y low' bad' at_ s1 put
  have hch1 : s1.chanOf i' = some c.val := hch
  rw [if_neg (by simp [hup]), hch1]
  rfl

/-! ### What no conversion changes -/

theorem emit_setsCh (s : State) (c : Nat) (p : CrtSample) : ∃ x, s.setsCh (s.emit c p) c x ∧ x.ovrAt = (s.crtCh c).ovrAt := by
  unfold State.emit
  dsimp only
  split
  · split_ifs
    · exact ⟨_, updCh'_setsCh .., rfl⟩
    · obtain ⟨k, hk⟩ := massOf_state s c (((p :: (s.crtCh c).samples).take (s.avgN c)).map (·.v) |>.foldl (· + ·) 0) (s.avgN c)
      rw [hk]
      exact ⟨_, (freshCtr_setsCh s k c).updCh' _, rfl⟩
  · split_ifs
    · exact ⟨_, updCh'_setsCh .., rfl⟩
    · exact ⟨_, freshCtr_setsCh s s.freeCtr c, rfl⟩
  · exact ⟨_, freshCtr_setsCh s s.freeCtr c, rfl⟩

theorem chanSet_setsCh (s : State) (c : Nat) (p : CrtSample) : ∃ x, s.setsCh (s.chanSet c p) c x ∧ x.ovrAt = (s.crtCh c).ovrAt := by
  unfold State.chanSet
  extract_lets x z t
  have ht : s.setsCh t c { x with sinceEdge := x.sinceEdge + 1 } := updCh'_setsCh ..
  split_ifs
  · exact emit_setsCh ..
  · exact ⟨_, ht, rfl⟩
  · exact ⟨_, ht.updCh' _, rfl⟩
  · split
    · exact ⟨_, ht, rfl⟩
    next n _ =>
      obtain ⟨y, hy, hovr⟩ := emit_setsCh t c { n with v := n.v - p.v - 2 * z }
      obtain ⟨w, hw, hovr'⟩ := emit_setsCh (t.emit c { n with v := n.v - p.v - 2 * z }) c { p with v := n.v - p.v - 2 * z }
      refine ⟨w, ht.trans (hy.trans hw), ?_⟩
      rw [hovr', hy.ch, hovr, ht.ch]

/-- A set that a channel takes changes that channel alone, and not its mark of a bad conversion. -/
theorem completed_spec (s : State) (c : Nat) (mine : List Nat) (at_ : Nat) (bad : Bool) :
    let t := s.completed c mine at_ bad
    (t.crtCh c).ovrAt = (s.crtCh c).ovrAt ∧ (∀ k, k ≠ c → t.crtCh k = s.crtCh k) ∧ s.spares t := by
  unfold State.completed
  split_ifs
  · obtain ⟨x, hx, hovr⟩ := chanSet_setsCh (s.handOver mine) c { v := s.sumOf mine, at_ := at_, bad := bad }
    refine ⟨?_, hx.others, hx.crtOnly.spares⟩
    rw [hx.ch, hovr]
    rfl
  · exact ⟨rfl, fun _ _ => rfl, fun _ => rfl, fun _ => rfl⟩

theorem markBad_ovr (s : State) (c at_ : Nat) : ∃ x, s.setsCh (s.markBad c at_ true) c x ∧ x.ovrAt = some s.nowNs := by
  unfold State.markBad
  extract_lets t
  have ht : s.setsCh t c _ := updCh'_setsCh s c _
  exact ⟨_, ht.sameBut rfl, rfl⟩

/-! ### The clauses of O28 on conversions -/

theorem conversion_unassigned (hup : s.crtUp = true) (hch : s.chanOf i.val = none) : Answers (.conversion i reading ovr low lag) s fun t =>
    t.crt.chs = s.crt.chs ∧ (∀ k, t.input k = if k = i.val then { wait := none, low := s.lowRun i.val low } else s.input k) ∧
      { t with crt := s.crt, freeCtr := s.freeCtr } = s :=
  ⟨_, exec_conversion_unassigned hup hch, rfl, input_keeps s i.val none low, rfl⟩

theorem completed_of_missing {mine : List Nat} (h : ∃ k ∈ mine, (s.input k).wait = none) (c at_ : Nat) (bad : Bool) :
    s.completed c mine at_ bad = s := by
  obtain ⟨k, hk, hnone⟩ := h
  refine if_neg fun hall => ?_
  have hsome := List.all_eq_true.1 hall _ (List.mem_map_of_mem hk)
  rw [hnone] at hsome
  exact Bool.false_ne_true hsome

theorem conversion_good (hup : s.crtUp = true) (hch : s.chanOf i.val = some c.val) (hlow : s.lowRun i.val low < 10) :
    exec (.conversion i reading false low lag) s =
      .next ((s.keeps i.val (some (s.convOf i c reading false lag)) low).completed c.val (s.inputs c.val) (s.convTime lag) false) := by
  have hbad : (false || s.lowRun i.val low == 10) = false := by
    rw [Bool.false_or]
    exact beq_eq_false_iff_ne.2 hlow.ne
  rw [exec_conversion_assigned hup hch, hbad]
  rfl

theorem conversion_waits (hup : s.crtUp = true) (hch : s.chanOf i.val = some c.val) (hlow : s.lowRun i.val low < 10)
    (hmiss : ∃ k ∈ s.inputs c.val, k ≠ i.val ∧ (s.input k).wait = none) : Answers (.conversion i reading false low lag) s fun t =>
    t.crt.chs = s.crt.chs ∧ (∀ k, k ≠ i.val → t.input k = s.input k) ∧
      ((t.input i.val).wait.map fun p => (p.v, p.bad)) = some (s.gain c.val i.val * reading, false) ∧
      { t with crt := s.crt, freeCtr := s.freeCtr } = s := by
  obtain ⟨k, hk, hki, hnone⟩ := hmiss
  refine ⟨_, conversion_good hup hch hlow, ?_⟩
  rw [completed_of_missing ⟨k, hk, by rw [input_keeps, if_neg hki, hnone]⟩]
  refine ⟨rfl, fun k hk => by rw [input_keeps, if_neg hk], ?_, rfl⟩
  rw [input_keeps, if_pos rfl]
  rfl

/-- The sum that a complete set hands over: the new conversion and what the other inputs kept. -/
theorem sumOf_keeps (s : State) (i : Nat) (p : CrtSample) (low : Bool) (mine : List Nat) :
    (s.keeps i (some p) low).sumOf mine = mine.foldl (fun a k => a + if k = i then p.v else ((s.input k).wait.map (·.v)).getD 0) 0 := by
  unfold State.sumOf
  rw [List.foldl_map, List.foldl_map]
  refine List.foldl_ext _ _ _ fun a k _ => ?_
  rw [input_keeps]
  split_ifs <;> rfl

theorem emit_short (h : (s.crtCh c.val).st = .static) (hn : (s.crtCh c.val).samples.length + 1 < s.avgN c.val) (p : CrtSample) :
    s.emit c.val p = s.updCh' c.val fun x => { x with samples := p :: (s.crtCh c.val).samples } := by
  have htake : (p :: (s.crtCh c.val).samples).take (s.avgN c.val) = p :: (s.crtCh c.val).samples := List.take_of_length_le hn.le
  unfold State.emit
  dsimp only
  rw [h]
  dsimp only
  rw [htake, List.length_cons, if_pos hn]

theorem completed_of_all {mine : List Nat} (h : ∀ k ∈ mine, (s.input k).wait.isSome = true) (c at_ : Nat) (bad : Bool) :
    s.completed c mine at_ bad = (s.handOver mine).chanSet c { v := s.sumOf mine, at_ := at_, bad := bad } :=
  if_pos (List.all_eq_true.2 fun _ ho => by
    obtain ⟨k, hk, rfl⟩ := List.mem_map.1 ho
    exact h k hk)

theorem chanSet_plain (h : s.chop c.val = 0) (p : CrtSample) : s.chanSet c.val p = s.emit c.val { p with v := 2 * p.v - 2 * s.zeroSum c.val } :=
  if_pos h

theorem conversion_static (hup : s.crtUp = true) (hch : s.chanOf i.val = some c.val) (hlow : s.lowRun i.val low < 10)
    (hall : ∀ k ∈ s.inputs c.val, k ≠ i.val → (s.input k).wait.isSome = true) (hchop : s.chop c.val = 0) (hst : (s.crtCh c.val).st = .static)
    (hn : (s.crtCh c.val).samples.length + 1 < s.avgN c.val) : Answers (.conversion i reading false low lag) s fun t =>
    let sum := (s.inputs c.val).foldl (fun a k => a + if k = i.val then s.gain c.val k * reading else ((s.input k).wait.map (·.v)).getD 0) 0
    (t.crtCh c.val).samples.map (·.v) = (2 * sum - 2 * s.zeroSum c.val) :: (s.crtCh c.val).samples.map (·.v) ∧
      (∀ k, k ≠ c.val → t.crtCh k = s.crtCh k) ∧ s.spares t := by
  refine ⟨_, conversion_good hup hch hlow, ?_⟩
  let p := s.convOf i c reading false lag
  let t := s.keeps i.val (some p) low
  let u := t.handOver (s.inputs c.val)
  have hready : ∀ k ∈ s.inputs c.val, (t.input k).wait.isSome = true := fun k hk => by
    rw [input_keeps]
    by_cases hki : k = i.val
    · rw [if_pos hki]
      rfl
    · rw [if_neg hki]
      exact hall k hk hki
  have hchopU : u.chop c.val = 0 := hchop
  have hstU : (u.crtCh c.val).st = .static := hst
  have hnU : (u.crtCh c.val).samples.length + 1 < u.avgN c.val := hn
  rw [completed_of_all hready, chanSet_plain hchopU, emit_short hstU hnU]
  have hset := updCh'_setsCh u c.val fun x => { x with samples := { v := 2 * t.sumOf (s.inputs c.val) - 2 * u.zeroSum c.val, at_ := s.convTime lag, bad := false } :: (u.crtCh c.val).samples }
  refine ⟨?_, hset.others, hset.crtOnly.spares⟩
  have hsum : t.sumOf (s.inputs c.val) =
      (s.inputs c.val).foldl (fun a k => a + if k = i.val then s.gain c.val k * reading else ((s.input k).wait.map (·.v)).getD 0) 0 := by
    rw [sumOf_keeps]
    refine List.foldl_ext _ _ _ fun a k _ => ?_
    by_cases hk : k = i.val
    · rw [if_pos hk, if_pos hk, hk]
      rfl
    · rw [if_neg hk, if_neg hk]
  rw [hset.ch, hsum]
  rfl

theorem conversion_ovr (hup : s.crtUp = true) (hch : s.chanOf i.val = some c.val) : Answers (.conversion i reading true low lag) s fun t =>
    (t.crtCh c.val).ovrAt = some s.nowNs ∧ (∀ k, k ≠ c.val → t.crtCh k = s.crtCh k) ∧ s.spares t := by
  refine ⟨_, exec_conversion_assigned hup hch, ?_⟩
  rw [Bool.true_or, if_pos rfl]
  have hkeep := keeps_crtOnly s i.val (some (s.convOf i c reading true lag)) low
  have hchs (k : Nat) : (s.keeps i.val (some (s.convOf i c reading true lag)) low).crtCh k = s.crtCh k := rfl
  have hns : (s.keeps i.val (some (s.convOf i c reading true lag)) low).nowNs = s.nowNs := rfl
  generalize s.keeps i.val (some (s.convOf i c reading true lag)) low = t at hkeep hchs hns
  obtain ⟨x, hx, hovr⟩ := markBad_ovr t c.val (s.convTime lag)
  generalize t.markBad c.val (s.convTime lag) true = u at hx
  obtain ⟨hmark, hothers, hspares⟩ := completed_spec u c.val (s.inputs c.val) (s.convTime lag) true
  refine ⟨?_, fun k hk => ?_, ?_⟩
  · rw [hmark, hx.ch, hovr, hns]
  · rw [hothers k hk, hx.others k hk, hchs]
  · have hbefore := (hkeep.trans hx.crtOnly).spares
    exact ⟨fun a => (hspares.1 a).trans (hbefore.1 a), fun c => (hspares.2 c).trans (hbefore.2 c)⟩

/-! ### The clause of O28 on EXC_CHOP, for a channel table in order -/

/-- A change of every value reaches the value at each key when the keys rise and the unlisted value stays. -/
theorem Table.get_mapV {α : Type} [DecidableEq α] {d : α} {f : α → α} (hf : f d = d) {t : Table α} (h : t.Pairwise fun a b => a.1 < b.1) (k : Nat) :
    Table.get (fun _ => d) (Table.mapV d f t) k = f (Table.get (fun _ => d) t k) := by
  induction t with
  | nil => exact hf.symm
  | cons x t ih =>
    obtain ⟨j, w⟩ := x
    obtain ⟨hfirst, hrest⟩ := List.pairwise_cons.1 h
    have hbehind : k = j → Table.get (fun _ => d) t k = d := fun hkj => by
      by_contra hne
      exact absurd (hfirst _ (Table.mem_of_get hne)) (by simp [hkj])
    rw [Table.get_cons]
    by_cases hw : f w = d
    · have hdrop : Table.mapV d f ((j, w) :: t) = Table.mapV d f t := by simp [Table.mapV, hw]
      rw [hdrop, ih hrest]
      split_ifs with hkj
      · rw [hbehind hkj.symm, hf, hw]
      · rfl
    · have hkeep : Table.mapV d f ((j, w) :: t) = (j, f w) :: Table.mapV d f t := by simp [Table.mapV, hw]
      rw [hkeep, Table.get_cons, ih hrest]
      split_ifs <;> rfl

/-- A channel after an edge of EXC_CHOP, which was `exc` before it. -/
def CrtCh.atEdge (exc : Bool) (x : CrtCh) : CrtCh := { x with sinceEdge := 0, half := if exc then [] else x.half }

theorem atEdge_default (exc : Bool) : CrtCh.atEdge exc {} = {} := by cases exc <;> rfl

theorem chopEdge_reverses (hup : s.crtUp = true) (hwf : Table.wf (fun _ => {}) s.crt.chs = true) (hst : (s.crtCh c.val).st ≠ .off)
    (hchop : s.chop c.val ≠ 0) (hdue : 4 * 2 ^ s.chop c.val ≤ (s.crtCh c.val).sinceEdge) : Answers (.chopEdge c) s fun t =>
    t.crt.exc = (!s.crt.exc) ∧ (∀ k, t.crtCh k = { s.crtCh k with sinceEdge := 0, half := if s.crt.exc then [] else (s.crtCh k).half }) ∧
      { t with crt := s.crt } = s := by
  have hstep : exec (.chopEdge c) s = .next s.chopEdge := congrArg Host.Outcome.next (if_pos (by simp [hup, hst, hchop, hdue]))
  obtain ⟨hrising, -⟩ := (Table.wf_iff ..).1 hwf
  have hch (k : Nat) : s.chopEdge.crtCh k = (s.crtCh k).atEdge s.crt.exc := Table.get_mapV (atEdge_default _) hrising k
  exact ⟨_, hstep, rfl, hch, rfl⟩

end Sys2Proof.Machine
end

section
/-! SUPPORT. An edge of EXC_CHOP over a channel table out of order (R236). -/

namespace Sys2Proof.Machine

/-- Channel 0 chops and has had its half-period; the table holds channel 1 twice, and only its first entry is in force. -/
def doubledChannel : State where
  sys := { porst := false }
  crt := { down := false, store := { recs := [(0, [0#8, 0#8, 8#8, 0#8])] }
           chs := [(0, { st := .static, sinceEdge := 8 }), (1, { sinceEdge := 5 }), (1, { tare := 7 })] }

/-- The edge takes the entry in force out of the table, since it is now a channel as at reset, and the one behind it shows. -/
theorem tare_chopEdge_doubledChannel : (doubledChannel.crtCh 1).tare = 0 ∧ (doubledChannel.chopEdge.crtCh 1).tare = 7 := by decide

/-- Refutes O28 at its clause on EXC_CHOP, which speaks of every state, also of one whose channel table is out of order: in `doubledChannel`
an edge changes the tare of channel 1. That clause holds with the table in canonical form (`chopEdge_reverses`), and the others in every state
(`conversion_unassigned`, `conversion_waits`, `conversion_static`, `conversion_ovr`). -/
theorem not_weighingConversions : ¬ Obligations.WeighingConversions := by
  intro h
  obtain ⟨-, -, -, -, hedge⟩ := h doubledChannel 0 0 0 false 0 (by decide)
  obtain ⟨t, ht, -, hch, -⟩ := hedge (by decide) (by decide) (by decide)
  have hstep : exec (.chopEdge 0) doubledChannel = .next doubledChannel.chopEdge := congrArg Host.Outcome.next (if_pos (by decide))
  have htwin : t = doubledChannel.chopEdge := Host.Outcome.next.inj (ht.symm.trans hstep)
  have htare : (t.crtCh 1).tare = (doubledChannel.crtCh 1).tare := (congrArg CrtCh.tare (hch 1) :)
  obtain ⟨hbefore, hafter⟩ := tare_chopEdge_doubledChannel
  rw [htwin, hafter, hbefore] at htare
  exact absurd htare (by decide)

end Sys2Proof.Machine
end
